-- ==== Sys2Proof/Word.lean ====
section
/-! DEFINITION. Words, lanes and the plain data types that the state and the instructions share. -/

namespace Sys2Proof

/-- A scalar register or a control register: 64 bits (R44). -/
abbrev Word := BitVec 64
/-- A byte of a memory, a scratchpad or a fetch line (R4). -/
abbrev Byte := BitVec 8
/-- A lane of a vector register (R125). -/
abbrev Lane := BitVec 32
/-- A vector register: 64 lanes of 32 bits (R44, R125). -/
abbrev LaneVec := Vector Lane 64
/-- A program counter: a 51-bit virtual address (R55). -/
abbrev PC := BitVec 51
/-- A memory: a list of (address, byte), addresses strictly rising, no entry equal to zero. -/
abbrev Mem := List (Nat × Byte)

/-- The value of an element of any format of R18, before any rounding: NaN, an infinity, or
(−1)^neg × m × 2^e (R8, R19). The sign of a zero is kept. -/
inductive FVal where
  | nan
  | inf (neg : Bool)
  | fin (neg : Bool) (m : Nat) (e : Int)
deriving DecidableEq, Repr, Inhabited

/-- The fields of an 80-bit long instruction (R81), without its opcode. -/
structure Fields where
  dst : BitVec 6 := 0
  sa : BitVec 6 := 0
  sb : BitVec 6 := 0
  sc : BitVec 6 := 0
  wa : BitVec 2 := 0
  wb : BitVec 2 := 0
  wc : BitVec 2 := 0
  emp : BitVec 1 := 0
  pd : BitVec 3 := 0
  pred : BitVec 3 := 0
  pneg : BitVec 1 := 0
  ty : BitVec 4 := 0
  md : BitVec 4 := 0
  imm : BitVec 24 := 0
deriving DecidableEq, Repr, Inhabited

/-- The fields of a 40-bit short instruction (R82), without its opcode. -/
structure ShortFields where
  dst : BitVec 6 := 0
  sa : BitVec 6 := 0
  sb : BitVec 6 := 0
  wa : BitVec 2 := 0
  wb : BitVec 2 := 0
  emp : BitVec 1 := 0
  pd : BitVec 3 := 0
  imm6 : BitVec 6 := 0
deriving DecidableEq, Repr, Inhabited

/-- A packet of a link: the header fields of R368 and its payload bytes. -/
structure Packet where
  kind : BitVec 4 := 0
  nbytes : BitVec 12 := 0
  lseq : BitVec 16 := 0
  fseq : BitVec 32 := 0
  flow : BitVec 16 := 0
  snode : BitVec 21 := 0
  sdie : BitVec 2 := 0
  dnode : BitVec 21 := 0
  ddie : BitVec 2 := 0
  pa : BitVec 42 := 0
  ord : Bool := true
  hops : BitVec 7 := 24
  aux : BitVec 48 := 0
  crc : BitVec 32 := 0
  payload : List Byte := []
deriving DecidableEq, Repr, Inhabited

/-- Where a register write of R122 goes: a control register of a core, or a management register
of a block at an offset. -/
inductive RegTarget where
  /-- CSR `num` of core `core` (R95). -/
  | csr (core num : Nat)
  /-- Progress Engine of a die (R275). -/
  | pe (die offset : Nat)
  /-- Racking Engine (R345). -/
  | rack (offset : Nat)
  /-- Text front-end (R364). -/
  | tfe (offset : Nat)
  /-- Fabric (R381). -/
  | fabric (offset : Nat)
  /-- Coolant and power (R419). -/
  | cool (offset : Nat)
  /-- Scheduler settings PREWAIT, PREDRAIN and YDL (R326, R327, R329), by name. -/
  | sched (name : Nat)
  /-- The clock of a cluster, which the management core forces down (R404, cause 4); no rule gives it a register (log 123). -/
  | clock (cluster : Nat)
  /-- STATE of a zone, which the management core sets to disabled or takes back (R407); no rule gives it a register (log 123). -/
  | zone (zone : Nat)
deriving DecidableEq, Repr, Inhabited

/-- What a step of a device is about: up to three numbers, a word, a packet, bytes, a register. Which of them a step
reads, its constructor in Syntax.lean says. -/
structure EvArg where
  n0 : Nat := 0
  n1 : Nat := 0
  n2 : Nat := 0
  w : Word := 0
  p : Packet := {}
  bytes : List Byte := []
  t : RegTarget := .fabric 0
deriving DecidableEq, Repr, Inhabited

/-- The operand fields of an instruction word. -/
inductive Operands where
  | long (f : Fields)
  | short (g : ShortFields)
deriving DecidableEq, Repr, Inhabited

/-- A vector with the value of `f` at each index; it evaluates by a list. -/
def tab {α : Type} (n : Nat) (f : Nat → α) : Vector α n :=
  ⟨⟨(List.range n).map f⟩, by simp⟩

end Sys2Proof
end

