-- ==== Sys2Proof/Syntax.lean ====
section
/-! DEFINITION. The instructions and the device steps: one constructor for each row of spec/opcode_table.json, in its order.
The operands of an instruction are the fields of its word (`Fields`, R81; `ShortFields`, R82): the decoder answers both, and the
instruction register `ir` of the state holds them at issue. What a device step is about is an `EvArg` of the state. -/

namespace Sys2Proof

/-- One constructor a row of the opcode table. A docstring names the rule of the row and, for a device step, what the
fields of its `EvArg` name, in order (n0, n1, n2; w; p; bytes; t). -/
inductive Instr where
  /-- SADD (R102): Scalar add of two registers, wrapping or saturating to TYPE. -/
  | sadd
  /-- SSUB (R102): Scalar subtract of two registers, wrapping or saturating to TYPE. -/
  | ssub
  /-- SMUL (R102): Scalar multiply with a latency of 3, wrapping or saturating to TYPE. -/
  | smul
  /-- SMULH (R102): Upper half of the 2w-bit scalar product. -/
  | smulh
  /-- SDIV (R103): Long-latency scalar divide that truncates toward zero; a divide by zero gives all ones. -/
  | sdiv
  /-- SREM (R103): Long-latency scalar remainder; a divide by zero gives the dividend. -/
  | srem
  /-- SAND (R104): Bitwise AND of two scalar registers. -/
  | sand
  /-- SOR (R104): Bitwise OR of two scalar registers. -/
  | sor
  /-- SXOR (R104): Bitwise XOR of two scalar registers. -/
  | sxor
  /-- SSHL (R104): Scalar shift left by the amount in bits 5:0 of a register. -/
  | sshl
  /-- SSHR (R104): Scalar logical shift right by a register amount. -/
  | sshr
  /-- SSRA (R104): Scalar arithmetic shift right by a register amount. -/
  | ssra
  /-- SMIN (R102): Scalar minimum under TYPE. -/
  | smin
  /-- SMAX (R102): Scalar maximum under TYPE. -/
  | smax
  /-- SCMP (R107): Scalar compare under a condition; writes 1 or 0. -/
  | scmp
  /-- SSEL (R108): Scalar select of SB or SC by whether SA is nonzero. -/
  | ssel
  /-- SCLZ (R104): Count of leading zero bits of a scalar. -/
  | sclz
  /-- SCTZ (R104): Count of trailing zero bits of a scalar. -/
  | sctz
  /-- SPOPC (R104): Count of one bits of a scalar. -/
  | spopc
  /-- SCMPM (R107): Scalar compare that writes all ones or zero to a mask register. -/
  | scmpm
  /-- SADDI (R105): Scalar add of a sign-extended 24-bit immediate. -/
  | saddi
  /-- SANDI (R104): Bitwise AND with a sign-extended immediate. -/
  | sandi
  /-- SORI (R104): Bitwise OR with a sign-extended immediate. -/
  | sori
  /-- SXORI (R104): Bitwise XOR with a sign-extended immediate. -/
  | sxori
  /-- SSHLI (R104): Scalar shift left by an immediate amount. -/
  | sshli
  /-- SSHRI (R104): Scalar logical shift right by an immediate amount. -/
  | sshri
  /-- SSRAI (R104): Scalar arithmetic shift right by an immediate amount. -/
  | ssrai
  /-- SCMPI (R107): Scalar compare against an immediate; writes 1 or 0. -/
  | scmpi
  /-- SLI (R105): Loads a sign-extended 24-bit immediate into a scalar register. -/
  | sli
  /-- SLIH (R105): Replaces bits 63:48 of a scalar with a 16-bit immediate. -/
  | slih
  /-- SLIT (R105): Replaces bits 47:24 of a scalar with a 24-bit immediate. -/
  | slit
  /-- SBEXT (R106): Extracts a bit field, zero- or sign-extended. -/
  | sbext
  /-- SBINS (R106): Inserts a bit field into a scalar. -/
  | sbins
  /-- MAND (R109): Bitwise AND of two mask registers. -/
  | mand
  /-- MOR (R109): Bitwise OR of two mask registers. -/
  | mor
  /-- MXOR (R109): Bitwise XOR of two mask registers. -/
  | mxor
  /-- MANDN (R109): Mask AND NOT. -/
  | mandn
  /-- MFROMS (R109): Copies a scalar register into a mask register. -/
  | mfroms
  /-- MTOS (R109): Copies a mask register into a scalar register. -/
  | mtos
  /-- MPOPC (R109): Counts the one bits of a mask register. -/
  | mpopc
  /-- MLANE (R109): Builds a tail mask that sets lanes 0 to n - 1. -/
  | mlane
  /-- SLD (R110): Scalar load from a space, fixed latency from A and long latency from G, windows or P. -/
  | sld
  /-- SST (R110): Scalar store to a space, after the access checks of R111. -/
  | sst
  /-- BR (R115): Unconditional PC-relative branch. -/
  | br
  /-- BRC (R115): Conditional branch on a compare of two registers. -/
  | brc
  /-- BRCI (R115): Conditional branch on a compare against a 12-bit immediate. -/
  | brci
  /-- BRI (R115): Branch to the PC held in a register. -/
  | bri
  /-- CALL (R115): PC-relative call that writes a link register. -/
  | call
  /-- CALLI (R115): Call to a register target that writes a link register. -/
  | calli
  /-- RET (R115): Return to the PC held in a register. -/
  | ret
  /-- LOOP (R118): Starts a hardware loop with a register trip count. -/
  | loop
  /-- LOOPI (R118): Starts a hardware loop with an immediate trip count. -/
  | loopi
  /-- LOOPS (R118): Starts a software-pipelined loop and binds its stage-predicate masks. -/
  | loops
  /-- CSRRD (R122): Reads a control register with a latency of 2. -/
  | csrrd
  /-- CSRWR (R122): Writes a control register at the end of its issue cyc. -/
  | csrwr
  /-- FEGET (R123): Reads the full/empty bits of the S registers. -/
  | feget
  /-- FEGETV (R123): Reads the full/empty bits of the V registers. -/
  | fegetv
  /-- FEWAITS (R123): Holds issue until every named S and V register is full. -/
  | fewaits
  /-- NOP (R124): No operation; occupies one issue cyc. -/
  | nop
  /-- SADD_SHORT (R83): Short form 0xE0 of SADD. -/
  | saddShort
  /-- SSUB_SHORT (R83): Short form 0xE1 of SSUB. -/
  | ssubShort
  /-- SAND_SHORT (R83): Short form 0xE2 of SAND. -/
  | sandShort
  /-- SOR_SHORT (R83): Short form 0xE3 of SOR. -/
  | sorShort
  /-- SXOR_SHORT (R83): Short form 0xE4 of SXOR. -/
  | sxorShort
  /-- SSHL_SHORT (R83): Short form 0xE5 of SSHL. -/
  | sshlShort
  /-- SSHR_SHORT (R83): Short form 0xE6 of SSHR. -/
  | sshrShort
  /-- SSRA_SHORT (R83): Short form 0xE7 of SSRA. -/
  | ssraShort
  /-- SMUL_SHORT (R83): Short form 0xE8 of SMUL. -/
  | smulShort
  /-- SMIN_SHORT (R83): Short form 0xE9 of SMIN on I64. -/
  | sminShort
  /-- SMAX_SHORT (R83): Short form 0xEA of SMAX on I64. -/
  | smaxShort
  /-- SCMP_SHORT (R83): Short form 0xEB of SCMP, with type and condition in IMM6. -/
  | scmpShort
  /-- SADDI_SHORT (R83): Short form 0xEC of SADDI with a 6-bit signed immediate. -/
  | saddiShort
  /-- SSHLI_SHORT (R83): Short form 0xED of SSHLI. -/
  | sshliShort
  /-- SSHRI_SHORT (R83): Short form 0xEE of SSHRI. -/
  | sshriShort
  /-- SLI_SHORT (R83): Short form 0xEF of SLI with a 6-bit signed immediate. -/
  | sliShort
  /-- SLD_SHORT (R83): Short form 0xF0 of SLD.I64 from space A. -/
  | sldShort
  /-- SST_SHORT (R83): Short form 0xF1 of SST.I64 to space A. -/
  | sstShort
  /-- VADD_F32_SHORT (R83): Short form 0xF2 of VADD.F32.RN. -/
  | vaddF32Short
  /-- VSUB_SHORT (R83): Short form 0xF3 of VSUB.F32.RN. -/
  | vsubShort
  /-- VMUL_SHORT (R83): Short form 0xF4 of VMUL.F32.RN. -/
  | vmulShort
  /-- VADD_I32_SHORT (R83): Short form 0xF5 of VADD.I32. -/
  | vaddI32Short
  /-- VMOV_SHORT (R83): Short form 0xF6 of VMOV. -/
  | vmovShort
  /-- VLD_SHORT (R83): Short form 0xF7 of VLD.F32 from space A. -/
  | vldShort
  /-- VST_SHORT (R83): Short form 0xF8 of VST.F32 to space A. -/
  | vstShort
  /-- MAND_SHORT (R83): Short form 0xF9 of MAND. -/
  | mandShort
  /-- MOR_SHORT (R83): Short form 0xFA of MOR. -/
  | morShort
  /-- RET_SHORT (R83): Short form 0xFB of RET. -/
  | retShort
  /-- NOP_SHORT (R83): Short form 0xFC of NOP. -/
  | nopShort
  /-- PHCOMMIT_SHORT (R83): Short form 0xFD of PHCOMMIT. -/
  | phcommitShort
  /-- YIELD_SHORT (R83): Short form 0xFE of YIELD. -/
  | yieldShort
  /-- VMAX_SHORT (R83): Short form 0xFF of VMAX.F32. -/
  | vmaxShort
  /-- VADD (R128): Lane-wise vector add. -/
  | vadd
  /-- VSUB (R128): Lane-wise vector subtract. -/
  | vsub
  /-- VMUL (R128): Lane-wise vector multiply; long latency for integer types. -/
  | vmul
  /-- VFMA (R128): Fused multiply-add a × b + c with one rounding. -/
  | vfma
  /-- VFMS (R128): Fused a × b − c with one rounding. -/
  | vfms
  /-- VFNMA (R128): Fused c − a × b with one rounding. -/
  | vfnma
  /-- VMIN (R130): Lane-wise minimum that ignores a NaN operand. -/
  | vmin
  /-- VMAX (R130): Lane-wise maximum that ignores a NaN operand. -/
  | vmax
  /-- VABS (R130): Lane-wise absolute value. -/
  | vabs
  /-- VNEG (R130): Lane-wise negation. -/
  | vneg
  /-- VAND (R128): Bitwise AND of two vectors. -/
  | vand
  /-- VOR (R128): Bitwise OR of two vectors. -/
  | vor
  /-- VXOR (R128): Bitwise XOR of two vectors. -/
  | vxor
  /-- VSHL (R128): Lane-wise shift left by the lane amount. -/
  | vshl
  /-- VSHR (R128): Lane-wise logical shift right. -/
  | vshr
  /-- VSRA (R128): Lane-wise arithmetic shift right. -/
  | vsra
  /-- VADDS (R128): Adds a scalar to every lane. -/
  | vadds
  /-- VMULS (R128): Multiplies every lane by a scalar. -/
  | vmuls
  /-- VADDI (R131): Adds an immediate to every integer lane. -/
  | vaddi
  /-- VANDI (R131): ANDs every lane with an immediate. -/
  | vandi
  /-- VSHLI (R131): Shifts every lane left by an immediate amount. -/
  | vshli
  /-- VSHRI (R131): Shifts every lane logically right by an immediate amount. -/
  | vshri
  /-- VSRAI (R131): Shifts every lane arithmetically right by an immediate amount. -/
  | vsrai
  /-- VMOV (R132): Vector register move. -/
  | vmov
  /-- VSEL (R132): Lane select between two vectors under a mask. -/
  | vsel
  /-- VBCAST (R132): Broadcasts the low 32 bits of a scalar to every lane. -/
  | vbcast
  /-- VINS (R132): Inserts a scalar into one lane. -/
  | vins
  /-- VEXT (R132): Extracts one lane into a scalar register. -/
  | vext
  /-- VIOTA (R132): Writes base + i × step into lane i. -/
  | viota
  /-- VCMP (R133): Lane-wise compare into a mask register. -/
  | vcmp
  /-- VCLASS (R134): Lane-wise float class test into a mask register. -/
  | vclass
  /-- VCVT (R135): Lane-wise format conversion. -/
  | vcvt
  /-- VE2ENC (R136): Encodes two E2M1 blocks from 64 float lanes. -/
  | ve2enc
  /-- VE2DEC (R137): Decodes two E2M1 blocks into float lanes. -/
  | ve2dec
  /-- VBENC (R138): Encodes four BFPn blocks from float lanes. -/
  | vbenc
  /-- VBDEC (R138): Decodes four BFPn blocks into float lanes. -/
  | vbdec
  /-- VRADD (R139): Tree-ordered sum reduction of the enabled lanes into a scalar. -/
  | vradd
  /-- VRMIN (R139): Minimum reduction of the enabled lanes. -/
  | vrmin
  /-- VRMAX (R139): Maximum reduction of the enabled lanes. -/
  | vrmax
  /-- VPERM (R140): Permutes the lanes of one vector by an index vector. -/
  | vperm
  /-- VPERM2 (R140): Permutes lanes drawn from two vectors. -/
  | vperm2
  /-- VPACK (R140): Packs narrow lanes of two vectors densely. -/
  | vpack
  /-- VUNPK (R140): Unpacks one part of a dense array into lanes. -/
  | vunpk
  /-- VROT (R140): Rotates the lanes by an immediate. -/
  | vrot
  /-- VEXP (R141): Approximate e to the power a per lane. -/
  | vexp
  /-- VLOG (R141): Long-latency approximate natural logarithm per lane. -/
  | vlog
  /-- VRCP (R141): Approximate reciprocal per lane. -/
  | vrcp
  /-- VRSQRT (R141): Approximate reciprocal square root per lane. -/
  | vrsqrt
  /-- VRND (R141): Rounds each lane to an integral value. -/
  | vrnd
  /-- VSCL (R141): Scales each lane by 2 to the power k. -/
  | vscl
  /-- VSORT (R143): Sorts the 64 lanes ascending or descending. -/
  | vsort
  /-- VLD (R144): Loads 64 elements into the lanes. -/
  | vld
  /-- VST (R144): Stores the enabled lanes. -/
  | vst
  /-- VLDS (R144): Loads one element into every enabled lane. -/
  | vlds
  /-- VSTS (R144): Stores the element of the lowest enabled lane. -/
  | vsts
  /-- TCFG (R180): Configures a tile register's shape and format, leaving it ZERO. -/
  | tcfg
  /-- TZERO (R180): Sets a tile register to ZERO. -/
  | tzero
  /-- TCONST (R180): Sets a tile register to CONST of a scalar value. -/
  | tconst
  /-- TRAMP (R180): Sets a tile register to a RAMP. -/
  | tramp
  /-- TREPEAT (R180): Sets a tile register to a REPEAT of a source handle. -/
  | trepeat
  /-- TLD (R182): Loads a tile by handle into a tile register. -/
  | tld
  /-- TLDA (R182): Loads a tile register from a virtual address by plain loads. -/
  | tlda
  /-- TST (R182): Commits a tile register to its home by handle. -/
  | tst
  /-- TSTA (R182): Writes a tile register to a virtual address by plain stores. -/
  | tsta
  /-- TWROW (R183): Writes a row of a tile register from a vector. -/
  | twrow
  /-- TRROW (R183): Reads a row of a tile register into a vector. -/
  | trrow
  /-- TWCOL (R183): Writes a column of a tile register from a vector. -/
  | twcol
  /-- TRCOL (R183): Reads a column of a tile register into a vector. -/
  | trcol
  /-- TADD (R184): Element-wise tile add, resolved symbolically or computed. -/
  | tadd
  /-- TSUB (R184): Element-wise tile subtract. -/
  | tsub
  /-- TMUL (R184): Element-wise tile multiply. -/
  | tmul
  /-- TMIN (R184): Element-wise tile minimum. -/
  | tmin
  /-- TMAX (R184): Element-wise tile maximum. -/
  | tmax
  /-- TSCALE (R184): Scales a tile by 2 to the power k. -/
  | tscale
  /-- TCVT (R184): Converts a tile to another format. -/
  | tcvt
  /-- TTRANS (R184): Transposes a tile. -/
  | ttrans
  /-- TREDROW (R184): Long-latency row sums of a tile into a vector. -/
  | tredrow
  /-- TSYMX_STRICT (R185): Sets the resolution mode to STRICT. -/
  | tsymxStrict
  /-- TSYMX_FAST (R185): Sets the resolution mode to FAST. -/
  | tsymxFast
  /-- TSTAT_REGISTER (R185): Reads the kind and summary of a tile register's entry. -/
  | tstatRegister
  /-- TSTAT_HANDLE (R185): Long-latency read of a map entry at the tile's home. -/
  | tstatHandle
  /-- TMATL (R185): Promotes a symbolic tile register to stored bytes. -/
  | tmatl
  /-- TSPILL_SAVE (R186): Writes the dirty masked tile registers to their save slots. -/
  | tspillSave
  /-- TSPILL_LAZY (R186): Marks tile registers for write-back at reconfiguration. -/
  | tspillLazy
  /-- TSPILL_RESTORE (R186): Restores saved tile registers from their slots. -/
  | tspillRestore
  /-- TRELEASE (R185): Makes a tile register UNCONF without write-back. -/
  | trelease
  /-- TMOV (R185): Copies a tile register's entry and bytes. -/
  | tmov
  /-- TEXCSET (R187): Writes one element, as an exception pair where possible. -/
  | texcset
  /-- TEXCGET (R185): Reads one synthesized element of a tile register. -/
  | texcget
  /-- MLOADW (R193): Loads the shadow weight plane from the W-buffer. -/
  | mloadw
  /-- MLOADWH (R193): Loads the shadow weight plane from a weight tile by handle. -/
  | mloadwh
  /-- MSWAP (R193): Exchanges the active and shadow weight planes. -/
  | mswap
  /-- MSTREAM (R193): Streams activation rows from the A-buffer past the active plane into accumulators. -/
  | mstream
  /-- MSTREAMH (R193): Streams activation rows of a tile named by handle. -/
  | mstreamh
  /-- MMAC (R193): Loads weights by handle, swaps and streams an activation tile into accumulators. -/
  | mmac
  /-- MMACH (R193): As MMAC with a tile register as accumulator. -/
  | mmach
  /-- MEPI (R195): Epilogue that scales, biases, activates and rounds accumulators into a tile register. -/
  | mepi
  /-- MDRAIN (R197): Fills a register when every earlier MXQ command has completed, with error and count. -/
  | mdrain
  /-- MZACC (R196): Zeroes accumulator rows. -/
  | mzacc
  /-- MACCLD (R196): Loads accumulator rows from the A-buffer. -/
  | maccld
  /-- MACCST (R196): Rounds and stores accumulator rows densely into the C-buffer. -/
  | maccst
  /-- CPY (R233): Strided nested copy between a scratchpad and memory by geometry descriptor. -/
  | cpy
  /-- CPYW (R235): Windowed convolution copy with padding. -/
  | cpyw
  /-- GATHER (R150): Gathers blocks by lane indices into W or A. -/
  | gather
  /-- GATHERB (R149): Bounded block gather that masks or traps out-of-bound lanes. -/
  | gatherb
  /-- CHLINK (R238): Writes the link of a chain entry and resumes a parked walker. -/
  | chlink
  /-- CHKICK (R238): Starts a chain walker from an entry. -/
  | chkick
  /-- XWAIT (R241): Holds issue until a transfer identifier has completed; fills its status. -/
  | xwait
  /-- XPOLL (R242): Reads a channel's transfer status without waiting. -/
  | xpoll
  /-- EVPOP (R243): Pops the oldest event record. -/
  | evpop
  /-- TXQPOP (R244): Pops the next ready text-token batch. -/
  | txqpop
  /-- CHSEQ (R238): Reads a chain walker's state and sequence number. -/
  | chseq
  /-- QDEPTH (R242): Reads the number of commands of a channel or of MXQ. -/
  | qdepth
  /-- PCINC (R281): Adds to the count at a location and time. -/
  | pcinc
  /-- PCDEC (R281): Release that subtracts from the count at a location and time. -/
  | pcdec
  /-- FWAIT (R283): Acquire that fills when the frontier at a location passes a time. -/
  | fwait
  /-- FPOLL (R284): Fills the newest frontier the core's Progress Engine holds. -/
  | fpoll
  /-- PSREG (R271): Registers a template's path-summary table and builds its reach table. -/
  | psreg
  /-- GBAR (R285): Gang barrier after the covered accesses are performed at CLUSTER scope. -/
  | gbar
  /-- FENCE (R253): Orders each named path with itself at a scope. -/
  | fence
  /-- PFENCE (R250): Orders one path after another path at a scope. -/
  | pfence
  /-- AADD (R286): Returning atomic add at the home Progress Engine. -/
  | aadd
  /-- AAND (R286): Returning atomic AND. -/
  | aand
  /-- AOR (R286): Returning atomic OR. -/
  | aor
  /-- AXOR (R286): Returning atomic XOR. -/
  | axor
  /-- AMIN (R286): Returning atomic minimum. -/
  | amin
  /-- AMAX (R286): Returning atomic maximum. -/
  | amax
  /-- AXCHG (R286): Returning atomic exchange. -/
  | axchg
  /-- ACAS (R286): Returning atomic compare-and-swap on a register pair. -/
  | acas
  /-- AADD_NR (R286): Non-returning atomic add. -/
  | aaddNr
  /-- AAND_NR (R286): Non-returning atomic AND. -/
  | aandNr
  /-- AOR_NR (R286): Non-returning atomic OR. -/
  | aorNr
  /-- AXOR_NR (R286): Non-returning atomic XOR. -/
  | axorNr
  /-- AMIN_NR (R286): Non-returning atomic minimum. -/
  | aminNr
  /-- AMAX_NR (R286): Non-returning atomic maximum. -/
  | amaxNr
  /-- AXCHG_NR (R286): Non-returning atomic exchange. -/
  | axchgNr
  /-- ACAS_NR (R286): Non-returning atomic compare-and-swap. -/
  | acasNr
  /-- RED (R289): Remote reduction of 64 lanes as non-returning atomics. -/
  | red
  /-- COLL_REDUCE (R290): Joins a REDUCE collective and posts its count. -/
  | collReduce
  /-- COLL_ALLREDUCE (R290): Joins an ALLREDUCE collective. -/
  | collAllreduce
  /-- COLL_ALLGATHER (R290): Joins an ALLGATHER collective. -/
  | collAllgather
  /-- COLL_BCAST (R290): Joins a BCAST collective. -/
  | collBcast
  /-- TSPAWN (R305): Releases and places up to 64 child task records. -/
  | tspawn
  /-- TJOIN (R307): Sends a join decrement to a task record. -/
  | tjoin
  /-- TEXIT (R308): Ends the thread's part of the task. -/
  | texit
  /-- TEXIT_DROP (R308): Drops the task's count early and continues. -/
  | texitDrop
  /-- TINFO (R309): Reads a field of the running task. -/
  | tinfo
  /-- TENQ (R310): Launches one record of any template. -/
  | tenq
  /-- TRAP (R321): Raises SWTRAP with a code. -/
  | trap
  /-- TRET (R321): Returns from a trap handler to TPC or past it. -/
  | tret
  /-- YIELD (R330): Stops the member here when a yield request is pending. -/
  | yield
  /-- BKPT (R321): Raises BREAK with a code, deferred inside loops. -/
  | bkpt
  /-- WAITEV (R324): Waits for an event record or a bounded time. -/
  | waitev
  /-- TRMARK (R398): Writes a MARK trace record. -/
  | trmark
  /-- TRSTART (R398): Enables trace record types. -/
  | trstart
  /-- TRSTOP (R398): Disables trace record types. -/
  | trstop
  /-- CAPSTART (R403): Opens a capture slot. -/
  | capstart
  /-- CAPSTOP (R403): Closes a capture slot and writes a CAPTURE record. -/
  | capstop
  /-- PHCOMMIT (R389): Commits a buffer phase, releases held STQ commands and takes a snapshot. -/
  | phcommit
  /-- COOLREQ (R411): Requests flow units for a zone. -/
  | coolreq
  /-- COOLREL (R411): Returns held flow units of a zone. -/
  | coolrel
  /-- COOLSTAT (R411): Reads a zone's Valve Allocation Table entry. -/
  | coolstat
  /-- CLKLOCK (R404): Requests a lock of the cluster's arithmetic clock. -/
  | clklock
  /-- CLKFREE (R404): Ends a clock lock this context holds. -/
  | clkfree
  /-- LONG_LATENCY_FILL (R66): The fill of a long-latency producer lands and marks its register full. Argument: core uid : Nat. -/
  | longLatencyFill
  /-- STALL (R225): A watchdog of a pop, push, ring-slot wait, XWAIT, FWAIT or GBAR expires and the thread traps. Argument: core token : Nat. -/
  | stall
  /-- TASTER_COMPARE (R383): The Taster's copy of a command or access arrives and is compared with the core's. Arguments: core uid : Nat (n0, n1); n2 : Nat: 0 differs, 1 equal, 2 and above an error in a storage, in the quarter that w gives (log 133). -/
  | tasterCompare
  /-- ENGINE_COMMAND_BEGIN (R221): A command begins at its channel head after the compare and its pops. Argument: core uid : Nat. -/
  | engineCommandBegin
  /-- ENGINE_COMMAND_COMPLETE (R222): A command completes: its bytes have landed, its token is pushed and XDONE advances. Argument: core uid : Nat. -/
  | engineCommandComplete
  /-- OPERAND_FETCH (R237): The operand fetcher reads the entries and stored bytes of a handle-form matrix command. Argument: core uid : Nat. -/
  | operandFetch
  /-- CHAIN_ENTRY_READ (R239): A running walker reads an entry, waits on ring-slot counters and appends its command. Argument: core walker : Nat. -/
  | chainEntryRead
  /-- CHAIN_ENTRY_DONE (R239): A chain command completes; the walker posts counters, advances SEQ and follows or parks. Argument: core walker : Nat. -/
  | chainEntryDone
  /-- TLB_WALK_COMPLETE (R216): A page walk ends, fills both TLBs or reports a fault. Argument: core : Nat, va : Nat. -/
  | tlbWalkComplete
  /-- MULTICAST_LAND (R208): A multicast store writes every selected A-buffer at p + 8. Argument: uid : Nat. -/
  | multicastLand
  /-- STORE_ARRIVE_HOME (R167): A plain write is applied at its home, one at a time per tile. Argument: uid : Nat. -/
  | storeArriveHome
  /-- TILE_COMMIT (R163): A whole-tile write is scanned and committed at its home. Argument: uid : Nat. -/
  | tileCommit
  /-- DIE_VIEW_APPLY (R255): A write received at a die is applied to its view under the vector clock. Argument: die uid : Nat. -/
  | dieViewApply
  /-- ATOMIC_MOVED (R288): An atomic reaching an old home after migration is retranslated and resent. Argument: uid : Nat. -/
  | atomicMoved
  /-- PROGRESS_VERDICT (R282): A count update's verdict returns and the instruction retires or traps. Argument: core uid : Nat. -/
  | progressVerdict
  /-- COUNT_UPDATE_APPLY (R277): The home applies a count update, recomputes frontiers and publishes notices. Argument: uid : Nat. -/
  | countUpdateApply
  /-- FRONTIER_NOTICE (R278): A notice reaches a Progress Engine and releases the waits it covers. Argument: die : Nat, loc : BitVec 64. -/
  | frontierNotice
  /-- COLLECTIVE_DONE (R379): A rank's contribution is acknowledged and its count is retired. Argument: uid : Nat. -/
  | collectiveDone
  /-- JOIN_DECREMENT (R298): A join decrement reaches the instance home and lowers or creates a record. Argument: uid : Nat. -/
  | joinDecrement
  /-- GANG_ADMIT (R301): A head record passes the CORE, COOL and POWER tests and its gang starts. Argument: cluster : Nat. -/
  | gangAdmit
  /-- MEMBER_RELEASE (R308): An exited member's core, flow units and power are released. Argument: core : Nat. -/
  | memberRelease
  /-- TASK_COMPLETE (R297): The last member ends: statistics, successor joins, and the release of the task's count. Arguments: gang : Nat (n0); n1 = 1: the TEXIT.DROP of core n2 takes effect (R308). -/
  | taskComplete
  /-- FRAME_TICK (R312): FRAMECNT advances and the frame's timetabled records are released. Argument: die : Nat. -/
  | frameTick
  /-- PREEMPT_SELECT (R326): After PREWAIT a waiting head chooses victim gangs and their policies. Argument: cluster : Nat. -/
  | preemptSelect
  /-- YIELD_DEADLINE (R329): LEFT reaches 0 and an unyielded member is stopped. Argument: core : Nat. -/
  | yieldDeadline
  /-- CHECKPOINT (R331): Stopped members are saved to the context save area and the record is re-queued. Argument: gang : Nat. -/
  | checkpoint
  /-- KILL_REQUEUE (R332): An idempotent victim is discarded and its record returns to its queue. Argument: gang : Nat. -/
  | killRequeue
  /-- TASK_KILL (R332): A context is destroyed, its counts retired poisoned and its record quarantined. Argument: core code : Nat. -/
  | taskKill
  /-- CREQ_SCHED (R409): After CREQWAIT the scheduler requests the flow shortfall for a head. Argument: cluster : Nat. -/
  | creqSched
  /-- DRAW_START (R315): A waiting matrix or tile draw is granted power and starts. Arguments: core : Nat (n0); n2 = 1: the draw of its tile operation ends. -/
  | drawStart
  /-- ROLLBACK (R390): The open buffer phase is restored from its snapshot and re-run, or the task is killed. Argument: core cause : Nat. -/
  | rollback
  /-- DIE_FAILURE (R393): A failed die's cores stop, its counts are poisoned and waits are closed. Argument: die : Nat. -/
  | dieFailure
  /-- WRITE (R376): A WRITE packet arrives and is applied at its home in flow order. Argument: p : Packet. -/
  | write
  /-- READ (R376): A READ packet arrives and its RESP is sent. Argument: p : Packet. -/
  | read
  /-- RESP (R202): A RESP packet returns read bytes to the requester. Argument: p : Packet. -/
  | resp
  /-- RED_PACKET (R369): A RED packet arrives and is applied at its home. Argument: p : Packet. -/
  | redPacket
  /-- PBATCH (R278): A batch of count updates arrives and is applied whole in sequence. Argument: p : Packet. -/
  | pbatch
  /-- COLLD (R378): Collective data arrives and is combined or written. Argument: p : Packet. -/
  | colld
  /-- FOPEN (R375): A flow open arrives and the destination creates its state. Argument: p : Packet. -/
  | fopen
  /-- FCLOSE (R375): A flow close ends the state for the flow. Argument: p : Packet. -/
  | fclose
  /-- FACK (R376): A cumulative flow acknowledgement releases packets at the source. Argument: p : Packet. -/
  | fack
  /-- ACK (R370): A link ACK releases packets from the replay buffer. Argument: link : Nat, lseq : BitVec 16. -/
  | ack
  /-- NAK (R370): A link NAK triggers a replay from the named LSEQ. Argument: link : Nat, lseq : BitVec 16. -/
  | nak
  /-- DEGRADE (R371): A DEGRADE starts retraining to a half-width link. Argument: link lane : Nat. -/
  | degrade
  /-- LINK_PACKET_RECEIVE (R370): A sequenced packet reaches a link receiver and is accepted, forwarded or discarded. Arguments: link : Nat (n0); n2 : Nat, the lane that a CRC failure is traced to, plus 1; p : Packet. -/
  | linkPacketReceive
  /-- LINK_ACK_TIMER (R370): The 256-flit-time timer sends a cumulative ACK. Argument: link : Nat. -/
  | linkAckTimer
  /-- LTIMEOUT (R370): The link timer expires and the unacknowledged packets are replayed. Argument: link : Nat. -/
  | ltimeout
  /-- LANE_FAILED (R371): A lane loses lock or exceeds its CRC failures and is declared failed. Argument: link lane : Nat. -/
  | laneFailed
  /-- RETRAIN_DONE (R371): Retraining ends, the link comes up at half width and NAKs. Argument: link : Nat. -/
  | retrainDone
  /-- LINK_DOWN (R372): A link is down and its replay buffer goes on the alternate route. Argument: link : Nat. -/
  | linkDown
  /-- FTIMEOUT (R377): A flow timer expires: resend, or fail and close the flow. Argument: slot : Nat. -/
  | ftimeout
  /-- FLOW_IDLE_CLOSE (R375): An idle flow is closed with FCLOSE after 1 ms. Argument: slot : Nat. -/
  | flowIdleClose
  /-- FETCH (R341): Racking request to bring a block into memory. Argument: pool k stage : Nat. -/
  | fetch
  /-- SPILL (R341): Racking request to write a block's Cellar copy. Argument: pool k stage : Nat. -/
  | spill
  /-- EVICT (R342): Racking request to move a block out of memory to the Cellar. Argument: pool k stage : Nat. -/
  | evict
  /-- FREE (R341): Racking request to free a block. Argument: pool k stage : Nat. -/
  | free
  /-- ALLOC (R341): Racking request to map a zeroed frame for a block. Argument: pool k stage : Nat. -/
  | alloc
  /-- RACK_REQUEST_COMPLETE (R340): A request's I/O finishes; STATUS and DONE are written and its count retired. Argument: pool k stage : Nat. -/
  | rackRequestComplete
  /-- RACK_DRIVE_TIMEOUT (R344): A drive does not respond in time and the request completes with STATUS 4. Argument: pool k : Nat. -/
  | rackDriveTimeout
  /-- MESSAGE_DESCRIPTOR (R352): The front-end reads a message descriptor from a stream's ring. Argument: stream : Nat. -/
  | messageDescriptor
  /-- INFLATE (R353): The Inflate engine decompresses a message. Argument: stream : Nat. -/
  | inflate
  /-- CHARSET_CONVERT (R355): The Charset engine converts a message to UTF-8. Argument: stream : Nat. -/
  | charsetConvert
  /-- TOKENISE (R356): The Tokeniser applies pair merges to a message. Argument: stream : Nat. -/
  | tokenise
  /-- TFE_QUEUE_RESUME (R358): A stalled stream resumes when its queue falls to LO. Argument: stream stage : Nat. -/
  | tfeQueueResume
  /-- BATCH_READY (R359): Delivery writes a batch and its log entry and makes it ready. Argument: stream : Nat. -/
  | batchReady
  /-- QUARANTINE_RECORD (R361): A faulted message leaves the chain and a quarantine record is written. Argument: stream : Nat. -/
  | quarantineRecord
  /-- VALVE_CONTROL_STEP (R406): Every 10 µs a valve controller moves its opening toward the target flow. Arguments: zone flow : Nat (n0, n1); zone 100: every zone, with samples that are free. -/
  | valveControlStep
  /-- OVERTEMP (R413): A zone stays at or above TTRIP and is throttled. Arguments: zone : Nat (n0); the ns for which the condition has held : Nat (n1); the sample : Word (w). -/
  | overtemp
  /-- LOWFLOW (R413): A zone's flow stays below half of expected. Arguments: zone : Nat (n0); the ns for which the condition has held : Nat (n1); the sample : Word (w). -/
  | lowflow
  /-- DRY (R413): A dry channel is detected and an evacuation starts. Arguments: zone : Nat (n0); the ns for which the condition has held, and TMAX of 100 µs before : Nat (n1, n2); the sample : Word (w). -/
  | dry
  /-- VALVE (R413): Valve opening and flow disagree for 1 ms and the zone fails. Arguments: zone : Nat (n0); the ns for which the condition has held : Nat (n1); the sample : Word (w). -/
  | valve
  /-- EVAC_GANGS_STOPPED (R414): Every affected gang has stopped or exited and the valve closes. Argument: zone : Nat. -/
  | evacGangsStopped
  /-- EVAC_DRAIN_EXPIRE (R415): EVDRAIN expires and an undrained gang is checkpointed or killed. Argument: zone : Nat. -/
  | evacDrainExpire
  /-- EVAC_VALVE_SETTLED (R414): VALVESETTLE expires and the purge path opens. Argument: zone : Nat. -/
  | evacValveSettled
  /-- EVAC_PURGE_END (R414): EVACT expires and the valve ramp begins. Argument: zone : Nat. -/
  | evacPurgeEnd
  /-- EVAC_RAMP_STEP (R414): Each RAMPSTEP raises OPEN by 1 until the target. Argument: zone : Nat. -/
  | evacRampStep
  /-- EVAC_VERIFY_END (R414): VERIFYT ends: the zone is released or returns to purge. Argument: zone : Nat. -/
  | evacVerifyEnd
  /-- POWER_OVERLIMIT (R418): Module power stays above 11,600 units for 100 ms and limits are lowered. Argument: average : Nat. -/
  | powerOverlimit
  /-- POWER_HARD_THROTTLE (R418): Module power above 12,800 units throttles every cluster. Argument: average : Nat. -/
  | powerHardThrottle
  /-- MODULE_RESET (R426): A reset discards all state and runs the boot sequence. Argument: boot step : Nat, 0 for the reset itself. -/
  | moduleReset
  /-- BAR2_READ (R424): A host read through the BAR2 window. Argument: offset n : Nat. -/
  | bar2Read
  /-- BAR2_WRITE (R424): A host write through the BAR2 window. Argument: offset : Nat, bytes : List Byte. -/
  | bar2Write
  /-- WINBASE_WRITE (R424): A write that moves the BAR2 window or is ignored. Argument: v : BitVec 64. -/
  | winbaseWrite
  /-- STATUS (R433): Mailbox command returning BOOTSTAT. Argument: cmd : List Byte. -/
  | status
  /-- MAILBOX_FENCE (R423): Mailbox command that returns after earlier BAR2 writes are performed at MODULE. Argument: cmd : List Byte. -/
  | mailboxFence
  /-- CTXLOAD (R433): Mailbox command that loads a context and assigns its ASN. Argument: cmd : List Byte. -/
  | ctxload
  /-- CTXDESTROY (R217): Mailbox command that destroys a context and invalidates its TLB entries. Argument: cmd : List Byte. -/
  | ctxdestroy
  /-- PTINV (R217): Mailbox command that invalidates a page or every entry of an ASN. Argument: cmd : List Byte. -/
  | ptinv
  /-- TASKKILL (R332): Mailbox command that kills the task on a core with code 4. Argument: cmd : List Byte. -/
  | taskkill
  /-- QREAD (R433): Mailbox command that copies and removes task quarantine records. Argument: cmd : List Byte. -/
  | qread
  /-- POOLREG (R433): Mailbox command that registers a key-value block pool. Argument: cmd : List Byte. -/
  | poolreg
  /-- STREAMOPEN (R351): Mailbox command that opens a text stream. Argument: cmd : List Byte. -/
  | streamopen
  /-- STREAMCLOSE (R360): Mailbox command that closes a text stream. Argument: cmd : List Byte. -/
  | streamclose
  /-- MTABLOAD (R357): Mailbox command that loads a merge table. Argument: cmd : List Byte. -/
  | mtabload
  /-- ROUTE (R373): Mailbox command that writes route table entries. Argument: cmd : List Byte. -/
  | route
  /-- GROUP (R378): Mailbox command that writes a collective group. Argument: cmd : List Byte. -/
  | group
  /-- FWLOAD (R428): Mailbox command that writes a firmware image to a slot. Argument: cmd : List Byte. -/
  | fwload
  /-- FWCOMMIT (R428): Mailbox command that raises the fused minimum epoch. Argument: cmd : List Byte. -/
  | fwcommit
  /-- CERT (R430): Mailbox command that returns the identity key and certificate. Argument: cmd : List Byte. -/
  | cert
  /-- QUOTE (R434): Mailbox command that returns a signed attestation quote. Argument: cmd : List Byte. -/
  | quote
  /-- CSRWR_TSHP (R52): Write of TSHP.Tn that reconfigures a tile register as TCFG. -/
  | csrwrTshp
  /-- CSRWR_TLOC (R174): Write of TLOC.Tn that moves a stored tile's bytes. -/
  | csrwrTloc
  /-- TTINV (R154): Write of TTINV that invalidates a cached tensor entry. -/
  | ttinv
  /-- CSRWR_TTBASE (R154): Write of TTBASE that invalidates cached entries and releases the pinned set. -/
  | csrwrTtbase
  /-- CSRWR_TXQCFG (R360): Write of TXQCFG that binds or unbinds a delivery queue. -/
  | csrwrTxqcfg
  /-- CSRWR_PHCTL (R385): Write of PHCTL that commits and changes buffer phases. -/
  | csrwrPhctl
  /-- CSRWR_TOKCNT (R230): Write of TOKCNT that sets the token FIFO counts. -/
  | csrwrTokcnt
  /-- CSRWR_SPDBG (R211): Write of SPDBG that turns pending-bit mode on or off. -/
  | csrwrSpdbg
  /-- CSRWR_LFSR (R26): Write of LFSR, where 0 stores 1. -/
  | csrwrLfsr
  /-- CSRWR_TRACE (R395): Write of TRBASE or TRCTL that resets TRHEAD. -/
  | csrwrTrace
  /-- XERR_CLEAR (R229): W1C write that clears a recorded transfer error. -/
  | xerrClear
  /-- VAT_FLOOR_WRITE (R407): Management write of a zone's FLOOR, refused if it breaks R405. Argument: zone floor : Nat. -/
  | vatFloorWrite
  /-- FRAMELEN_WRITE (R419): Write of FRAMELEN that takes effect at the next tick. Argument: die len : Nat. -/
  | framelenWrite
  /-- LINK_RETRAIN (R381): LNKCTL operation that retrains a link. Argument: link : Nat. -/
  | linkRetrain
  /-- LANE_REQUALIFY (R381): LNKCTL operation that requalifies a failed lane. Argument: link lane : Nat. -/
  | laneRequalify
  /-- REGISTER_WRITE (R122): Write of a register without behaviour of its own. Argument: t : RegTarget, v : BitVec 64. -/
  | registerWrite
  /-- SYMBOL_LOCK_LOST (R421): A lane of one link direction loses symbol lock and that direction's receiver stops framing flits. Argument: link lane : Nat. -/
  | symbolLockLost
  /-- SYMBOL_LOCK_REGAINED (R421): A lane regains symbol lock within 100 ns and its receiver frames flits again. Argument: link lane : Nat. -/
  | symbolLockRegained
  /-- OVERTEMP_CLEAR (R413): TMAX falls below TWARN and the zone's issue throttle and cap(z) := 0 end. Arguments: zone : Nat (n0); the sample : Word (w). -/
  | overtempClear
  /-- TCRIT (R413): TMAX reaches TCRIT in a zone and an evacuation starts. Arguments: zone : Nat (n0); the sample : Word (w). -/
  | tcrit
  /-- LOWFLOW_CLEAR (R413): FLOW rises to 80% of expected and the LOWFLOW opening and cap(z) := 0 end. Arguments: zone : Nat (n0); the sample : Word (w). -/
  | lowflowClear
  /-- LOWFLOW_PERSIST (R413): A LOWFLOW trap that persists for 1 ms starts an evacuation. Arguments: zone : Nat (n0); the ns for which the condition has held : Nat (n1); the sample : Word (w). -/
  | lowflowPersist
  /-- POWER_THROTTLE_END (R418): The module power average falls below 12,000 units and the 1-instruction-per-2-cyc throttle ends. Argument: average : Nat. -/
  | powerThrottleEnd
  /-- ATOMIC_APPLY (R286): An atomic reaches its home Progress Engine, which reads the old value and writes the new one in one step. Argument: uid : Nat. -/
  | atomicApply
deriving DecidableEq, Repr

end Sys2Proof
end

