-- ==== Sys2Proof/Decode.lean ====
section
/-! DEFINITION. The decoder from the words of a fetch line (R57, R81, R82, R96) and the encoder, written from the same tables. -/

namespace Sys2Proof.Decode

open Sys2Proof

/-- Why bytes are no instruction. -/
inductive Reject where
  /-- An opcode R96 does not list, or one whose bits 7:0 R57 reads as a short opcode (R97); issue answers ILLEGAL detail 1. -/
  | unassigned (opcode : Nat)
  /-- The bytes end inside the instruction. -/
  | truncated
deriving DecidableEq, Repr

/-- `n` bits of `w` from bit `lo` up. -/
def bits (w lo n : Nat) : BitVec n := BitVec.ofNat n (w / 2 ^ lo)

/-- The fields of the long form (R81). -/
def longFields (w : Nat) : Fields :=
  { dst := bits w 10 6, sa := bits w 16 6, sb := bits w 22 6, sc := bits w 28 6,
    wa := bits w 34 2, wb := bits w 36 2, wc := bits w 38 2,
    emp := bits w 40 1, pd := bits w 41 3, pred := bits w 44 3, pneg := bits w 47 1,
    ty := bits w 48 4, md := bits w 52 4, imm := bits w 56 24 }

/-- The fields of the short form (R82). -/
def shortFields (w : Nat) : ShortFields :=
  { dst := bits w 8 6, sa := bits w 14 6, sb := bits w 20 6, wa := bits w 26 2, wb := bits w 28 2,
    emp := bits w 30 1, pd := bits w 31 3, imm6 := bits w 34 6 }

/-- A number below 2^n followed by the higher fields. -/
def cons {n : Nat} (x : BitVec n) (rest : Nat) : Nat := x.toNat + 2 ^ n * rest

/-- The 80-bit word of the long form (R81). -/
def packLong (opc : Nat) (f : Fields) : Nat :=
  cons (BitVec.ofNat 10 opc) (cons f.dst (cons f.sa (cons f.sb (cons f.sc (cons f.wa (cons f.wb (cons f.wc
    (cons f.emp (cons f.pd (cons f.pred (cons f.pneg (cons f.ty (cons f.md (cons f.imm 0))))))))))))))

/-- The 40-bit word of the short form (R82). -/
def packShort (opc : Nat) (g : ShortFields) : Nat :=
  cons (BitVec.ofNat 8 opc) (cons g.dst (cons g.sa (cons g.sb (cons g.wa (cons g.wb (cons g.emp (cons g.pd
    (cons g.imm6 0))))))))

/-- A CSR number of IMM24[11:0] (R89, R95). -/
def csrNum (f : Fields) : Nat := f.imm.toNat % 4096

/-- The CSRWR row that CSR number `n` selects: the registers whose write has behaviour of its own, else CSRWR. -/
def csrwrOf (n : Nat) : Instr :=
  if n < 0x010 then .csrwrTshp
  else if n = 0x040 then .csrwrLfsr
  else if 0x090 ≤ n ∧ n < 0x098 then .xerrClear
  else if n = 0x098 then .csrwrTokcnt
  else if n = 0x0F8 then .csrwrTxqcfg
  else if n = 0x100 then .csrwrTtbase
  else if n = 0x101 then .ttinv
  else if 0x104 ≤ n ∧ n < 0x114 then .csrwrTloc
  else if n = 0x218 then .csrwrPhctl
  else if n = 0x280 ∨ n = 0x281 then .csrwrTrace
  else if n = 0x2F0 then .csrwrSpdbg
  else .csrwr

/-- TSYMX: IMM24[0] selects STRICT or FAST (R185). -/
def tsymxOf (f : Fields) : Instr := if f.imm.getLsbD 0 then .tsymxFast else .tsymxStrict
/-- TSTAT: IMM24[4] selects the register or the handle form (R185). -/
def tstatOf (f : Fields) : Instr := if f.imm.getLsbD 4 then .tstatRegister else .tstatHandle
/-- TSPILL: MOD selects SAVE, LAZY or RESTORE; a reserved MOD stays with SAVE and raises ILLEGAL 3 there (R186). -/
def tspillOf (f : Fields) : Instr :=
  if f.md = 1 then .tspillLazy else if f.md = 2 then .tspillRestore else .tspillSave
/-- COLL: MOD[1:0] gives the kind (R290). -/
def collOf (f : Fields) : Instr :=
  match f.md.toNat % 4 with
  | 0 => .collReduce | 1 => .collAllreduce | 2 => .collAllgather | _ => .collBcast
/-- TEXIT: MOD[0] selects DROP (R308). -/
def texitOf (f : Fields) : Instr := if f.md.getLsbD 0 then .texitDrop else .texit

/-- R96: the scalar and control group. -/
def scalarTable (opc : Nat) (f : Fields) : Option Instr :=
  match opc with
  | 0x000 => some (.sadd)
  | 0x001 => some (.ssub)
  | 0x002 => some (.smul)
  | 0x003 => some (.smulh)
  | 0x004 => some (.sdiv)
  | 0x005 => some (.srem)
  | 0x006 => some (.sand)
  | 0x007 => some (.sor)
  | 0x008 => some (.sxor)
  | 0x009 => some (.sshl)
  | 0x00A => some (.sshr)
  | 0x00B => some (.ssra)
  | 0x00C => some (.smin)
  | 0x00D => some (.smax)
  | 0x00E => some (.scmp)
  | 0x00F => some (.ssel)
  | 0x010 => some (.sclz)
  | 0x011 => some (.sctz)
  | 0x012 => some (.spopc)
  | 0x013 => some (.scmpm)
  | 0x018 => some (.saddi)
  | 0x019 => some (.sandi)
  | 0x01A => some (.sori)
  | 0x01B => some (.sxori)
  | 0x01C => some (.sshli)
  | 0x01D => some (.sshri)
  | 0x01E => some (.ssrai)
  | 0x01F => some (.scmpi)
  | 0x020 => some (.sli)
  | 0x021 => some (.slih)
  | 0x022 => some (.slit)
  | 0x023 => some (.sbext)
  | 0x024 => some (.sbins)
  | 0x030 => some (.mand)
  | 0x031 => some (.mor)
  | 0x032 => some (.mxor)
  | 0x033 => some (.mandn)
  | 0x034 => some (.mfroms)
  | 0x035 => some (.mtos)
  | 0x036 => some (.mpopc)
  | 0x037 => some (.mlane)
  | 0x040 => some (.sld)
  | 0x041 => some (.sst)
  | 0x050 => some (.br)
  | 0x051 => some (.brc)
  | 0x052 => some (.brci)
  | 0x053 => some (.bri)
  | 0x054 => some (.call)
  | 0x055 => some (.calli)
  | 0x056 => some (.ret)
  | 0x060 => some (.loop)
  | 0x061 => some (.loopi)
  | 0x062 => some (.loops)
  | 0x070 => some (.csrrd)
  | 0x071 => some (csrwrOf (csrNum f))
  | 0x078 => some (.feget)
  | 0x079 => some (.fegetv)
  | 0x07A => some (.fewaits)
  | 0x07F => some (.nop)
  | _ => none

/-- R96: the vector group. -/
def vectorTable (opc : Nat) (f : Fields) : Option Instr :=
  match opc with
  | 0x100 => some (.vadd)
  | 0x101 => some (.vsub)
  | 0x102 => some (.vmul)
  | 0x103 => some (.vfma)
  | 0x104 => some (.vfms)
  | 0x105 => some (.vfnma)
  | 0x106 => some (.vmin)
  | 0x107 => some (.vmax)
  | 0x108 => some (.vabs)
  | 0x109 => some (.vneg)
  | 0x10A => some (.vand)
  | 0x10B => some (.vor)
  | 0x10C => some (.vxor)
  | 0x10D => some (.vshl)
  | 0x10E => some (.vshr)
  | 0x10F => some (.vsra)
  | 0x110 => some (.vadds)
  | 0x111 => some (.vmuls)
  | 0x112 => some (.vaddi)
  | 0x113 => some (.vandi)
  | 0x114 => some (.vshli)
  | 0x115 => some (.vshri)
  | 0x116 => some (.vsrai)
  | 0x118 => some (.vmov)
  | 0x119 => some (.vsel)
  | 0x11A => some (.vbcast)
  | 0x11B => some (.vins)
  | 0x11C => some (.vext)
  | 0x11D => some (.viota)
  | 0x120 => some (.vcmp)
  | 0x121 => some (.vclass)
  | 0x128 => some (.vcvt)
  | 0x129 => some (.ve2enc)
  | 0x12A => some (.ve2dec)
  | 0x12B => some (.vbenc)
  | 0x12C => some (.vbdec)
  | 0x130 => some (.vradd)
  | 0x131 => some (.vrmin)
  | 0x132 => some (.vrmax)
  | 0x138 => some (.vperm)
  | 0x139 => some (.vperm2)
  | 0x13A => some (.vpack)
  | 0x13B => some (.vunpk)
  | 0x13C => some (.vrot)
  | 0x140 => some (.vexp)
  | 0x141 => some (.vlog)
  | 0x142 => some (.vrcp)
  | 0x143 => some (.vrsqrt)
  | 0x144 => some (.vrnd)
  | 0x145 => some (.vscl)
  | 0x146 => some (.vsort)
  | 0x150 => some (.vld)
  | 0x151 => some (.vst)
  | 0x152 => some (.vlds)
  | 0x153 => some (.vsts)
  | _ => none

/-- R96: the tile and matrix groups. -/
def tileTable (opc : Nat) (f : Fields) : Option Instr :=
  match opc with
  | 0x200 => some (.tcfg)
  | 0x201 => some (.tzero)
  | 0x202 => some (.tconst)
  | 0x203 => some (.tramp)
  | 0x204 => some (.trepeat)
  | 0x208 => some (.tld)
  | 0x209 => some (.tlda)
  | 0x20A => some (.tst)
  | 0x20B => some (.tsta)
  | 0x210 => some (.twrow)
  | 0x211 => some (.trrow)
  | 0x212 => some (.twcol)
  | 0x213 => some (.trcol)
  | 0x218 => some (.tadd)
  | 0x219 => some (.tsub)
  | 0x21A => some (.tmul)
  | 0x21B => some (.tmin)
  | 0x21C => some (.tmax)
  | 0x21D => some (.tscale)
  | 0x21E => some (.tcvt)
  | 0x21F => some (.ttrans)
  | 0x220 => some (.tredrow)
  | 0x228 => some (tsymxOf f)
  | 0x229 => some (tstatOf f)
  | 0x22A => some (.tmatl)
  | 0x22B => some (tspillOf f)
  | 0x22C => some (.trelease)
  | 0x22D => some (.tmov)
  | 0x22E => some (.texcset)
  | 0x22F => some (.texcget)
  | 0x280 => some (.mloadw)
  | 0x281 => some (.mloadwh)
  | 0x282 => some (.mswap)
  | 0x283 => some (.mstream)
  | 0x284 => some (.mstreamh)
  | 0x285 => some (.mmac)
  | 0x286 => some (.mmach)
  | 0x287 => some (.mepi)
  | 0x288 => some (.mdrain)
  | 0x289 => some (.mzacc)
  | 0x28A => some (.maccld)
  | 0x28B => some (.maccst)
  | _ => none

/-- R96: the copy and queue group. -/
def copyTable (opc : Nat) (f : Fields) : Option Instr :=
  match opc with
  | 0x2C0 => some (.cpy)
  | 0x2C1 => some (.cpyw)
  | 0x2C2 => some (.gather)
  | 0x2C3 => some (.gatherb)
  | 0x2C4 => some (.chlink)
  | 0x2C5 => some (.chkick)
  | 0x2C6 => some (.xwait)
  | 0x2C7 => some (.xpoll)
  | 0x2C8 => some (.evpop)
  | 0x2C9 => some (.txqpop)
  | 0x2CA => some (.chseq)
  | 0x2CB => some (.qdepth)
  | _ => none

/-- R96: the progress and task groups. -/
def progressTable (opc : Nat) (f : Fields) : Option Instr :=
  match opc with
  | 0x300 => some (.pcinc)
  | 0x301 => some (.pcdec)
  | 0x302 => some (.fwait)
  | 0x303 => some (.fpoll)
  | 0x304 => some (.psreg)
  | 0x305 => some (.gbar)
  | 0x306 => some (.fence)
  | 0x307 => some (.pfence)
  | 0x310 => some (.aadd)
  | 0x311 => some (.aand)
  | 0x312 => some (.aor)
  | 0x313 => some (.axor)
  | 0x314 => some (.amin)
  | 0x315 => some (.amax)
  | 0x316 => some (.axchg)
  | 0x317 => some (.acas)
  | 0x318 => some (.aaddNr)
  | 0x319 => some (.aandNr)
  | 0x31A => some (.aorNr)
  | 0x31B => some (.axorNr)
  | 0x31C => some (.aminNr)
  | 0x31D => some (.amaxNr)
  | 0x31E => some (.axchgNr)
  | 0x31F => some (.acasNr)
  | 0x320 => some (.red)
  | 0x321 => some (collOf f)
  | 0x340 => some (.tspawn)
  | 0x341 => some (.tjoin)
  | 0x342 => some (texitOf f)
  | 0x343 => some (.tinfo)
  | 0x344 => some (.tenq)
  | _ => none

/-- R96: the system group. -/
def systemTable (opc : Nat) (f : Fields) : Option Instr :=
  match opc with
  | 0x360 => some (.trap)
  | 0x361 => some (.tret)
  | 0x362 => some (.yield)
  | 0x363 => some (.bkpt)
  | 0x364 => some (.waitev)
  | 0x368 => some (.trmark)
  | 0x369 => some (.trstart)
  | 0x36A => some (.trstop)
  | 0x36B => some (.capstart)
  | 0x36C => some (.capstop)
  | 0x370 => some (.phcommit)
  | 0x378 => some (.coolreq)
  | 0x379 => some (.coolrel)
  | 0x37A => some (.coolstat)
  | 0x380 => some (.clklock)
  | 0x381 => some (.clkfree)
  | _ => none

/-- R96: the instruction of a long opcode, or none where R97 leaves it unassigned. -/
def longTable (opc : Nat) (f : Fields) : Option Instr :=
  if opc < 0x100 then scalarTable opc f
  else if opc < 0x200 then vectorTable opc f
  else if opc < 0x2C0 then tileTable opc f
  else if opc < 0x300 then copyTable opc f
  else if opc < 0x360 then progressTable opc f
  else systemTable opc f

/-- R83: the instruction of a short opcode; every one is assigned. -/
def shortTable (opc : Nat) : Option Instr :=
  match opc with
  | 0xE0 => some .saddShort
  | 0xE1 => some .ssubShort
  | 0xE2 => some .sandShort
  | 0xE3 => some .sorShort
  | 0xE4 => some .sxorShort
  | 0xE5 => some .sshlShort
  | 0xE6 => some .sshrShort
  | 0xE7 => some .ssraShort
  | 0xE8 => some .smulShort
  | 0xE9 => some .sminShort
  | 0xEA => some .smaxShort
  | 0xEB => some .scmpShort
  | 0xEC => some .saddiShort
  | 0xED => some .sshliShort
  | 0xEE => some .sshriShort
  | 0xEF => some .sliShort
  | 0xF0 => some .sldShort
  | 0xF1 => some .sstShort
  | 0xF2 => some .vaddF32Short
  | 0xF3 => some .vsubShort
  | 0xF4 => some .vmulShort
  | 0xF5 => some .vaddI32Short
  | 0xF6 => some .vmovShort
  | 0xF7 => some .vldShort
  | 0xF8 => some .vstShort
  | 0xF9 => some .mandShort
  | 0xFA => some .morShort
  | 0xFB => some .retShort
  | 0xFC => some .nopShort
  | 0xFD => some .phcommitShort
  | 0xFE => some .yieldShort
  | 0xFF => some .vmaxShort
  | _ => none

/-- R57: whether the first slot holds a short instruction. -/
def isShort (w : Nat) : Bool := decide (0xE0 ≤ w % 256)

/-- The instruction of a word with its operand fields: bits 39:0 are the first slot, bits 79:40 the second (R81, R82). -/
def decodeWord (w : Nat) : Except Reject (Instr × Operands) :=
  if isShort w then
    match shortTable (w % 256) with
    | some i => .ok (i, .short (shortFields w))
    | none => .error (.unassigned (w % 256))
  else
    match longTable (w % 1024) (longFields w) with
    | some i => .ok (i, .long (longFields w))
    | none => .error (.unassigned (w % 1024))

/-- Little-endian value of bytes (R4). -/
def leNat : List Byte → Nat
  | [] => 0
  | b :: bs => b.toNat + 256 * leNat bs

/-- `n` bytes of `w`, little-endian (R4). -/
def leBytes : Nat → Nat → List Byte
  | 0, _ => []
  | n + 1, w => BitVec.ofNat 8 w :: leBytes n (w / 256)

/-- The instruction at the head of the bytes of a line's slots, and the bytes after it. -/
def decode (bs : List Byte) : Except Reject ((Instr × Operands) × List Byte) :=
  match bs with
  | [] => .error .truncated
  | b :: _ =>
    let n := if 0xE0 ≤ b.toNat then 5 else 10
    if bs.length < n then .error .truncated
    else match decodeWord (leNat (bs.take n)) with
      | .ok i => .ok (i, bs.drop n)
      | .error e => .error e

/-- The opcode of an instruction: OPC8 for a short form, OPC for a long form, none for a step of a device. -/
def opcodeOf : Instr → Option Nat
  | .sadd => some 0x000
  | .ssub => some 0x001
  | .smul => some 0x002
  | .smulh => some 0x003
  | .sdiv => some 0x004
  | .srem => some 0x005
  | .sand => some 0x006
  | .sor => some 0x007
  | .sxor => some 0x008
  | .sshl => some 0x009
  | .sshr => some 0x00A
  | .ssra => some 0x00B
  | .smin => some 0x00C
  | .smax => some 0x00D
  | .scmp => some 0x00E
  | .ssel => some 0x00F
  | .sclz => some 0x010
  | .sctz => some 0x011
  | .spopc => some 0x012
  | .scmpm => some 0x013
  | .saddi => some 0x018
  | .sandi => some 0x019
  | .sori => some 0x01A
  | .sxori => some 0x01B
  | .sshli => some 0x01C
  | .sshri => some 0x01D
  | .ssrai => some 0x01E
  | .scmpi => some 0x01F
  | .sli => some 0x020
  | .slih => some 0x021
  | .slit => some 0x022
  | .sbext => some 0x023
  | .sbins => some 0x024
  | .mand => some 0x030
  | .mor => some 0x031
  | .mxor => some 0x032
  | .mandn => some 0x033
  | .mfroms => some 0x034
  | .mtos => some 0x035
  | .mpopc => some 0x036
  | .mlane => some 0x037
  | .sld => some 0x040
  | .sst => some 0x041
  | .br => some 0x050
  | .brc => some 0x051
  | .brci => some 0x052
  | .bri => some 0x053
  | .call => some 0x054
  | .calli => some 0x055
  | .ret => some 0x056
  | .loop => some 0x060
  | .loopi => some 0x061
  | .loops => some 0x062
  | .csrrd => some 0x070
  | .csrwr => some 0x071
  | .feget => some 0x078
  | .fegetv => some 0x079
  | .fewaits => some 0x07A
  | .nop => some 0x07F
  | .saddShort => some 0x0E0
  | .ssubShort => some 0x0E1
  | .sandShort => some 0x0E2
  | .sorShort => some 0x0E3
  | .sxorShort => some 0x0E4
  | .sshlShort => some 0x0E5
  | .sshrShort => some 0x0E6
  | .ssraShort => some 0x0E7
  | .smulShort => some 0x0E8
  | .sminShort => some 0x0E9
  | .smaxShort => some 0x0EA
  | .scmpShort => some 0x0EB
  | .saddiShort => some 0x0EC
  | .sshliShort => some 0x0ED
  | .sshriShort => some 0x0EE
  | .sliShort => some 0x0EF
  | .sldShort => some 0x0F0
  | .sstShort => some 0x0F1
  | .vaddF32Short => some 0x0F2
  | .vsubShort => some 0x0F3
  | .vmulShort => some 0x0F4
  | .vaddI32Short => some 0x0F5
  | .vmovShort => some 0x0F6
  | .vldShort => some 0x0F7
  | .vstShort => some 0x0F8
  | .mandShort => some 0x0F9
  | .morShort => some 0x0FA
  | .retShort => some 0x0FB
  | .nopShort => some 0x0FC
  | .phcommitShort => some 0x0FD
  | .yieldShort => some 0x0FE
  | .vmaxShort => some 0x0FF
  | .vadd => some 0x100
  | .vsub => some 0x101
  | .vmul => some 0x102
  | .vfma => some 0x103
  | .vfms => some 0x104
  | .vfnma => some 0x105
  | .vmin => some 0x106
  | .vmax => some 0x107
  | .vabs => some 0x108
  | .vneg => some 0x109
  | .vand => some 0x10A
  | .vor => some 0x10B
  | .vxor => some 0x10C
  | .vshl => some 0x10D
  | .vshr => some 0x10E
  | .vsra => some 0x10F
  | .vadds => some 0x110
  | .vmuls => some 0x111
  | .vaddi => some 0x112
  | .vandi => some 0x113
  | .vshli => some 0x114
  | .vshri => some 0x115
  | .vsrai => some 0x116
  | .vmov => some 0x118
  | .vsel => some 0x119
  | .vbcast => some 0x11A
  | .vins => some 0x11B
  | .vext => some 0x11C
  | .viota => some 0x11D
  | .vcmp => some 0x120
  | .vclass => some 0x121
  | .vcvt => some 0x128
  | .ve2enc => some 0x129
  | .ve2dec => some 0x12A
  | .vbenc => some 0x12B
  | .vbdec => some 0x12C
  | .vradd => some 0x130
  | .vrmin => some 0x131
  | .vrmax => some 0x132
  | .vperm => some 0x138
  | .vperm2 => some 0x139
  | .vpack => some 0x13A
  | .vunpk => some 0x13B
  | .vrot => some 0x13C
  | .vexp => some 0x140
  | .vlog => some 0x141
  | .vrcp => some 0x142
  | .vrsqrt => some 0x143
  | .vrnd => some 0x144
  | .vscl => some 0x145
  | .vsort => some 0x146
  | .vld => some 0x150
  | .vst => some 0x151
  | .vlds => some 0x152
  | .vsts => some 0x153
  | .tcfg => some 0x200
  | .tzero => some 0x201
  | .tconst => some 0x202
  | .tramp => some 0x203
  | .trepeat => some 0x204
  | .tld => some 0x208
  | .tlda => some 0x209
  | .tst => some 0x20A
  | .tsta => some 0x20B
  | .twrow => some 0x210
  | .trrow => some 0x211
  | .twcol => some 0x212
  | .trcol => some 0x213
  | .tadd => some 0x218
  | .tsub => some 0x219
  | .tmul => some 0x21A
  | .tmin => some 0x21B
  | .tmax => some 0x21C
  | .tscale => some 0x21D
  | .tcvt => some 0x21E
  | .ttrans => some 0x21F
  | .tredrow => some 0x220
  | .tsymxStrict => some 0x228
  | .tsymxFast => some 0x228
  | .tstatRegister => some 0x229
  | .tstatHandle => some 0x229
  | .tmatl => some 0x22A
  | .tspillSave => some 0x22B
  | .tspillLazy => some 0x22B
  | .tspillRestore => some 0x22B
  | .trelease => some 0x22C
  | .tmov => some 0x22D
  | .texcset => some 0x22E
  | .texcget => some 0x22F
  | .mloadw => some 0x280
  | .mloadwh => some 0x281
  | .mswap => some 0x282
  | .mstream => some 0x283
  | .mstreamh => some 0x284
  | .mmac => some 0x285
  | .mmach => some 0x286
  | .mepi => some 0x287
  | .mdrain => some 0x288
  | .mzacc => some 0x289
  | .maccld => some 0x28A
  | .maccst => some 0x28B
  | .cpy => some 0x2C0
  | .cpyw => some 0x2C1
  | .gather => some 0x2C2
  | .gatherb => some 0x2C3
  | .chlink => some 0x2C4
  | .chkick => some 0x2C5
  | .xwait => some 0x2C6
  | .xpoll => some 0x2C7
  | .evpop => some 0x2C8
  | .txqpop => some 0x2C9
  | .chseq => some 0x2CA
  | .qdepth => some 0x2CB
  | .pcinc => some 0x300
  | .pcdec => some 0x301
  | .fwait => some 0x302
  | .fpoll => some 0x303
  | .psreg => some 0x304
  | .gbar => some 0x305
  | .fence => some 0x306
  | .pfence => some 0x307
  | .aadd => some 0x310
  | .aand => some 0x311
  | .aor => some 0x312
  | .axor => some 0x313
  | .amin => some 0x314
  | .amax => some 0x315
  | .axchg => some 0x316
  | .acas => some 0x317
  | .aaddNr => some 0x318
  | .aandNr => some 0x319
  | .aorNr => some 0x31A
  | .axorNr => some 0x31B
  | .aminNr => some 0x31C
  | .amaxNr => some 0x31D
  | .axchgNr => some 0x31E
  | .acasNr => some 0x31F
  | .red => some 0x320
  | .collReduce => some 0x321
  | .collAllreduce => some 0x321
  | .collAllgather => some 0x321
  | .collBcast => some 0x321
  | .tspawn => some 0x340
  | .tjoin => some 0x341
  | .texit => some 0x342
  | .texitDrop => some 0x342
  | .tinfo => some 0x343
  | .tenq => some 0x344
  | .trap => some 0x360
  | .tret => some 0x361
  | .yield => some 0x362
  | .bkpt => some 0x363
  | .waitev => some 0x364
  | .trmark => some 0x368
  | .trstart => some 0x369
  | .trstop => some 0x36A
  | .capstart => some 0x36B
  | .capstop => some 0x36C
  | .phcommit => some 0x370
  | .coolreq => some 0x378
  | .coolrel => some 0x379
  | .coolstat => some 0x37A
  | .clklock => some 0x380
  | .clkfree => some 0x381
  | .longLatencyFill => none
  | .stall => none
  | .tasterCompare => none
  | .engineCommandBegin => none
  | .engineCommandComplete => none
  | .operandFetch => none
  | .chainEntryRead => none
  | .chainEntryDone => none
  | .tlbWalkComplete => none
  | .multicastLand => none
  | .storeArriveHome => none
  | .tileCommit => none
  | .dieViewApply => none
  | .atomicMoved => none
  | .progressVerdict => none
  | .countUpdateApply => none
  | .frontierNotice => none
  | .collectiveDone => none
  | .joinDecrement => none
  | .gangAdmit => none
  | .memberRelease => none
  | .taskComplete => none
  | .frameTick => none
  | .preemptSelect => none
  | .yieldDeadline => none
  | .checkpoint => none
  | .killRequeue => none
  | .taskKill => none
  | .creqSched => none
  | .drawStart => none
  | .rollback => none
  | .dieFailure => none
  | .write => none
  | .read => none
  | .resp => none
  | .redPacket => none
  | .pbatch => none
  | .colld => none
  | .fopen => none
  | .fclose => none
  | .fack => none
  | .ack => none
  | .nak => none
  | .degrade => none
  | .linkPacketReceive => none
  | .linkAckTimer => none
  | .ltimeout => none
  | .laneFailed => none
  | .retrainDone => none
  | .linkDown => none
  | .ftimeout => none
  | .flowIdleClose => none
  | .fetch => none
  | .spill => none
  | .evict => none
  | .free => none
  | .alloc => none
  | .rackRequestComplete => none
  | .rackDriveTimeout => none
  | .messageDescriptor => none
  | .inflate => none
  | .charsetConvert => none
  | .tokenise => none
  | .tfeQueueResume => none
  | .batchReady => none
  | .quarantineRecord => none
  | .valveControlStep => none
  | .overtemp => none
  | .lowflow => none
  | .dry => none
  | .valve => none
  | .evacGangsStopped => none
  | .evacDrainExpire => none
  | .evacValveSettled => none
  | .evacPurgeEnd => none
  | .evacRampStep => none
  | .evacVerifyEnd => none
  | .powerOverlimit => none
  | .powerHardThrottle => none
  | .moduleReset => none
  | .bar2Read => none
  | .bar2Write => none
  | .winbaseWrite => none
  | .status => none
  | .mailboxFence => none
  | .ctxload => none
  | .ctxdestroy => none
  | .ptinv => none
  | .taskkill => none
  | .qread => none
  | .poolreg => none
  | .streamopen => none
  | .streamclose => none
  | .mtabload => none
  | .route => none
  | .group => none
  | .fwload => none
  | .fwcommit => none
  | .cert => none
  | .quote => none
  | .csrwrTshp => some 0x071
  | .csrwrTloc => some 0x071
  | .ttinv => some 0x071
  | .csrwrTtbase => some 0x071
  | .csrwrTxqcfg => some 0x071
  | .csrwrPhctl => some 0x071
  | .csrwrTokcnt => some 0x071
  | .csrwrSpdbg => some 0x071
  | .csrwrLfsr => some 0x071
  | .csrwrTrace => some 0x071
  | .xerrClear => some 0x071
  | .vatFloorWrite => none
  | .framelenWrite => none
  | .linkRetrain => none
  | .laneRequalify => none
  | .registerWrite => none
  | .symbolLockLost => none
  | .symbolLockRegained => none
  | .overtempClear => none
  | .tcrit => none
  | .lowflowClear => none
  | .lowflowPersist => none
  | .powerThrottleEnd => none
  | .atomicApply => none

/-- Whether an opcode is one of the short form's. -/
def isShortOpc (o : Nat) : Bool := decide (0xE0 ≤ o ∧ o < 0x100)

/-- The word of an instruction with its operand fields, and its number of slots; none for a step of a device, which has no
word, and for operand fields of the other form. -/
def encodeWord (i : Instr) (x : Operands) : Option (Nat × Nat) :=
  match opcodeOf i, x with
  | some o, .long f => if isShortOpc o then none else some (2, packLong o f)
  | some o, .short g => if isShortOpc o then some (1, packShort o g) else none
  | none, _ => none

/-- The bytes of an instruction as the slots of a line hold them: 10 for a long form, 5 for a short form. -/
def encode (i : Instr) (x : Operands) : List Byte :=
  match encodeWord i x with
  | some (n, w) => leBytes (5 * n) w
  | none => []

/-- R83: an IMM24 that every form whose short opcode has no use for IMM6 refuses with ILLEGAL detail 4, for a nonzero IMM6. -/
def imm6Unused (g : ShortFields) : BitVec 24 := if g.imm6 = 0 then 0 else 0x800000

/-- R82: the fields of the long form with those the short form copies. -/
def expandTo (g : ShortFields) (ty md : BitVec 4) (imm : BitVec 24) : Fields :=
  { dst := g.dst, sa := g.sa, sb := g.sb, wa := g.wa, wb := g.wb, emp := g.emp, pd := g.pd, ty := ty, md := md, imm := imm }

/-- R82, R83: the fields of the long instruction a short one expands to. The codes 10 and 11 of IMM6[5:4] that SCMP refuses take an
IMM24 that it refuses with ILLEGAL detail 4 (R99). -/
def expand (i : Instr) (g : ShortFields) : Fields :=
  match i with
  | .sminShort | .smaxShort => expandTo g 0xB 0 (imm6Unused g)
  | .scmpShort =>
    expandTo g (if g.imm6.getLsbD 4 then 0xF else 0xB) (g.imm6.setWidth 4) (if g.imm6.getLsbD 5 then 0x800000 else 0)
  | .saddiShort | .sliShort => expandTo g 0 0 (g.imm6.signExtend 24)
  | .sshliShort | .sshriShort => expandTo g 0 0 (g.imm6.setWidth 24)
  | .sldShort | .sstShort => expandTo g 0xB 2 (g.imm6.signExtend 24 * 8)
  | .vaddF32Short | .vsubShort | .vmulShort | .vmaxShort => expandTo g 1 0 (imm6Unused g)
  | .vaddI32Short => expandTo g 0xA 0 (imm6Unused g)
  | .vldShort | .vstShort => expandTo g 1 2 (g.imm6.signExtend 24 * 256)
  | _ => expandTo g 0 0 (imm6Unused g)

/-- The fields at issue: those of the long word, or of the long word the short one expands to (R82). -/
def issueFields (i : Instr) : Operands → Fields
  | .long f => f
  | .short g => expand i g

end Sys2Proof.Decode

namespace Sys2Proof

/-- The instruction the decoder reads from the word of a table row: the word's bytes, least significant first,
with zeros above them up to the longest instruction. -/
def decodeTableWord (nbits w : Nat) : Option Instr :=
  match Decode.decode (Decode.leBytes 10 (w % 2 ^ nbits)) with
  | .ok (i, _) => some i.1
  | .error _ => none

end Sys2Proof
end

