-- ==== Sys2Proof/Config.lean ====
section
/-! DEFINITION. What an implementation fixes and the spec leaves open: free values without a body, and the sizes of R16 and R204. -/

namespace Sys2Proof.Config

/-- FREE VALUE (log 4, log 5): a number of cycles the spec bounds or leaves open (R103, R202, R221, R435, …).
Applied to the counter `fresh`, so that each use is a value of its own. -/
opaque freeDelay : Nat → Nat
/-- FREE VALUE (log 5): a choice between two outcomes that the spec both permits (R210, R37). -/
opaque freeChoice : Nat → Bool
/-- FREE VALUE (log 5): a byte the spec leaves undefined (R380). -/
opaque freeByte : Nat → Byte
/-- FREE VALUE (log 9): the F32 pattern silicon gives for e^a; it counts where it lies within the bound of R142. -/
opaque expPattern : BitVec 32 → BitVec 32
/-- FREE VALUE (log 9): the F32 pattern silicon gives for ln a; it counts where it lies within the bound of R142. -/
opaque logPattern : BitVec 32 → BitVec 32
/-- FREE VALUE (log 9): the F32 pattern silicon gives for 1/a; it counts where it lies within the bound of R142. -/
opaque rcpPattern : BitVec 32 → BitVec 32
/-- FREE VALUE (log 9): the F32 pattern silicon gives for 1/√a; it counts where it lies within the bound of R142. -/
opaque rsqrtPattern : BitVec 32 → BitVec 32
/-- FREE VALUE (log 19): field `field` of a value of a management register whose layout the spec does not give (R345, R364,
R381, R419): `reg` is the block's chapter × 4096 plus the offset. -/
opaque settingField : (reg field : Nat) → Word → Nat
/-- FREE VALUE (log 19): the value at which the counters of LNKERR and FLOWSTAT saturate; R381 gives no widths. -/
opaque counterTop : Nat
/-- FREE VALUE (log 19): the bytes that stand for a management setting, or for a host command with the data it names, when it is
measured (R429). -/
opaque settingBytes : (reg : Nat) → Word → List Byte
opaque commandBytes : (command data : List Byte) → List Byte
/-- FREE VALUE (log 20): what module flash holds when the model begins (R426): the image of slot A (`false`) and of slot B. -/
opaque flashImage : (slotB : Bool) → List Byte
/-- FREE VALUE (log 20): boot ROM (R426), the vendor key hash, the fused minimum epoch and the seed in fuses (R428, R430), the
certificate in flash (R430), and the boots counted before (R434). -/
opaque romImage : List Byte
opaque vendorKeyHash : List Byte
opaque fusedEpoch : Nat
opaque identitySeed : List Byte
opaque certificate : List Byte
opaque bootCount : Nat
/-- FREE VALUE (log 20): the overflow area (local physical base, MiB) the management core assigns to a die's Progress Engine, and
the base of the reorder-buffer region (R426, step 7). -/
opaque overflowArea : (die : Nat) → Nat × Nat
opaque reorderBase : Nat
/-- FREE VALUE (log 18): which 4 MiB window of a context's address space the management core has given to a core as its frame
window, by context and core (R295). -/
opaque frameWindow : Nat → Nat
/-- FREE VALUE (log 18): which 4 MiB of its die's memory the management core has assigned to a core's frame window at boot (R295). -/
opaque frameHome : Nat → Nat
/-- FREE VALUE (log 109): the byte that stands at a local physical address of a die of another module in a cyc. -/
opaque remoteByte : (node die pa cyc : Nat) → Byte
/-- FREE VALUE (log 5): the phase of the time-stamp counter against the arithmetic clock (R5, R16). -/
opaque stampBase : Nat
/-- Bytes of the W- and A-buffers (R204). -/
def sizeA : Nat := 786432
/-- Bytes of the C-buffer (R204). -/
def sizeC : Nat := 262144
/-- Bytes of memory a die is home of: 768 GiB (R14, R16). -/
def dieBytes : Nat := 768 * 2 ^ 30

/-- FREE VALUE (R273, log 61): the count cells that fit in a Progress Engine's SRAM beside a directory, reach tables and frontier waits of
given sizes. -/
opaque engineRoom : Nat → Nat → Nat → Nat

end Sys2Proof.Config
end

