-- ==== Sys2Proof/Machine/State.lean ====
section
/-! DEFINITION. The machine's state as plain data: every piece of state the spec gives the module, the reasons a step can
stop, and the state after reset. -/

namespace Sys2Proof.Machine

open Sys2Proof

/-- Why the machine stops with a fault. The traps of R319 are no faults: they are taken. -/
inductive Fault where
  /-- Raised by every access to a local physical address at or above the 768 GiB of a die (R14). The spec describes no
  such access. Safe: the hardware may go on where the model stops. -/
  | noSuchAddress (die pa : Nat)
deriving DecidableEq, Repr

/-- Why the model refuses a step. -/
inductive Refusal where
  /-- Raised by an arm of `exec` whose instruction has no meaning yet. Safe. -/
  | notModelled (mnemonic : String)
deriving DecidableEq, Repr

/-- A register a fixed-latency write or a fill goes to. -/
inductive RegRef where
  | s (n : BitVec 6)
  | v (n : BitVec 5)
  | m (n : BitVec 3)
deriving DecidableEq, Repr

/-- A value on its way to a register: 64 bits for S, enabled lanes for V, enabled bits for M. -/
inductive RegVal where
  | word (w : Word)
  | lanes (en : BitVec 64) (v : LaneVec)
  | bits (en : BitVec 64) (w : BitVec 64)
deriving DecidableEq, Repr

/-- A fixed-latency write that has issued and not landed: reads in cyc `due` and later see it (R62). -/
structure LatWrite where
  reg : RegRef
  val : RegVal
  due : Nat
deriving DecidableEq, Repr

/-- An address space (R213) with the context it belongs to and the context's flow profile (R374). -/
structure Space where
  ctx : Nat := 0
  asn : BitVec 12 := 0
  rootDie : BitVec 2 := 0
  rootPfn : BitVec 27 := 0
  profile : BitVec 8 := 0
deriving DecidableEq, Repr

/-- What a plain access to a tile-mapped page carries from its issue (R165): the tensor entries its core has read, its tensor table
and address space, and the thread and gang it is of. -/
structure TileView where
  tensors : List (Nat × BitVec 1024) := []
  ttbase : BitVec 51 := 0
  space : Space := {}
  thread : Nat := 0
  gang : Option Nat := none
deriving DecidableEq, Repr

/-- A stretch of a virtual extent within one page with its translation. -/
structure PagePiece where
  va : Nat
  len : Nat
  node : Nat
  die : Nat
  pa : Nat
  pte : BitVec 64
  view : TileView := {}
deriving DecidableEq, Repr

/-- What a load reads: elements of `width` bytes from `base` up, `stride` apart (0 for one element), for the enabled lanes of
a vector or for one scalar. -/
structure LoadForm where
  base : Nat
  width : Nat
  sx : Bool := false
  vec : Bool := false
  en : BitVec 64 := 1
  stride : Nat := 0
deriving DecidableEq, Repr

/-- What a long-latency fill delivers (R66). -/
inductive FillSrc where
  /-- The value is decided. -/
  | value (v : RegVal)
  /-- A load that is performed when it fills, of a space of R88 and, for a window, a core; on an access path. -/
  | load (form : LoadForm) (pieces : List PagePiece) (space target path : Nat)
  /-- A remote load collects its RESP packets (R376, R377). -/
  | remote (form : LoadForm) (pieces : List PagePiece) (path : Nat) (got : List (Nat × Byte)) (left : Nat)
  /-- WAITEV fills EVSTAT.CNT when a record is held or the bound has passed (R324). -/
  | waitev (limit : Nat)
  /-- XWAIT fills the status of identifier `t` of a channel (R241). -/
  | xwait (ch : Nat) (t : BitVec 32) (bad : Bool)
  /-- FWAIT and FPOLL wait for a notice (R283, R284). -/
  | frontier (loc time : BitVec 64) (poll st : Bool) (need : Nat)
  /-- MDRAIN waits for the MXQ commands before it (R197). -/
  | drain
  /-- A completion register waits for the compare (R221). -/
  | compare
  /-- A request of a unit: 0 PSREG, 1 COOLREQ, 2 COOLREL, 3 COOLSTAT, 4 CLKLOCK, 5 CLKFREE, with its operands; it decides the
  value when it is applied there (R271, R404, R410). -/
  | request (op : Nat) (a b : Nat)
  /-- The value of an atomic, once it has been applied (R286). -/
  | atomic
deriving DecidableEq, Repr

/-- An outstanding long-latency fill (R66). `pc`, `limit` and `waits` (the location and the time) serve an FWAIT and its watchdog (R276,
R283); `bad` says that the data of a load has an uncorrectable error (R112, R146), `spad` that it stands in a scratchpad (R386). -/
structure Fill where
  uid : Nat
  reg : RegRef
  src : FillSrc
  due : Nat
  pc : PC := 0
  limit : Nat := 0
  stalled : Bool := false
  bad : Bool := false
  spad : Bool := false
  waits : Option (BitVec 64 × BitVec 64) := none
deriving DecidableEq, Repr

/-- A scratchpad store of the SEQ or VEC path that lands at the end of cyc p + 2 (R113, R147); `veiled` says that an older write of its
path was on its way to the die when it issued, with the number `uid` (R248). -/
structure PadWrite where
  buf : Nat
  addr : Nat
  bytes : List (Nat × Byte)
  vec : Bool
  due : Nat
  uid : Nat := 0
  veiled : Bool := false
deriving DecidableEq, Repr

/-- R248: a byte of a core's buffer that a store of a path, numbered `uid`, has replaced: other agents see `old` while an older write of
the path that is homed on the die is on its way. -/
structure Veil where
  path : Nat
  uid : Nat
  buf : Nat
  addr : Nat
  old : Byte
deriving DecidableEq, Repr

/-- The loop registers of one identifier (R53) and when it was started (R119). -/
structure LoopSt where
  start : PC := 0
  stop : PC := 0
  rem : BitVec 32 := 0
  iter : BitVec 32 := 0
  act : Bool := false
  spv : BitVec 8 := 0
  mb : BitVec 3 := 0
  stg : BitVec 3 := 0
  order : Nat := 0
deriving DecidableEq, Repr

/-- A fetch line as it was entered (R56, R59). -/
structure Line where
  num : BitVec 44 := 0
  header : BitVec 64 := 0
  slots : List (BitVec 40) := []
deriving DecidableEq, Repr

inductive CoreStatus where
  | idle | running | stopped | exiting
deriving DecidableEq, Repr

inductive TileKind where
  | unconf | stored | zero | const | ramp | rep
deriving DecidableEq, Repr

/-- One pair of an exception list (R160). -/
structure ExcPair where
  row : Nat
  col : Nat
  value : BitVec 32
deriving DecidableEq, Repr

/-- A tile entry (R158, R159): XCNT is the length of the list; `plus` says that the zeros of a RAMP are +0 (log 115), `spoiled` marks an uncorrectable error in it (R384). -/
structure TileEntry where
  kind : TileKind := .unconf
  hnan : Bool := false
  hinf : Bool := false
  dirty : Bool := false
  pin : Bool := false
  maxexp : Nat := 0
  payload : BitVec 107 := 0
  list : List ExcPair := []
  plus : Bool := false
  spoiled : Bool := false
deriving DecidableEq, Repr

/-- A tile register: shape and format (R50), entry (R49), region (R174), lazy mark and saved record (R186), the first cyc in
which a later instruction that names it may issue (R176), and "defined in the phase" (R387). -/
structure TileReg where
  fmt : BitVec 5 := 0
  cols : BitVec 6 := 0
  rows : BitVec 6 := 0
  entry : TileEntry := {}
  space : BitVec 2 := 0b10
  offset : BitVec 20 := 0
  lazyMark : Bool := false
  saved : Bool := false
  ready : Nat := 0
  defined : Bool := false
deriving DecidableEq, Repr

/-- A tile save slot of the context save area (R186, R334). -/
structure SaveSlot where
  fmt : BitVec 5 := 0
  cols : BitVec 6 := 0
  rows : BitVec 6 := 0
  entry : TileEntry := {}
  bytes : List Byte := []
deriving DecidableEq, Repr

/-- A cached map entry, one of tile-table entries 16 to 255 (R161), most recently used first; `key` is where it stands. -/
structure TileCache where
  tid : Nat
  index : Int
  key : Nat
  entry : TileEntry
deriving DecidableEq, Repr

/-- A weight plane (R188): weight (k, n) is element 64 n + k of `w`. -/
structure Plane where
  fmt : Nat := 0
  stored : Bool := false
  hnan : Bool := false
  hinf : Bool := false
  kp : Nat := 0
  np : Nat := 0
  w : List FVal := []
  defined : Bool := false
deriving DecidableEq, Repr

/-- Bytes an engine command has computed and that have not landed (R210): in a buffer (0 W, 1 A, 2 C) of a core, or in a page. -/
inductive Landing where
  | pad (core buf : Nat) (bytes : List (Nat × Byte))
  | mem (page : PagePiece) (bytes : List (Nat × Byte))
deriving DecidableEq, Repr

/-- A tile the operand fetcher has read (R237): a refusal (DET and PAGE_FAULT detail), its format code and shape, whether it
is ZERO without a list, whether it is a REPEAT that is always computed, whether it is clean (R170), the count of R172, its undecodable escapes, its elements row-major, the bits that differ and the
bits compared (R314), and the bytes it takes. -/
structure Opnd where
  det : Nat := 0
  sub : Nat := 0
  fmt : Nat := 0
  rows : Nat := 0
  cols : Nat := 0
  zero : Bool := false
  comp : Bool := false
  clean : Bool := true
  wild : Nat := 0
  escapes : Nat := 0
  vals : List FVal := []
  differ : Nat := 0
  compared : Nat := 0
  bytes : Nat := 0
deriving DecidableEq, Repr

/-- STATE of R227. -/
inductive CmdState where
  | awaitCompare | popWait | ringWait | fetching | moving | pushWait | completing
deriving DecidableEq, Repr

/-- A command in a queue slot (R92, R93) with the register operands read at issue. `q` is 0 LDQ, 1 MXQ, 2 STQ; `rerun` marks an entry
of Record that a rollback runs again (R390); `pends` are the words it has made pending (R211), `failed` the remote bytes that did not
come (address, length, DET), `elems` where its elements go, in order (R227), `resumed` the elements done before a checkpoint (R245);
`desc` is the geometry descriptor with `descDet` its DET (R233), `walks` the page walks it waits for (log 126), `mark` the place in the
core's `past` from which it reads (log 52), `spoiled` an uncorrectable error of its slot (R384). -/
structure Cmd where
  uid : Nat
  q : Nat
  ch : Nat
  slot : Nat := 0
  raw : BitVec 128
  wmax : Nat
  xid : BitVec 32 := 0
  b : Word := 0
  c : Word := 0
  tile : Nat := 0
  fill : Option Nat := none
  idx : LaneVec := Vector.replicate 64 0
  en : BitVec 64 := 0
  bound : Nat := 0
  fast : Bool := false
  fol : Option Nat := none
  folErr : Bool := false
  chain : Bool := false
  seqNo : BitVec 32 := 0
  held : Bool := false
  phase : Nat := 0
  compared : Bool := false
  st : CmdState := .awaitCompare
  wait : Option Nat := none
  det : Nat := 0
  sub : Nat := 0
  progress : Nat := 0
  te : Nat := 0
  packets : Nat := 0
  got : List (Nat × Byte) := []
  pre : Nat := 0
  stalled : Bool := false
  popped : Bool := false
  early : Bool := false
  fetched : Bool := false
  powered : Bool := false
  opnds : List Opnd := []
  desc : List Byte := []
  lands : List Landing := []
  start : Nat := 0
  rows : Nat := 0
  rate : Nat := 0
  rerun : Bool := false
  spoiled : Bool := false
  mark : Nat := 0
  pends : List (Nat × Nat × Nat) := []
  failed : List (Nat × Nat × Nat) := []
  elems : List (Nat × Nat × Nat × Nat) := []
  resumed : Nat := 0
  descDet : Nat := 0
  walks : Option (List Nat) := none
deriving DecidableEq, Repr

inductive WalkState where
  | idle | run | park
deriving DecidableEq, Repr

/-- A chain walker (R238): `asked` says that it has asked for its entry, `linked` is the LINK that a CHLINK has written since. -/
structure Walker where
  st : WalkState := .idle
  addr : Nat := 0
  cherr : Bool := false
  seqNo : BitVec 32 := 0
  entry : BitVec 256 := 0
  waiting : Option Nat := none
  stalled : Bool := false
  cmd : Option Nat := none
  kick : Nat := 0
  packets : Nat := 0
  got : List (Nat × Byte) := []
  linked : Nat := 0
  asked : Bool := false
deriving DecidableEq, Repr

/-- One entry of a TLB (R216): a page of any size with its page-table entry. -/
structure TlbEntry where
  asn : Nat
  va : Nat
  size : Nat
  pte : BitVec 64
deriving DecidableEq, Repr

/-- Five exception counts (R39). -/
structure Stats where
  sat : Nat := 0
  flush : Nat := 0
  nan : Nat := 0
  esc : Nat := 0
  skip : Nat := 0
deriving DecidableEq, Repr

/-- An instruction line of another module on its way: the READ `uid` asks for the line `num`, and `got` holds its bytes once its
RESP has come (log 108). -/
structure FarLine where
  uid : Nat
  num : BitVec 44
  got : Option (List Byte) := none
deriving DecidableEq, Repr

/-- Registers, flow of control and loops of a thread (03, 06). `unchecked`: the thread is fresh, and R61 has still to be asked of
its entry, whose line is on its way (`far`). `ir` holds the fields of the instruction being issued, in
the long form (R82). `asked`: the instruction has asked for something of which cores that ask in one cyc get it in an order of its
own (R208, R315), and has a second turn at the end of the cyc. `rerun`: a failed phase waits for its re-run of Record (R390, R391).
`divDue` is the cyc in which the fill of the last divide lands (R103). -/
structure SeqSt where
  ir : Fields := {}
  s : Vector Word 64 := Vector.replicate 64 0
  v : Vector LaneVec 32 := Vector.replicate 32 (Vector.replicate 64 0)
  m : Vector (BitVec 64) 8 := Vector.replicate 8 0
  sFull : BitVec 64 := BitVec.allOnes 64
  vFull : BitVec 32 := BitVec.allOnes 32
  pc : PC := 0
  entering : Bool := true
  far : Option FarLine := none
  unchecked : Bool := false
  line : Line := {}
  nextIssue : Nat := 0
  lat : List LatWrite := []
  fills : List Fill := []
  pad : List PadWrite := []
  veils : List Veil := []
  hist : List (Option Nat) := []
  holdFrom : Option Nat := none
  asked : Bool := false
  rerun : Bool := false
  verdict : Option Nat := none
  vecBusy : Nat := 0
  divDue : Nat := 0
  loops : Vector LoopSt 8 := Vector.replicate 8 {}
  loopCount : Nat := 0
  lfsr : BitVec 32 := 1
deriving DecidableEq, Repr

/-- Counters and caches of a core (02 R39, R40; 07 R151; 08). -/
structure CountSt where
  stats : Stats := {}
  gboob : BitVec 64 := 0
  promcnt : BitVec 64 := 0
  cache : List (Nat × Stats) := []
deriving DecidableEq, Repr

/-- Tile state of a core (08, 09). `past` holds, in order, the bytes of its buffers that have been replaced while a command was under way
that reads as it completes (R210): buffer, offset, old byte. -/
structure TileSt where
  t : Vector TileReg 16 := Vector.ofFn fun i => { offset := BitVec.ofNat 20 (0x80000 + 0x4000 * i.val) }
  slots : Vector SaveSlot 16 := Vector.replicate 16 {}
  cache : List TileCache := []
  tensors : List (Nat × BitVec 1024) := []
  ttbase : BitVec 51 := 0
  fast : Bool := false
  active : Plane := {}
  shadow : Plane := {}
  bufW : Mem := []
  bufA : Mem := []
  bufC : Mem := []
  spdbg : Bool := false
  pending : List (Nat × Nat) := []
  badWords : List (Nat × Nat) := []
  past : List (Nat × Nat × Byte) := []
deriving DecidableEq, Repr

/-- Engines of a core (13). `fol` is the copy that waits for its follow-on and the PC of that, `folEnd` how the copy ended if it has
(R236); `pushed` holds for each token FIFO the cyc of the last pushes and their number (R224), `walking` the pages whose walk commands wait for
(log 126), `unseen` the STQ commands that have completed and that the thread has not observed (log 120). -/
structure EngSt where
  cmds : List Cmd := []
  xdone : Vector (BitVec 32) 8 := Vector.replicate 8 0
  xnext : Vector (BitVec 32) 8 := Vector.replicate 8 0
  xerr : Vector Word 8 := Vector.replicate 8 0
  lm : Nat := 0
  ms : Nat := 0
  ml : Nat := 0
  sm : Nat := 0
  events : List Word := []
  drop : Nat := 0
  rsc : Vector (BitVec 16) 64 := Vector.replicate 64 0
  walkers : Vector Walker 2 := Vector.replicate 2 {}
  mxDone : Nat := 0
  mxErr : Bool := false
  txqcfg : Word := 0
  telast : Nat := 0
  halt : Bool := false
  fol : Option (Nat × PC) := none
  folEnd : Option Bool := none
  pushed : Vector (Nat × Nat) 4 := Vector.replicate 4 (0, 0)
  walking : List Nat := []
  unseen : List (Nat × Bool × Nat × BitVec 32) := []
deriving DecidableEq, Repr

/-- Trap and pre-emption registers (18). -/
structure TrapSt where
  tvec : PC := 0
  tpc : PC := 0
  tcause : Word := 0
  taux : Vector Word 4 := Vector.replicate 4 0
  tstall : Vector Word 8 := Vector.replicate 8 0
  thm : Bool := false
  due : List (Nat × Word × Word × Word × List Word) := []
  yreq : Bool := false
  left : Nat := 0
  missed : BitVec 32 := 0
  yielded : BitVec 32 := 0
  csave : BitVec 51 := 0
  spdirty0 : BitVec 64 := 0
  spdirty1 : BitVec 64 := 0
  valid : BitVec 112 := 0
  vdead : Bool := false
  policy : Nat := 0
deriving DecidableEq, Repr

/-- What a commit keeps (R389). -/
structure Snapshot where
  s : Vector Word 64
  m : Vector (BitVec 64) 8
  pc : PC
  thm : Bool
  tpc : PC
  tcause : Word
  loops : Vector LoopSt 8
  loopCount : Nat
  lfsr : BitVec 32
  fast : Bool
  counts : CountSt
  lm : Nat
  ms : Nat
  ml : Nat
  sm : Nat
  xnext : Vector (BitVec 32) 8
  xdone : Vector (BitVec 32) 8
  pushSm : Nat := 0
deriving DecidableEq, Repr

/-- Buffer phases (24): `record` is Record of R389, `copies` the LDQ copies completed in the phase, `posted` the event records of its
commands (R390). -/
structure PhaseSt where
  retry : BitVec 4 := 3
  en : Bool := false
  phase : BitVec 32 := 0
  rolls : BitVec 4 := 0
  cause : BitVec 4 := 0
  ovf : Bool := false
  irrev : Bool := false
  live : Bool := false
  vDefined : BitVec 32 := 0
  snap : Option Snapshot := none
  record : List Cmd := []
  copies : List Cmd := []
  gathered : Bool := false
  posted : List Word := []
deriving DecidableEq, Repr

/-- A capture slot (R403); `left` is the time-stamp at which its context last left the core. -/
structure Capture where
  opened : Bool := false
  inCyc : Nat := 0
  outTicks : Nat := 0
  pre : Bool := false
  start : Nat := 0
  left : Nat := 0
deriving DecidableEq, Repr

/-- A pending BREAK (R399): its first cause, the code of its first BKPT, its number of causes, the loop whose kernel-iteration
boundary it waits for, those that later causes wait for, and whether a boundary is reached. -/
structure BreakSt where
  source : Nat
  pc : PC
  detail : Option Nat
  merged : Nat
  loop : Option Nat
  ready : Bool
  more : List Nat := []
deriving DecidableEq, Repr

/-- Trace, debug, counters and clock lock (25). -/
structure DebugSt where
  trbase : BitVec 51 := 0
  cls : BitVec 16 := 0
  stopfull : Bool := false
  log2n : BitVec 5 := 0
  trhead : BitVec 64 := 0
  trdrop : BitVec 64 := 0
  step : Bool := false
  bpen : BitVec 4 := 0
  bp : Vector PC 4 := Vector.replicate 4 0
  brk : Option BreakSt := none
  pmc : Vector Word 8 := Vector.replicate 8 0
  pmsel : Vector (BitVec 4) 8 := Vector.replicate 8 0
  bcmsel : BitVec 9 := 0
  bcm : List (Nat × Nat) := []
  bcmLast : List (Nat × Nat) := []
  caps : Vector Capture 4 := Vector.replicate 4 {}
  held : Bool := false
  broken : Bool := false
  breakCause : BitVec 8 := 0
  point : BitVec 3 := 0
deriving DecidableEq, Repr

/-- A task record (R292). -/
structure TaskRec where
  tmpl : BitVec 16 := 0
  node : BitVec 16 := 0
  inst : BitVec 32 := 0
  time : BitVec 64 := 0
  join : BitVec 16 := 0
  prio : BitVec 8 := 0
  rem : BitVec 24 := 0
  depth : BitVec 6 := 0
  idem : Bool := false
  nockpt : Bool := false
  tt : Bool := false
  res70 : BitVec 7 := 0
  arg : BitVec 32 := 0
  res0 : BitVec 32 := 0
deriving DecidableEq, Repr

/-- The task a core's thread belongs to (17), its address space (12) and its held zones (26). -/
structure TaskSt where
  gang : Option Nat := none
  rank : Nat := 0
  dropped : Bool := false
  posted : Bool := false
  counts : List (BitVec 64 × BitVec 64 × Int) := []
  poisonOwn : Bool := false
  thread : Nat := 0
  soloBar : Vector (BitVec 32) 4 := Vector.replicate 4 0
  poolsz : BitVec 17 := 0x10000
  nestmax : BitVec 6 := 16
  tpldir : BitVec 51 := 0
  ctx : Nat := 0
  asn : BitVec 12 := 0
  rootDie : BitVec 2 := 0
  rootPfn : BitVec 27 := 0
  profile : BitVec 8 := 0
  tlb : List TlbEntry := []
  walking : List Nat := []
  walkFault : List (Nat × Nat) := []
  held : List (Nat × Nat) := []
  lastCtx : Nat := 0
  throttle : Nat := 0
deriving DecidableEq, Repr

/-- One core with its context. -/
structure CoreSt where
  num : Nat := 0
  status : CoreStatus := .idle
  q : SeqSt := {}
  cnt : CountSt := {}
  tile : TileSt := {}
  eng : EngSt := {}
  trap : TrapSt := {}
  ph : PhaseSt := {}
  dbg : DebugSt := {}
  task : TaskSt := {}
deriving DecidableEq, Repr

/-- What a write that has left a core does at its home. -/
inductive StoreWhat where
  /-- Plain bytes within one page, each at its virtual address, in ascending order. -/
  | plain (page : PagePiece) (bytes : List (Nat × Byte))
  /-- Bytes for the A- or C-buffer of a core of the cluster (R207). -/
  | window (buf core : Nat) (bytes : List (Nat × Byte))
  /-- A multicast (R208). -/
  | multicast (mask : BitVec 128) (bytes : List (Nat × Byte))
  /-- A load, the one whose fill has its number, that has not left the core (R383), or an addition to a statistics block; it holds no
  write. -/
  | load
  /-- A progress or task update, or a registration, that has not left the core (R383); the update with its number follows it. -/
  | post
  /-- A TEXIT.DROP of a member of a gang that has not left the core (R383, R387). -/
  | drop (gang : Nat)
  /-- An atomic of R286 on one element of a page: operation, type, data, compare word, the fill of a returning form. -/
  | atomic (page : PagePiece) (op : Nat) (ty : BitVec 4) (data cmp : Word) (reg : Option Nat)
  /-- A reduction of consecutive elements of a page of another module (R289). -/
  | red (page : PagePiece) (op : Nat) (ty : BitVec 4) (data : List Byte)
  /-- A tile commit of R182 or R163: the map entry's home, entry, exception record and slot bytes. -/
  | commit (mapDie mapPa : Nat) (entry : TileEntry) (spans : List (Nat × Byte)) (tid : Nat) (index : Int)
deriving DecidableEq, Repr

/-- An access that has issued, in the cyc `born`, and not reached its home; `thread`, `ctx` and `ord` are the thread that issued it, its
context, and the ordering that the context's profile gives its path (R374). -/
structure InFlight where
  uid : Nat
  core : Nat
  path : Nat
  thread : Nat := 0
  ctx : Nat := 0
  ord : Bool := true
  pc : PC := 0
  va : Nat := 0
  what : StoreWhat
  compared : Bool := true
  cmd : Option Nat := none
  born : Nat := 0
deriving DecidableEq, Repr

/-- A write emitted by a die and not applied by every die (R255); `org` is the core and path it came from, `who` the command. -/
structure Emitted where
  uid : Nat
  src : Nat
  vc : Vector Nat 4
  bytes : List (Nat × Byte)
  todo : List Nat
  org : Option (Nat × Nat) := none
  who : Option Nat := none
deriving DecidableEq, Repr

/-- Memory of the module (01 R14, 14). Addresses are die × 2^42 + local physical address. `mcReq` holds the cores whose multicast has
been held with the cyc of that, `mcAsk` those that ask in this cyc, `mcLast` the core of each cluster that multicast last (R208). -/
structure MemSt where
  views : Vector Mem 4 := Vector.replicate 4 []
  vc : Vector (Vector Nat 4) 4 := Vector.replicate 4 (Vector.replicate 4 0)
  flying : List InFlight := []
  emitted : List Emitted := []
  badLines : List Nat := []
  dieTlb : Vector (List TlbEntry) 4 := Vector.replicate 4 []
  mcReq : List (Nat × Nat) := []
  mcAsk : List Nat := []
  mcLast : Vector Nat 8 := Vector.replicate 8 0
deriving DecidableEq, Repr

/-- A path function of R272 as it acts on a time: each counter of the result is the source's counter plus a number
(`true`), or a number; `guards` holds what each counter of the source is raised by before it is cleared. -/
structure PathFn where
  comps : List (Bool × Nat)
  guards : List Nat
deriving DecidableEq, Repr

/-- A registered template (R270, R272): locations in order with their depths, its edges by index, its reach entries, and the
address space of the context that registered it. -/
structure Template where
  tmpl : BitVec 16
  locs : List (BitVec 16 × BitVec 4 × Nat)
  edges : List (Nat × Nat × BitVec 16)
  reach : List (Nat × Nat × List PathFn) := []
  fwbase : Nat := 0
  fwslots : Nat := 0
  space : Space := {}
  table : Nat := 0
deriving DecidableEq, Repr

/-- A count cell (R273). -/
structure CountCell where
  loc : BitVec 64
  time : BitVec 64
  cnt : Int
  poison : Bool
deriving DecidableEq, Repr

/-- A graph instance with its home (R268), a die of this module or, where `away` names it, of the module with that node number: its count
cells, the batch each sender last sent for it (R278), and a number that rises with every update of it, by which a notice is newer than
another. The cells of an instance with its home elsewhere stand there. -/
structure GraphInst where
  inst : BitVec 32
  tmpl : BitVec 16
  home : Nat
  away : Option Nat := none
  cells : List CountCell := []
  aborts : List (BitVec 64 × BitVec 64) := []
  sent : Vector Nat 4 := Vector.replicate 4 0
  serial : Nat := 0
deriving DecidableEq, Repr

/-- What the program image says of a node (R294): the entry PC, gang size − 1, thermal class, scope, power units, frame
size, JOINN, AFF, successors with their summaries, argument streams, statistics block, and the depth of its port 0. -/
structure NodeImg where
  code : PC := 0
  gang : Nat := 0
  therm : Nat := 0
  scope : Nat := 0
  pwr : Nat := 1
  frame : Nat := 0
  joinN : Nat := 1
  aff : Nat := 0xFF
  succs : List (BitVec 16 × BitVec 16) := []
  args : List (Nat × Nat) := []
  stats : Nat := 0
  depth : Nat := 1
deriving DecidableEq, Repr

/-- A record placed and not admitted (R296): its node image, its cluster, the address space and template directory it was
placed with, the thread that placed it in a die's pool (R304), its place in its ready queue once its JOIN is 0 (R300), the
checkpointed gang it resumes (R331), and whether it has been admitted before (R298). -/
structure Placed where
  uid : Nat
  task : TaskRec
  img : NodeImg
  cluster : Nat
  space : Space
  tpldir : Nat
  thread : Option Nat := none
  poolDie : Nat := 0
  ready : Option Int := none
  resume : Option Nat := none
  admitted : Bool := false
deriving DecidableEq, Repr

/-- A batch of count updates of one sender on its way to an instance's home (R278): (location, time, delta) each, whether
they are poisoned, the core that waits for the verdict, the core whose held counts they change, whether the first one
creates the instance (R296), and the records placed when the batch is accepted; whether it has left its core after its compare (R383),
the module of a home elsewhere and whether the PBATCH for it is on its flow (R374), and whether the die of its owner has failed since
(R393). -/
structure Update where
  uid : Nat
  sender : Nat
  home : Nat := 0
  inst : BitVec 32
  batch : Nat
  items : List (BitVec 64 × BitVec 64 × Int)
  poison : Bool := false
  marks : List Bool := []
  core : Option Nat := none
  owner : Option Nat := none
  entry : Option (BitVec 16) := none
  records : List Placed := []
  left : Bool := true
  away : Option Nat := none
  sent : Bool := false
  orphan : Bool := false
deriving DecidableEq, Repr

/-- The verdict of an update as it returns to its core (R282). -/
inductive Verdict where
  | ok
  | loc (d : Nat)
  | regress (frontier : BitVec 64)
  | full (d : Nat)
  | join (d : Nat)
  /-- A status of TSPAWN, TENQ or COLL. -/
  | status (w : Word)
deriving DecidableEq, Repr

/-- A notice a Progress Engine holds (R277, R280): the newest of a location, with the least poisoned time and the batches it
covers. -/
structure Notice where
  die : Nat
  loc : BitVec 64
  frontier : BitVec 64
  poison : BitVec 64
  cover : Nat
  serial : Nat
deriving DecidableEq, Repr

/-- A verdict on its way (R282): of a count update or a join decrement, with the words of R320. -/
structure VerdictMsg where
  uid : Nat
  core : Nat
  what : Verdict
  loc : BitVec 64
  time : BitVec 64
  here : Bool := false
deriving DecidableEq, Repr

/-- A rank of this module in a collective (R290, R379): `got` holds the contributions in arrival order, `packets` what is not
acknowledged. -/
structure Coll where
  uid : Nat
  core : Nat
  thread : Nat
  space : Space
  kind : Nat
  ty : BitVec 4
  loc : BitVec 64
  time : BitVec 64
  src : Nat
  dst : Nat
  count : Nat
  group : Nat
  rank : Nat
  root : Nat
  op : Nat
  die : Nat
  got : List (Nat × List Byte) := []
  packets : Nat := 0
  stage : Nat := 0
  bad : Bool := false
deriving DecidableEq, Repr

/-- A contribution that has arrived at a die for a rank (R378). -/
structure CollPart where
  loc : BitVec 64
  time : BitVec 64
  dst : Nat
  src : Nat
  off : Nat
  bytes : List Byte
deriving DecidableEq, Repr

/-- A join decrement on its way to the instance's home (R298), in its sender's batch order (R278), with what a record it
creates takes from the decrementing task; `left` says that it has left its core (R383). -/
structure JoinMsg where
  uid : Nat
  sender : Nat
  home : Nat := 0
  inst : BitVec 32
  batch : Nat
  node : BitVec 16
  time : BitVec 64
  cluster : Nat
  prio : BitVec 8
  idem : Bool
  nockpt : Bool
  tt : Bool
  space : Space
  tpldir : Nat
  core : Option Nat
  left : Bool := true
deriving DecidableEq, Repr

/-- Progress Engines (16). `orders` holds, for an ALLREDUCE at a location and time, the order in which its ranks of this module combine
the contributions (R378). -/
structure PeSt where
  templates : List Template := []
  insts : List GraphInst := []
  updates : List Update := []
  verdicts : List VerdictMsg := []
  notices : List Notice := []
  colls : List Coll := []
  parts : List CollPart := []
  orders : List ((BitVec 64 × BitVec 64) × List Nat) := []
  joins : List JoinMsg := []
  sentTo : Vector (Vector Nat 4) 4 := Vector.replicate 4 (Vector.replicate 4 0)
  applied : Vector (Vector Nat 4) 4 := Vector.replicate 4 (Vector.replicate 4 0)
  ctl : Vector Word 4 := Vector.replicate 4 0
  enabled : Vector Bool 4 := Vector.replicate 4 true
  noNew : Vector Bool 4 := Vector.replicate 4 false
  ovfBase : Vector Word 4 := Vector.replicate 4 0
  ovfSize : Vector Word 4 := Vector.replicate 4 0
  refuse : Vector Nat 4 := Vector.replicate 4 0
  poison : Vector Nat 4 := Vector.replicate 4 0
  fwMiss : Vector Nat 4 := Vector.replicate 4 0
  groups : List (Nat × List (BitVec 32)) := []
deriving DecidableEq, Repr

/-- A barrier of a gang (R285): its generation, the members that have arrived, and those that a release lets pass from a cyc
on. -/
structure BarSt where
  gen : BitVec 32 := 0
  arrived : List Nat := []
  passing : List Nat := []
  release : Nat := 0
deriving DecidableEq, Repr

/-- A gang that runs, is being taken off its cores, or is saved (R301, R326 to R332): `exited` members have released their
cores, `dead` ones were killed, `dropped` ones have executed TEXIT.DROP. `policy` is 0 none, 1 drain, 2 kill, 3 checkpoint,
4 saved; `head` is the waiting record it yields to; `remTick` is the time-stamp from which REM counts down; `marks` number
what a member had in flight when it exited; `stats` adds up the default counters of its members (log 110), `cache` their
counts of tensors by statistics block; `held` is the held table of R411; `evac` says that an evacuation takes it off its cores, and
`evacZones` holds the zones whose evacuation has (R415). -/
structure Gang where
  id : Nat
  task : TaskRec
  img : NodeImg
  cluster : Nat
  space : Space
  tpldir : Nat
  members : List Nat
  exited : List Nat := []
  dead : List Nat := []
  dropped : List Nat := []
  dropDone : Bool := false
  bars : Vector BarSt 4 := Vector.replicate 4 {}
  policy : Nat := 0
  head : Option Nat := none
  stopped : List Nat := []
  flowFail : Bool := false
  remTick : Nat := 0
  frame : Option Nat := none
  marks : List (Nat × Nat) := []
  stats : Stats := {}
  cache : List (Nat × Stats) := []
  held : List (Nat × Nat) := []
  posted : Bool := false
  evac : Bool := false
  evacZones : List Nat := []
  statsDone : Bool := false
deriving DecidableEq, Repr

/-- A quarantined record (R299, R433). -/
structure Quar where
  die : Nat
  task : TaskRec
  core : Nat
  code : Nat
  tpc : Word
  tcause : Word
  taux : List Word
deriving DecidableEq, Repr

/-- Scheduler (17, 18). `claims` are the cores that victims have released for a waiting head (R326, R328), with their flow and
power units; `failing` and `coolFailing` are the heads that fail admission, with the cyc since when; `ckpts` are the saved
contexts of checkpointed gangs; `drops` are the join decrements that R298 drops. `late`: every core has had its turn in the cyc;
`tickReady` is `readyNo` at each die's last tick. -/
structure SchedSt where
  placed : List Placed := []
  gangs : List Gang := []
  readyNo : Int := 0
  quar : List Quar := []
  admWait : Vector Word 8 := Vector.replicate 8 0
  failing : List (Nat × Nat × Nat) := []
  coolFailing : List (Nat × Nat × Nat) := []
  claims : List (Nat × Nat × Nat × Nat) := []
  drops : List (BitVec 32 × BitVec 16 × BitVec 64) := []
  frameCnt : Vector Word 4 := Vector.replicate 4 0
  frameCyc : Vector Nat 4 := Vector.replicate 4 0
  frameLen : Vector Nat 4 := Vector.replicate 4 4096
  frameNew : Vector Nat 4 := Vector.replicate 4 4096
  slipCnt : Vector (BitVec 32) 4 := Vector.replicate 4 0
  slips : List (Nat × Nat × Nat) := []
  ttFailed : List Nat := []
  reserved : Vector Nat 4 := Vector.replicate 4 0
  draws : List (Nat × Nat × Nat) := []
  waiting : List (Nat × Nat × Nat × Nat) := []
  prewait : Nat := 4096
  predrain : Nat := 100
  ydl : Nat := 16384
  ckpts : List (Nat × CoreSt) := []
  late : Bool := false
  tickReady : Vector Int 4 := Vector.replicate 4 0
deriving DecidableEq, Repr

/-- A link of the fabric, both directions (R367 to R372), which carries whole packets (log 141). -/
structure Link where
  up : Bool := false
  half : Option Nat := none
  failedLanes : BitVec 16 := 0
  noLock : BitVec 16 := 0
  retraining : Bool := false
  txNext : BitVec 16 := 0
  replay : List Packet := []
  rxLast : BitVec 16 := 0xFFFF
  discarded : Bool := false
  enable : Bool := true
  crcFails : Nat := 0
  replays : Nat := 0
  naks : Nat := 0
  txq : List Packet := []
  wire : List Packet := []
  ackDue : Bool := false
  laneErr : List (Nat × Nat) := []
  since : Nat := 0
deriving DecidableEq, Repr

/-- Who waits for a packet's acknowledgement or response: a fill, an engine command, a write of a task, a batch of the
Progress Engine, a collective, a chain walker, an instruction fetch, the writes of a unit of the hub die under their
mark, a read that the device makes of its own accord (log 109). -/
inductive FlowUse where
  | fill (core uid : Nat)
  | cmd (core uid : Nat)
  | store (core uid : Nat)
  | batch (uid : Nat)
  | coll (uid : Nat)
  | walker (core w : Nat)
  | fetch (core uid : Nat)
  | unit (org : Nat × Nat)
  | far (uid : Nat)
  | reply
deriving DecidableEq, Repr

/-- A packet of a flow with what waits for it; `va` is the first virtual address a READ asks for. -/
structure FlowItem where
  p : Packet
  use : FlowUse
  va : Nat := 0
deriving DecidableEq, Repr

/-- A flow source (R374, R375). `since` is the cyc of its last advance, `acked` the last cumulative number (R377). -/
structure FlowSrc where
  slot : Nat
  inc : Nat
  ctx : Nat
  node : Nat
  ord : Bool
  opened : Bool := false
  nextSeq : BitVec 32 := 1
  unacked : List FlowItem := []
  queue : List FlowItem := []
  timeouts : Nat := 0
  since : Nat := 0
  acked : BitVec 32 := 0
deriving DecidableEq, Repr

/-- A flow destination (R376). -/
structure FlowDst where
  snode : BitVec 21
  flow : BitVec 16
  ord : Bool
  applied : BitVec 32 := 0
  early : List (BitVec 32) := []
  buf : List Packet := []
deriving DecidableEq, Repr

/-- Bytes of another module that the device reads of its own accord (log 109): who asked, none once it has used them, and in which cyc; the
place; what has come, by offset; how many RESP packets are still to come, and whether one of them brought no bytes (R377). -/
structure FarRead where
  uid : Nat
  who : Option (Nat × Nat)
  born : Nat
  node : Nat
  die : Nat
  pa : Nat
  len : Nat
  left : Nat
  got : List (Nat × Byte) := []
  bad : Bool := false
deriving DecidableEq, Repr

/-- Fabric (23). `far` are the reads of the device itself, the newest first. `shelf` and `groupShelf` hold the tables that stand at addresses which RTGROUP, RTMEMBER and GRPTAB do not name now
(R381). -/
structure FabSt where
  node : BitVec 21 := 0
  links : Vector Link 16 := Vector.replicate 16 {}
  groupTab : List (Nat × Nat × Nat) := []
  memberTab : List (Nat × Nat × Nat) := []
  hopDrop : Nat := 0
  srcs : List FlowSrc := []
  far : List FarRead := []
  dsts : List FlowDst := []
  incs : List (Nat × Nat) := []
  failed : Nat := 0
  robBase : Word := 0
  grpTab : Word := 0
  rtGroup : Word := 0
  rtMember : Word := 0
  shelf : List ((Bool × Word) × List (Nat × Nat × Nat)) := []
  groupShelf : List (Word × List (Nat × List (BitVec 32))) := []
  ltimeout : Nat := 2000
  ftimeout : Nat := 50000
  fretry : Nat := 8
deriving DecidableEq, Repr

/-- A request of a ring that the engine has started (R339, R341): the frame it has taken, the block it evicts to find one (R343),
those that have left for it, and its status. -/
structure RackReq where
  k : Nat
  op : Nat
  block : Nat
  joins : Bool := false
  frame : Option Nat := none
  victim : Option Nat := none
  gone : List Nat := []
  status : Option Nat := none
deriving DecidableEq, Repr

/-- A registered pool (R336, R433). -/
structure Pool where
  ctx : Nat
  nblk : Nat
  poolva : Nat
  descva : Nat
  ringva : Nat
  nent : Nat
  timeout : Nat
  db : Nat
  cons : Nat
  drv : List Nat
  lbabase : Nat
  frameBase : Nat
  frames : Nat
  die : Nat
  free : List Nat
  owner : List (Nat × Nat) := []
  lru : List Nat := []
  reqs : List RackReq := []
  finished : List Nat := []
  nextK : Nat := 0
  consK : Nat := 0
deriving DecidableEq, Repr

/-- A queue pair of a drive (R16, R344): its depth and the requests whose commands stand in it (pool, request). -/
structure QPair where
  drive : Nat
  depth : Nat
  used : List (Nat × Nat) := []
deriving DecidableEq, Repr

/-- Racking Engine and Cellar (19); `enable`, `drain` and `drives` are the fields of RKCTL. -/
structure RackSt where
  pools : List Pool := []
  cellar : Mem := []
  ctl : Word := 0
  poolTab : Word := 0
  qpTab : Word := 0
  enable : Bool := true
  drain : Bool := false
  drives : BitVec 8 := 0xFF
  pairs : List QPair := []
  driveFault : BitVec 8 := 0
  media : Nat := 0
  cancels : Nat := 0
deriving DecidableEq, Repr

/-- A message in the text chain (R352): what the Inflate engine makes of it with its failure, how much of that it has written
and the Charset engine has taken, the characters converted, the UTF-8 bytes written and taken, the token ids written and
delivered; which engines have ended; its fault (reason, stage, offset), whether that is recorded, and whether the message has left
the chain and CONS counts it. -/
structure Message where
  desc : BitVec 512
  out : Option (List Byte × Option (Nat × Nat)) := none
  made : Nat := 0
  used : Nat := 0
  chars : Nat := 0
  text : List Byte := []
  taken : Nat := 0
  tokens : List Nat := []
  sent : Nat := 0
  inflated : Bool := false
  converted : Bool := false
  tokenised : Bool := false
  fault : Option (Nat × Nat × Nat) := none
  recorded : Bool := false
  done : Bool := false
  counted : Bool := false
deriving DecidableEq, Repr

/-- A batch (R359): its number, its tokens, its log entry, END, the cyc it became ready in and whether it has, and the number of its
message in the stream. -/
structure Batch where
  num : Nat
  tokens : List Nat
  log : BitVec 128
  final : Bool := false
  ready : Nat := 0
  once : Bool := false
  msg : Nat := 0
deriving DecidableEq, Repr

/-- An open stream (R351): its configuration; descriptors read, messages completed, messages in the chain; the next batch number, the
batch being written into the ring, the ready batches, those returned by an unbinding, the slot the core holds, and the core
that is bound with the value of its TXQCFG; the queues that are stalled; whether it waits for the quarantine ring (R361); the cyc from
which the banks take the batch being written (R401). -/
structure Stream where
  id : Nat
  ctx : Nat
  mtab : Nat
  maxout : Nat
  ringva : Nat
  nent : Nat
  logva : Nat
  logn : Nat
  db : Nat
  cons : Nat
  bos : BitVec 32
  eos : BitVec 32
  read : Nat := 0
  done : Nat := 0
  msgs : List Message := []
  batchNo : Nat := 0
  writing : Option Batch := none
  landed : Bool := false
  ready : List Batch := []
  again : List Batch := []
  held : Option Nat := none
  bound : Option (Nat × Word) := none
  stalled : BitVec 3 := 0
  closing : Bool := false
  full : Bool := false
  due : Nat := 0
deriving DecidableEq, Repr

/-- Text front-end (20); `enable` and `drain` are the fields of TFCTL, `turns` the streams each engine serves in turn (R358). -/
structure TfeSt where
  streams : List Stream := []
  tables : Vector (List (Nat × Nat)) 4 := Vector.replicate 4 []
  ctl : Word := 0
  enable : Bool := true
  drain : Bool := false
  strTab : Word := 0
  mTab : Word := 0
  qring : Word := 0
  qprod : Nat := 0
  msgs : Nat := 0
  toks : Nat := 0
  quars : Nat := 0
  repls : Nat := 0
  wm : Vector Nat 4 := ⟨#[196608, 65536, 12288, 4096], rfl⟩
  turns : Vector (List Nat) 4 := Vector.replicate 4 []
deriving DecidableEq, Repr

/-- A coolant zone: its VAT entry (R407) and what stands in it (R413, R414); `changed` is the cyc of the last change of its allocation with
the allocation before it (R408), `verified` whether every sample since step 6 began has passed its check. -/
structure Zone where
  st : BitVec 2 := 0
  step : BitVec 3 := 0
  opening : Nat := 0
  flow : Nat := 0
  temp0 : Nat := 0
  temp1 : Nat := 0
  floor : Nat := 8
  sched : Nat := 0
  prog : Nat := 0
  commit : Nat := 0
  hot : Bool := false
  low : Bool := false
  retries : Nat := 0
  target : Nat := 0
  changed : Option (Nat × Nat) := none
  verified : Bool := false
deriving DecidableEq, Repr

/-- Coolant and power (26). The settings of R413 in ns, °C per 100 µs and steps of OPEN (log 131); `setLimits` are the limits as the
management core has set them, `limits` what they come to under MSUPPLY (R418). -/
structure CoolSt where
  zones : Vector Zone 100 := Vector.replicate 100 {}
  enable : Bool := true
  supply : Nat := 4800
  creqwait : Nat := 1024
  twarn : Nat := 85
  ttrip : Nat := 95
  tcrit : Nat := 105
  drysig : Word := 0
  lowPct : Nat := 50
  clearPct : Nat := 80
  dryPct : Nat := 10
  valveSettle : Nat := 2000000
  evAct : Nat := 20000000
  rampStep : Nat := 100000
  verifyT : Nat := 5000000
  evDrain : Nat := 200000
  evRetry : Nat := 2
  ring : List (List Byte) := []
  ringReg : Word := 0
  overFor : Nat := 10000
  lowFor : Nat := 50000
  persistFor : Nat := 1000000
  dryFor : Nat := 20000
  dryRise : Nat := 5
  valveFor : Nat := 1000000
  valveRange : Nat := 8
  limits : Vector Nat 5 := ⟨#[2900, 2900, 2900, 2900, 1200], rfl⟩
  setLimits : Vector Nat 5 := ⟨#[2900, 2900, 2900, 2900, 1200], rfl⟩
  average : Nat := 0
  throttled : Bool := false
deriving DecidableEq, Repr

/-- A context the management core has loaded (R433). -/
structure Context where
  num : Nat
  asn : Nat
  ptroot : Word
  csave : Word
  profile : BitVec 8
deriving DecidableEq, Repr

/-- Host interface, boot and identity (28), reliability counters (24 R394). `fencing` says that a mailbox command is waiting; `bar2` is
what the last BAR2 read answered, none for Completer Abort; `vector0` and `vector1` count the interrupts raised. -/
structure HostSt where
  winbase : Word := 0
  ready : Bool := false
  recov : Bool := false
  failcode : BitVec 8 := 0
  diefail : BitVec 4 := 0
  slot : Bool := false
  epoch : BitVec 16 := 0
  bootStep : BitVec 4 := 1
  fwrel : BitVec 16 := 3
  meas : Vector (List Byte) 4 := Vector.replicate 4 (List.replicate 64 0)
  mbstat : Word := 0
  mbres : Word := 0
  fencing : Bool := false
  bar2 : Option (List Byte) := some []
  boots : Nat := Config.bootCount
  minEpoch : Nat := Config.fusedEpoch
  flashA : List Byte := Config.flashImage false
  flashB : List Byte := Config.flashImage true
  contexts : List Context := []
  nextCtx : Nat := 1
  vector0 : Nat := 0
  vector1 : Nat := 0
  relCe : Vector (List Nat) 4 := Vector.replicate 4 []
  relUe : Vector Nat 4 := Vector.replicate 4 0
  relRoll : Vector (List Nat) 4 := Vector.replicate 4 []
  relKill : Vector Nat 4 := Vector.replicate 4 0
  relTmis : Vector (List Nat) 4 := Vector.replicate 4 []
deriving DecidableEq, Repr

/-- What another agent does next: the cyc from which it may happen, the device step, and what it is about. -/
structure Event where
  due : Nat
  op : Instr
  arg : EvArg := {}
deriving DecidableEq, Repr

/-- The module. `ev` is what the device step being taken is about. `cyc` counts the arithmetic clock; `fresh` and `uid` are counters of the model's own that give
each free value and each thing in flight a number; `agenda` holds what the other agents do next and when. -/
structure State where
  cyc : Nat := 0
  fresh : Nat := 0
  uid : Nat := 0
  agenda : List Event := []
  ev : EvArg := {}
  core : CoreSt := {}
  peers : List CoreSt := []
  mem : MemSt := {}
  pe : PeSt := {}
  sched : SchedSt := {}
  fab : FabSt := {}
  rack : RackSt := {}
  tfe : TfeSt := {}
  cool : CoolSt := {}
  host : HostSt := {}
deriving DecidableEq, Repr

/-- The module right after a module reset (R426): no context, no thread, BOOTSTAT.STEP 1, every register at the value the
spec states or the assumption log names; the boot goes on from step 1, each die's first frame ends after FRAMELEN cyc
(R312), and the valve controllers take a step every 10 µs (R406). -/
def State.reset : State :=
  { agenda := { due := 1, op := .moduleReset, arg := { n0 := 1 } } ::
      { due := 19000, op := .valveControlStep, arg := { n0 := 100 } } ::
      (List.range 4).map fun d => { due := 4096, op := .frameTick, arg := { n0 := d } } }

end Sys2Proof.Machine
end

