-- ==== Sys2Proof/Machine/Formats.lean ====
section
/-! DEFINITION. Element formats, rounding, the LFSR, and the block codecs (02, R18 to R34). -/

namespace Sys2Proof.Machine

open Sys2Proof Decode

/-- The element formats of R18. -/
inductive Fmt where
  | f32 | f16 | bf16 | e4m3 | e5m2 | e2m1
  | bfp (n : Nat)
  | int (n : Nat)
  | nat (n : Nat)
deriving DecidableEq, Repr, Inhabited

/-- R51: the format of a 5-bit code. -/
def fmtOfCode (c : Nat) : Option Fmt :=
  match c with
  | 1 => some .f32 | 2 => some .f16 | 3 => some .bf16 | 4 => some .e4m3 | 5 => some .e5m2 | 6 => some .e2m1
  | 8 => some (.int 8) | 9 => some (.int 16) | 10 => some (.int 32) | 11 => some (.int 64)
  | 12 => some (.nat 8) | 13 => some (.nat 16) | 14 => some (.nat 32) | 15 => some (.nat 64)
  | 0x12 => some (.bfp 2) | 0x13 => some (.bfp 3) | 0x14 => some (.bfp 4) | 0x15 => some (.bfp 5)
  | 0x16 => some (.bfp 6) | 0x17 => some (.bfp 7) | 0x18 => some (.bfp 8)
  | _ => none

/-- R51: the 5-bit code of a format. -/
def fmtCode : Fmt → Nat
  | .f32 => 1 | .f16 => 2 | .bf16 => 3 | .e4m3 => 4 | .e5m2 => 5 | .e2m1 => 6
  | .int 8 => 8 | .int 16 => 9 | .int 32 => 10 | .int _ => 11
  | .nat 8 => 12 | .nat 16 => 13 | .nat 32 => 14 | .nat _ => 15
  | .bfp n => 0x10 + n

/-- R85, column A: the format of a TYPE; 0x0 and 0x7 have none. -/
def tyA (t : BitVec 4) : Option Fmt := if t = 0 then none else fmtOfCode t.toNat

/-- R85, column B. -/
def tyB (t : BitVec 4) : Option Fmt :=
  if t.toNat ≤ 8 then tyA t else fmtOfCode (0x12 + (t.toNat - 9))

/-- Bits of an element (R18). -/
def Fmt.width : Fmt → Nat
  | .f32 => 32 | .f16 => 16 | .bf16 => 16 | .e4m3 => 8 | .e5m2 => 8 | .e2m1 => 4
  | .bfp n => n | .int n => n | .nat n => n

/-- A format of R19. -/
def Fmt.isFloat : Fmt → Bool
  | .f32 | .f16 | .bf16 | .e4m3 | .e5m2 => true
  | _ => false

/-- A format of R34. -/
def Fmt.isInt : Fmt → Bool
  | .int _ | .nat _ => true
  | _ => false

/-- A format whose elements share a block exponent. -/
def Fmt.isBlock : Fmt → Bool
  | .e2m1 | .bfp _ => true
  | _ => false

/-- Elements of a block (R28, R31); 1 for the others. -/
def Fmt.block : Fmt → Nat
  | .e2m1 => 32 | .bfp _ => 16 | _ => 1

/-- Fraction bits (R19, R27). -/
def Fmt.frac : Fmt → Nat
  | .f32 => 23 | .f16 => 10 | .bf16 => 7 | .e4m3 => 3 | .e5m2 => 2 | .e2m1 => 1 | _ => 0

/-- Exponent bias (R19, R27). -/
def Fmt.bias : Fmt → Nat
  | .f32 | .bf16 => 127 | .f16 | .e5m2 => 15 | .e4m3 => 7 | _ => 1

/-- The magnitude pattern of the largest finite value (R19, R27). -/
def Fmt.maxMag : Fmt → Nat
  | .f32 => 0x7F7FFFFF | .f16 => 0x7BFF | .bf16 => 0x7F7F | .e4m3 => 0x7E | .e5m2 => 0x7B | _ => 7

/-- The canonical NaN (R22). -/
def Fmt.nanBits : Fmt → Nat
  | .f32 => 0x7FC00000 | .f16 => 0x7E00 | .bf16 => 0x7FC0 | .e4m3 => 0x7F | .e5m2 => 0x7E | _ => 0

/-- Exponent of the last place of the subnormal grid: 1 − bias − f (R23). -/
def Fmt.qmin (t : Fmt) : Int := 1 - (t.bias : Int) - t.frac

/-- The sign bit of a float pattern. -/
def Fmt.signBit (t : Fmt) (neg : Bool) : Nat := if neg then 2 ^ (t.width - 1) else 0

/-- The pattern of an infinity: the magnitude after the largest finite one (R20). -/
def Fmt.infBits (t : Fmt) (neg : Bool) : Nat := t.maxMag + 1 + t.signBit neg

/-- R19, R20: the value of a float pattern of w bits. -/
def decodeFloat (t : Fmt) (x : Nat) : FVal :=
  let x := x % 2 ^ t.width
  let neg := decide (2 ^ (t.width - 1) ≤ x)
  let mag := x % 2 ^ (t.width - 1)
  if mag ≤ t.maxMag then
    let ex := mag / 2 ^ t.frac
    let fr := mag % 2 ^ t.frac
    if ex = 0 then .fin neg fr t.qmin
    else .fin neg (2 ^ t.frac + fr) (t.qmin + (ex - 1 : Nat))
  else if t ≠ Fmt.e4m3 ∧ mag = t.maxMag + 1 then .inf neg
  else .nan

/-- The integer of an In or Nn pattern (R34). -/
def intVal : Fmt → Nat → Int
  | .int n, x => (BitVec.ofNat n x).toInt
  | .nat n, x => ((x % 2 ^ n : Nat) : Int)
  | _, _ => 0

/-- The exact value of a pattern of a format that is no block format. -/
def fvalOf (t : Fmt) (x : Nat) : FVal :=
  if t.isFloat then decodeFloat t x
  else let i := intVal t x; .fin (decide (i < 0)) i.natAbs 0

/-! Exact arithmetic on values. -/

namespace Sem

def isNaN : FVal → Bool | .nan => true | _ => false
def isInf : FVal → Bool | .inf _ => true | _ => false
def isZero : FVal → Bool | .fin _ 0 _ => true | _ => false
def isFinite : FVal → Bool | .fin _ _ _ => true | _ => false
def negative : FVal → Bool | .nan => false | .inf s => s | .fin s _ _ => s
def neg : FVal → FVal | .nan => .nan | .inf s => .inf (!s) | .fin s m e => .fin (!s) m e
def abs : FVal → FVal | .nan => .nan | .inf _ => .inf false | .fin _ m e => .fin false m e

/-- The signed integer of a finite value at exponent `e0`, no higher than its own. -/
def scaled (s : Bool) (m : Nat) (e e0 : Int) : Int :=
  let k : Int := (m * 2 ^ (e - e0).toNat : Nat)
  if s then -k else k

/-- The exact sum; `rd` is whether an exact zero of unlike signs is −0 (round toward −∞, IEEE 754-2019). -/
def add (rd : Bool) (a b : FVal) : FVal :=
  match a, b with
  | .nan, _ => .nan
  | _, .nan => .nan
  | .inf s, .inf t => if s = t then .inf s else .nan
  | .inf s, _ => .inf s
  | _, .inf t => .inf t
  | .fin s m e, .fin t n f =>
    let e0 := min e f
    let k := scaled s m e e0 + scaled t n f e0
    if k = 0 then (if m = 0 ∧ n = 0 ∧ s = t then .fin s 0 e0 else .fin rd 0 e0)
    else .fin (decide (k < 0)) k.natAbs e0

/-- The exact product. -/
def mul (a b : FVal) : FVal :=
  match a, b with
  | .nan, _ => .nan
  | _, .nan => .nan
  | .inf s, .inf t => .inf (s != t)
  | .inf s, .fin t n _ => if n = 0 then .nan else .inf (s != t)
  | .fin s m _, .inf t => if m = 0 then .nan else .inf (s != t)
  | .fin s m e, .fin t n f => .fin (s != t) (m * n) (e + f)

/-- The value times 2^k. -/
def scale (k : Int) : FVal → FVal
  | .nan => .nan
  | .inf s => .inf s
  | .fin s m e => .fin s m (e + k)

/-- Exact order of two values that are no NaN: −0 equals +0. -/
def cmp (a b : FVal) : Ordering :=
  match a, b with
  | .inf s, .inf t => if s = t then .eq else if s then .lt else .gt
  | .inf s, _ => if s then .lt else .gt
  | _, .inf t => if t then .gt else .lt
  | .fin s m e, .fin t n f =>
    let e0 := min e f
    compare (scaled s m e e0) (scaled t n f e0)
  | _, _ => .eq

/-- a < b for values that are no NaN. -/
def lt (a b : FVal) : Bool := cmp a b == .lt

/-- Log2Floor of a finite nonzero value's magnitude (R30). -/
def log2 : FVal → Int
  | .fin _ m e => (m.log2 : Int) + e
  | _ => 0

/-- The greatest integer not above a finite value. -/
def floor : FVal → Int
  | .fin s m e =>
    if 0 ≤ e then scaled s m e 0
    else
      let d : Int := (2 ^ (-e).toNat : Nat)
      (scaled s m 0 0).fdiv d
  | _ => 0

/-- Whether a finite value is an integer. -/
def isInt : FVal → Bool
  | .fin _ m e => decide (0 ≤ e) || decide (m % 2 ^ (-e).toNat = 0)
  | _ => false

end Sem

/-- Rounding modes of R23, R86. -/
inductive RMode where
  | rn | rz | ru | rd | rs
deriving DecidableEq, Repr, Inhabited

/-- R86: the rounding mode of MOD[2:0]; 101 to 111 are refused at issue. -/
def rmodeOf (md : BitVec 4) : RMode :=
  match md.toNat % 8 with
  | 0 => .rn | 1 => .rz | 2 => .ru | 3 => .rd | _ => .rs

/-- R86: MOD[3] selects SAT. -/
def satOf (md : BitVec 4) : Bool := md.getLsbD 3

/-- How an instruction rounds: mode, SAT or OVF, and whether it flushes (R21). -/
structure Rnd where
  mode : RMode := .rn
  sat : Bool := false
  flush : Bool := false
deriving DecidableEq, Repr, Inhabited

/-- Counts are unbounded; a register or a block shows what fits (log 15). -/
def Stats.add (a b : Stats) : Stats :=
  { sat := a.sat + b.sat, flush := a.flush + b.flush, nan := a.nan + b.nan, esc := a.esc + b.esc, skip := a.skip + b.skip }

/-- What roundings draw from and count into: the LFSR of R25 and the events of R39. -/
structure Draw where
  lfsr : BitVec 32
  st : Stats := {}
deriving DecidableEq, Repr, Inhabited

def Draw.sat (d : Draw) (n : Nat := 1) : Draw := { d with st := { d.st with sat := d.st.sat + n } }
def Draw.flush (d : Draw) (n : Nat := 1) : Draw := { d with st := { d.st with flush := d.st.flush + n } }
def Draw.nan (d : Draw) (n : Nat := 1) : Draw := { d with st := { d.st with nan := d.st.nan + n } }
def Draw.esc (d : Draw) (n : Nat := 1) : Draw := { d with st := { d.st with esc := d.st.esc + n } }
def Draw.skip (d : Draw) (n : Nat := 1) : Draw := { d with st := { d.st with skip := d.st.skip + n } }

/-- One step of the LFSR (R25) and the bit it makes. -/
def lfsrStep (s : BitVec 32) : Bool × BitVec 32 :=
  let b := ((s.getLsbD 31 != s.getLsbD 21) != s.getLsbD 1) != s.getLsbD 0
  (b, (s <<< 1) ||| (if b then 1 else 0))

/-- `n` steps: the integer of the new bits, the first as most significant, and the register after. -/
def lfsrDraw : Nat → Nat → BitVec 32 → Nat × BitVec 32
  | 0, r, s => (r, s)
  | n + 1, r, s => let (b, s') := lfsrStep s; lfsrDraw n (2 * r + b.toNat) s'

/-- The outcome of rounding m × 2^e to places of 2^q: the multiple, and which neighbour was taken. -/
inductive Took where
  | exact | lower | upper
deriving DecidableEq, Repr, Inhabited

/-- R23, R25: the multiple of 2^q that the mode chooses for the magnitude m × 2^e of a sign. -/
def roundAt (mode : RMode) (neg : Bool) (m : Nat) (e q : Int) (d : Draw) : Nat × Took × Draw :=
  if q ≤ e then (m * 2 ^ (e - q).toNat, .exact, d)
  else
    let u := 2 ^ (q - e).toNat
    let lo := m / u
    let r := m % u
    if r = 0 then (lo, .exact, d)
    else
      let (up, d) : Bool × Draw :=
        match mode with
        | .rn => (decide (u < 2 * r) || (decide (2 * r = u) && decide (lo % 2 = 1)), d)
        | .rz => (false, d)
        | .ru => (!neg, d)
        | .rd => (neg, d)
        | .rs =>
          let (x, l) := lfsrDraw 16 0 d.lfsr
          (decide (65536 ≤ r * 65536 / u + x), { d with lfsr := l })
      if up then (lo + 1, .upper, d) else (lo, .lower, d)

/-- R23: the magnitude pattern on the grid of a format continued above its largest finite value, of a nonzero magnitude. -/
def roundMag (t : Fmt) (mode : RMode) (neg : Bool) (m : Nat) (e : Int) (d : Draw) : Nat × Took × Draw :=
  let q := max ((m.log2 : Int) + e - t.frac) t.qmin
  let (k, took, d) := roundAt mode neg m e q d
  ((q - t.qmin).toNat * 2 ^ t.frac + k, took, d)

/-- R24: the pattern of a result whose rounded magnitude exceeds the largest finite value. -/
def overflow (t : Fmt) (r : Rnd) (neg : Bool) (took : Took) (d : Draw) : Nat × Draw :=
  if r.sat then (t.maxMag + t.signBit neg, d.sat)
  else
    let toInf := match r.mode with
      | .rn => true
      | .rz => false
      | .ru => !neg
      | .rd => neg
      | .rs => decide (took ≠ Took.lower)
    if toInf then (if t = Fmt.e4m3 then (t.nanBits, d.nan) else (t.infBits neg, d))
    else (t.maxMag + t.signBit neg, d)

/-- R22 to R25, R39: a value rounded to a float format. -/
def roundF (t : Fmt) (r : Rnd) (v : FVal) (d : Draw) : Nat × Draw :=
  match v with
  | .nan => (t.nanBits, d.nan)
  | .inf s =>
    if t = Fmt.e4m3 then (if r.sat then (t.maxMag + t.signBit s, d.sat) else (t.nanBits, d.nan))
    else (t.infBits s, d)
  | .fin s m e =>
    if m = 0 then (t.signBit s, d)
    else
      let (p, took, d) := roundMag t r.mode s m e d
      if t.maxMag < p then overflow t r s took d
      else if r.flush && decide (p ≠ 0 ∧ p < 2 ^ t.frac) then (t.signBit s, d.flush)
      else (p + t.signBit s, d)

/-- The range of an integer format (R34). -/
def Fmt.range : Fmt → Int × Int
  | .int n => (-(2 ^ (n - 1) : Nat), (2 ^ (n - 1) : Nat) - 1)
  | .nat n => (0, (2 ^ n : Nat) - 1)
  | _ => (0, 0)

/-- R34: an integer wrapped to n bits, or clamped with one SAT under SAT; the pattern of the format's width. -/
def fitInt (t : Fmt) (sat : Bool) (v : Int) (d : Draw) : Nat × Draw :=
  let (lo, hi) := t.range
  if sat && decide (v < lo) then ((lo % (2 ^ t.width : Nat)).toNat, d.sat)
  else if sat && decide (hi < v) then ((hi % (2 ^ t.width : Nat)).toNat, d.sat)
  else ((v % (2 ^ t.width : Nat)).toNat, d)

/-- The integer a mode rounds a finite value to (R23). -/
def roundToInt (mode : RMode) (v : FVal) (d : Draw) : Int × Draw :=
  match v with
  | .fin s m e =>
    let (k, _, d) := roundAt mode s m e 0 d
    (if s then -(k : Int) else k, d)
  | _ => (0, d)

/-- R34: a float converted to an integer format: rounded, clamped with one SAT; NaN gives 0 with one SAT. -/
def floatToInt (t : Fmt) (mode : RMode) (v : FVal) (d : Draw) : Nat × Draw :=
  match v with
  | .nan => (0, d.sat)
  | .inf s => (((if s then t.range.1 else t.range.2) % (2 ^ t.width : Nat)).toNat, d.sat)
  | .fin _ _ _ =>
    let (i, d) := roundToInt mode v d
    fitInt t true i d

/-- A value rounded to a format that is no block format; an integer format clamps as R34 states for a conversion. -/
def roundTo (t : Fmt) (r : Rnd) (v : FVal) (d : Draw) : Nat × Draw :=
  if t.isFloat then roundF t r v d else floatToInt t r.mode v d

/-! E2M1 (R27 to R30). -/

/-- A block of 32 elements of R28: the element nibbles in order and the scale record. -/
structure E2Block where
  codes : List Nat
  scale : Nat
deriving DecidableEq, Repr, Inhabited

/-- Entry `i` of the side list of a scale record (R28): (position, FP16 pattern). -/
def e2Entry (scale i : Nat) : Nat × Nat :=
  let x := scale / 2 ^ (32 + 24 * i)
  (x % 32, x / 256 % 65536)

/-- R29: the element at position `i` of a block, and whether it is an escape without an entry, which counts one NaN. -/
def e2Element (b : E2Block) (i : Nat) : FVal × Bool :=
  let x := b.scale % 256
  let cnt := b.scale / 256 % 8
  let code := b.codes.getD i 0
  if x = 0xFF ∨ 5 ≤ cnt then (.nan, false)
  else if code = 8 then
    match ((List.range cnt).map (e2Entry b.scale)).find? (fun en => en.1 == i) with
    | some en => (decodeFloat .f16 en.2, false)
    | none => (.nan, true)
  else
    let mag := code % 8
    let v := decodeFloat .e2m1 mag
    let s := decide (8 ≤ code)
    (match v with | .fin _ m e => .fin s m (e + (x : Int) - 127) | w => w, false)

/-- R29: the 32 elements of a block, each with whether it is an escape without an entry. -/
def e2Elements (b : E2Block) : List (FVal × Bool) := (List.range 32).map (e2Element b)
/-- R29: the 32 elements of a block. -/
def e2Decode (b : E2Block) : List FVal := (e2Elements b).map (·.1)

/-- Insertion of a value into a list that descends by magnitude, after equals (so that the lower position stays first). -/
def insertMag (p : Nat × FVal) : List (Nat × FVal) → List (Nat × FVal)
  | [] => [p]
  | x :: xs => if Sem.lt (Sem.abs x.2) (Sem.abs p.2) then p :: x :: xs else x :: insertMag p xs

def sortMag (l : List (Nat × FVal)) : List (Nat × FVal) := l.foldl (fun acc p => insertMag p acc) []

/-- R30: the shared exponent of a block. -/
def e2Exponent (vs : List (Nat × FVal)) : Nat :=
  let fin := sortMag (vs.filter fun p => Sem.isFinite p.2)
  let q := 4 - (vs.length - fin.length)
  let rest := fin.drop q
  let aref := match rest.head? with
    | some p => if Sem.isZero p.2 then none else some p.2
    | none => none
  let aref := match aref with
    | some v => some v
    | none => ((fin.take q).filter fun p => !Sem.isZero p.2).getLast?.map (·.2)
  match aref with
  | none => 0
  | some v => (min (max (Sem.log2 v - 2 + 127) 1) 254).toNat

/-- R30: the grid code of a value under exponent X: the magnitude pattern, which exceeds 7 for an outlier. -/
def e2Grid (mode : RMode) (x : Nat) (v : FVal) (d : Draw) : Nat × Draw :=
  match v with
  | .fin s m e =>
    if m = 0 then (0, d)
    else let (p, _, d) := roundMag .e2m1 mode s m (e + 127 - x) d; (p, d)
  | _ => (8, d)

/-- R30: 32 values as an E2M1 block. -/
def e2Encode (r : Rnd) (vals : List FVal) (d : Draw) : E2Block × Draw :=
  let vs := (List.range 32).map fun i => (i, vals.getD i (.fin false 0 0))
  let x := e2Exponent vs
  let (grid, d) := vs.foldl (fun (acc, d) p => let (g, d) := e2Grid r.mode x p.2 d; (acc ++ [g], d)) (([] : List Nat), d)
  let out := vs.filter fun p => decide (7 < grid.getD p.1 0)
  let ranked := out.filter (fun p => Sem.isNaN p.2) ++ out.filter (fun p => Sem.isInf p.2)
    ++ sortMag (out.filter fun p => Sem.isFinite p.2)
  let first := ranked.take 4
  let (pats, d) := vs.foldl (fun (acc, d) p =>
      if first.any (fun k => k.1 == p.1) then let (b, d) := roundF .f16 { r with flush := false } p.2 d; (acc ++ [(p.1, b)], d.esc) else (acc, d))
    (([] : List (Nat × Nat)), d)
  let (codes, d) := vs.foldl (fun (acc, d) p =>
      let g := grid.getD p.1 0
      let s := if Sem.negative p.2 then 8 else 0
      if first.any (fun k => k.1 == p.1) then (acc ++ [8], d)
      else if 7 < g then (acc ++ [if Sem.isNaN p.2 then 0 else 7 + s], d.sat)
      else if g = 0 then (acc ++ [0], if Sem.isZero p.2 then d else d.flush)
      else (acc ++ [g + s], d)) (([] : List Nat), d)
  let entries := (List.range first.length).foldl (fun acc i =>
      let p := (first.getD i (0, .nan)).1
      let b := ((pats.find? fun k => k.1 == p).map (·.2)).getD 0
      acc + (p + 256 * b) * 2 ^ (32 + 24 * i)) 0
  ({ codes := codes, scale := x + 256 * first.length + entries }, d)

/-- The 16 bytes of element data of a block (R28). -/
def e2Bytes (b : E2Block) : List Byte :=
  (List.range 16).map fun j => BitVec.ofNat 8 (b.codes.getD (2 * j) 0 + 16 * b.codes.getD (2 * j + 1) 0)

/-- The codes of 16 bytes of element data. -/
def e2Codes (bs : List Byte) : List Nat :=
  (List.range 32).map fun i => (bs.getD (i / 2) 0).toNat / 16 ^ (i % 2) % 16

/-! Block floating point (R31, R32). -/

/-- A BFPn block: mantissa patterns of n bits and the exponent. -/
structure BBlock where
  mants : List Nat
  exp : Nat
deriving DecidableEq, Repr, Inhabited

/-- R31: the value of element `i`. -/
def bElement (n : Nat) (b : BBlock) (i : Nat) : FVal :=
  if b.exp = 0xFF then .nan
  else
    let m := (BitVec.ofNat n (b.mants.getD i 0)).toInt
    .fin (decide (m < 0)) m.natAbs ((b.exp : Int) - 127 - ((n : Int) - 2))

/-- R31: the 16 values of a block. -/
def bDecode (n : Nat) (b : BBlock) : List FVal := (List.range 16).map (bElement n b)

/-- The largest finite magnitude of a list; zero when there is none. -/
def maxMagnitude (vs : List FVal) : FVal :=
  vs.foldl (fun acc v => if Sem.isFinite v && Sem.lt acc (Sem.abs v) then Sem.abs v else acc) (.fin false 0 0)

/-- R32: the mantissa of one value under exponent E. -/
def bMant (n : Nat) (mode : RMode) (ex : Nat) (v : FVal) (d : Draw) : Nat × Draw :=
  let hi : Int := (2 ^ (n - 1) : Nat) - 1
  let lo : Int := -(2 ^ (n - 1) : Nat)
  let wrap (i : Int) : Nat := (i % (2 ^ n : Nat)).toNat
  match v with
  | .inf s => (wrap (if s then lo else hi), d)
  | .nan => (0, d)
  | .fin _ _ _ =>
    let (i, d) := roundToInt mode (Sem.scale (-((ex : Int) - 127 - ((n : Int) - 2))) v) d
    let (i, d) := if hi < i then (hi, d.sat) else if i < lo then (lo, d.sat) else (i, d)
    (wrap i, if i = 0 && !Sem.isZero v then d.flush else d)

/-- R32: 16 values as a BFPn block. -/
def bEncode (n : Nat) (r : Rnd) (vals : List FVal) (d : Draw) : BBlock × Draw :=
  let vs := (List.range 16).map fun i => vals.getD i (.fin false 0 0)
  let nanBlock : BBlock := { mants := List.replicate 16 0, exp := 0xFF }
  let infs := (vs.filter Sem.isInf).length
  if vs.any Sem.isNaN then (nanBlock, d.nan 16)
  else if infs ≠ 0 ∧ !r.sat then (nanBlock, d.nan 16)
  else
    let d := d.sat infs
    let amax := maxMagnitude vs
    if Sem.isZero amax ∧ infs = 0 then ({ mants := List.replicate 16 0, exp := 0 }, d)
    else
      let e := if Sem.isZero amax then 254 else Sem.log2 amax + 127
      if 254 < e ∧ !r.sat then (nanBlock, d.nan 16)
      else
        let ex := (max (min e 254) 0).toNat
        let (ms, d) := vs.foldl (fun (acc, d) v => let (m, d) := bMant n r.mode ex v d; (acc ++ [m], d)) (([] : List Nat), d)
        ({ mants := ms, exp := ex }, d)

/-- The 2n bytes of a block's mantissas (R31). -/
def bBytes (n : Nat) (b : BBlock) : List Byte :=
  leBytes (2 * n) ((List.range 16).foldl (fun acc i => acc + b.mants.getD i 0 * 2 ^ (n * i)) 0)

/-- The mantissa patterns of 2n bytes. -/
def bMants (n : Nat) (bs : List Byte) : List Nat :=
  let w := leNat bs
  (List.range 16).map fun i => w / 2 ^ (n * i) % 2 ^ n

end Sys2Proof.Machine
end

