-- ==== Sys2Proof/Machine/Ops.lean ====
section
/-! DEFINITION. Named operations over the state: registers, memory in its canonical form, translation, the agenda, free
values, the trace ring, and taking a trap and returning from one (03, 12, 14, 18, 25). -/

namespace Sys2Proof.Machine

open Sys2Proof Decode

/-! Files of registers. -/

/-- Element `i` of a vector, the index taken modulo its size. -/
def vat {α : Type} {n : Nat} [NeZero n] (v : Vector α n) (i : Nat) : α :=
  v[i % n]'(Nat.mod_lt i (Nat.pos_of_neZero n))

/-- A vector with element `i`, taken modulo its size, replaced. -/
def vput {α : Type} {n : Nat} [NeZero n] (v : Vector α n) (i : Nat) (x : α) : Vector α n :=
  v.set (i % n) x (Nat.mod_lt i (Nat.pos_of_neZero n))

/-- A word with bit `i` set or cleared. -/
def setBit {w : Nat} (x : BitVec w) (i : Nat) (b : Bool) : BitVec w :=
  if b then x ||| BitVec.ofNat w (2 ^ i) else x &&& ~~~ BitVec.ofNat w (2 ^ i)

/-- R45: S0 reads as zero. -/
def SeqSt.getS (q : SeqSt) (n : Nat) : Word := if n = 0 then 0 else vat q.s n
/-- R45: a write to S0 is discarded. -/
def SeqSt.setS (q : SeqSt) (n : Nat) (x : Word) : SeqSt := if n = 0 then q else { q with s := vput q.s n x }
def SeqSt.getV (q : SeqSt) (n : Nat) : LaneVec := vat q.v n
/-- A write of the enabled lanes (R84). -/
def SeqSt.setV (q : SeqSt) (n : Nat) (en : BitVec 64) (x : LaneVec) : SeqSt :=
  let old := vat q.v n
  { q with v := vput q.v n (tab 64 fun i => if en.getLsbD i then vat x i else vat old i) }
/-- R45: M0 reads as all ones. -/
def SeqSt.getM (q : SeqSt) (n : Nat) : BitVec 64 := if n = 0 then BitVec.allOnes 64 else vat q.m n
/-- R45: a write to M0 is discarded; a write of the enabled bits (R84). -/
def SeqSt.setM (q : SeqSt) (n : Nat) (en : BitVec 64) (x : BitVec 64) : SeqSt :=
  if n = 0 then q else { q with m := vput q.m n ((x &&& en) ||| (vat q.m n &&& ~~~ en)) }
/-- R44, R45: whether Sn is full; S0 always is. -/
def SeqSt.fullS (q : SeqSt) (n : Nat) : Bool := n = 0 || q.sFull.getLsbD n
def SeqSt.fullV (q : SeqSt) (n : Nat) : Bool := q.vFull.getLsbD n
/-- The write of a value to a register. -/
def SeqSt.put (q : SeqSt) (r : RegRef) (v : RegVal) : SeqSt :=
  match r, v with
  | .s n, .word w => q.setS n.toNat w
  | .v n, .lanes en x => q.setV n.toNat en x
  | .m n, .bits en x => q.setM n.toNat en x
  | _, _ => q
/-- R48: a fill sets the full bit. -/
def SeqSt.setFull (q : SeqSt) (r : RegRef) (b : Bool) : SeqSt :=
  match r with
  | .s n => { q with sFull := if n = 0 then q.sFull else setBit q.sFull n.toNat b }
  | .v n => { q with vFull := setBit q.vFull n.toNat b }
  | .m _ => q

/-! Memories (a list of (address, byte), canonical). -/

/-- What an unlisted address reads as (log 1). -/
def Mem.blank : Byte := 0
/-- The byte at an address. -/
def Mem.read : Mem → Nat → Byte
  | [], _ => Mem.blank
  | (k, b) :: m, a => if k = a then b else if a < k then Mem.blank else Mem.read m a
/-- The memory with a byte written; a byte that equals what an unlisted address reads as is not listed. -/
def Mem.write : Mem → Nat → Byte → Mem
  | [], a, b => if b = Mem.blank then [] else [(a, b)]
  | (k, c) :: m, a, b =>
    if k = a then (if b = Mem.blank then m else (a, b) :: m)
    else if a < k then (if b = Mem.blank then (k, c) :: m else (a, b) :: (k, c) :: m)
    else (k, c) :: Mem.write m a b
/-- The canonical form: addresses strictly rising above `lo`, no listed byte that an unlisted address reads as. -/
def Mem.wfFrom (lo : Nat) : Mem → Bool
  | [] => true
  | (k, b) :: m => decide (lo ≤ k) && decide (b ≠ Mem.blank) && Mem.wfFrom (k + 1) m
/-- The canonical form. -/
def Mem.wf (m : Mem) : Bool := Mem.wfFrom 0 m
/-- `n` bytes from an address up. -/
def Mem.readN (m : Mem) (a n : Nat) : List Byte := (List.range n).map fun i => Mem.read m (a + i)
/-- Bytes written from an address up. -/
def Mem.writeN (m : Mem) (a : Nat) (bs : List Byte) : Mem :=
  ((List.range bs.length).zip bs).foldl (fun m p => Mem.write m (a + p.1) p.2) m
/-- Bytes written each at its own address. -/
def Mem.writeAll (m : Mem) (bs : List (Nat × Byte)) : Mem := bs.foldl (fun m p => Mem.write m p.1 p.2) m
/-- The little-endian value of `n` bytes (R4). -/
def Mem.readLE (m : Mem) (a n : Nat) : Nat := leNat (Mem.readN m a n)

/-! Cores. -/

/-- R12: die, cluster of the module and core within the cluster. -/
def dieOf (n : Nat) : Nat := n / 256 % 4
def clusterOf (n : Nat) : Nat := n / 128 % 8
def coreInCluster (n : Nat) : Nat := n % 128
/-- R15: the coolant zone of a core. -/
def zoneOfCore (n : Nat) : Nat :=
  let c := coreInCluster n
  12 * clusterOf n + (if c < 88 then c / 11 else 8 + (c - 88) / 10)

/-- The core of a number. A core the state does not list has run nothing since reset. -/
def State.coreAt (s : State) (n : Nat) : CoreSt :=
  if s.core.num = n then s.core else (s.peers.find? fun c => c.num == n).getD { num := n }
/-- The state with a core changed; a core not listed is listed by its change. -/
def State.modCore (s : State) (n : Nat) (f : CoreSt → CoreSt) : State :=
  if s.core.num = n then { s with core := f s.core }
  else if s.peers.any fun c => c.num == n then
    { s with peers := s.peers.map fun c => if c.num == n then f c else c }
  else { s with peers := s.peers ++ [f { num := n }] }
/-- Every listed core. -/
def State.cores (s : State) : List CoreSt := s.core :: s.peers

def State.modQ (s : State) (f : SeqSt → SeqSt) : State := { s with core := { s.core with q := f s.core.q } }
def CoreSt.modQ (c : CoreSt) (f : SeqSt → SeqSt) : CoreSt := { c with q := f c.q }
def CoreSt.modTile (c : CoreSt) (f : TileSt → TileSt) : CoreSt := { c with tile := f c.tile }
def CoreSt.modEng (c : CoreSt) (f : EngSt → EngSt) : CoreSt := { c with eng := f c.eng }
def CoreSt.modTrap (c : CoreSt) (f : TrapSt → TrapSt) : CoreSt := { c with trap := f c.trap }
def CoreSt.modTask (c : CoreSt) (f : TaskSt → TaskSt) : CoreSt := { c with task := f c.task }
def CoreSt.modPh (c : CoreSt) (f : PhaseSt → PhaseSt) : CoreSt := { c with ph := f c.ph }
def CoreSt.modDbg (c : CoreSt) (f : DebugSt → DebugSt) : CoreSt := { c with dbg := f c.dbg }
def CoreSt.modCnt (c : CoreSt) (f : CountSt → CountSt) : CoreSt := { c with cnt := f c.cnt }

/-- The die of the focused core. -/
def State.die (s : State) : Nat := dieOf s.core.num

/-! The agenda and the free values (log 4, log 5). -/

/-- A device step that may happen from `d` cyc on. -/
def State.schedule (s : State) (d : Nat) (op : Instr) (arg : EvArg := {}) : State :=
  { s with agenda := s.agenda ++ [{ due := s.cyc + d, op := op, arg := arg }] }
/-- FREE VALUE: a number of cyc between `lo` and `hi`. -/
def State.freeCyc (s : State) (lo hi : Nat) : Nat × State :=
  (lo + Config.freeDelay s.fresh % (hi - lo + 1), { s with fresh := s.fresh + 1 })
/-- FREE VALUE: a number of cyc of at least `lo`, with no bound. -/
def State.freeFrom (s : State) (lo : Nat) : Nat × State :=
  (lo + Config.freeDelay s.fresh, { s with fresh := s.fresh + 1 })
/-- FREE VALUE: one of two outcomes the spec both permits. -/
def State.freeBool (s : State) : Bool × State :=
  (Config.freeChoice s.fresh, { s with fresh := s.fresh + 1 })
/-- FREE VALUE: a byte the spec leaves undefined. -/
def State.freeByte (s : State) : Byte × State :=
  (Config.freeByte s.fresh, { s with fresh := s.fresh + 1 })
/-- FREE VALUE: a word the spec leaves undefined. -/
def State.freeWord (s : State) : Word × State :=
  (BitVec.ofNat 64 (((List.range 8).map fun i => (Config.freeByte (s.fresh + i)).toNat * 256 ^ i).foldl (· + ·) 0),
   { s with fresh := s.fresh + 8 })
/-- A device step after a free number of cyc between two bounds. -/
def State.scheduleIn (s : State) (lo hi : Nat) (op : Instr) (arg : EvArg := {}) : State :=
  let (d, s) := s.freeCyc lo hi
  s.schedule d op arg
/-- A device step after at least `lo` cyc. -/
def State.scheduleFrom (s : State) (lo : Nat) (op : Instr) (arg : EvArg := {}) : State :=
  let (d, s) := s.freeFrom lo
  s.schedule d op arg
/-- A number for a thing in flight. -/
def State.takeUid (s : State) : Nat × State := (s.uid, { s with uid := s.uid + 1 })
/-- The pending device steps of one kind about one thing removed. -/
def State.cancel (s : State) (p : Event → Bool) : State := { s with agenda := s.agenda.filter fun e => !p e }

/-- The time-stamp counter: ticks of 1 ns, 1.9 cyc each (R5, R16). FREE VALUE: its phase. -/
def State.stamp (s : State) : Nat := (10 * s.cyc + Config.stampBase) / 19

/-! Local memory: one view a die (R255). -/

/-- The key of a local physical address. -/
def paKey (die pa : Nat) : Nat := die % 4 * 2 ^ 42 + pa % 2 ^ 42
/-- The home die of a key. -/
def keyDie (k : Nat) : Nat := k / 2 ^ 42 % 4
/-- R14: the local physical address exists. -/
def paExists (pa : Nat) : Bool := decide (pa < Config.dieBytes)
/-- Bytes of a die's view. -/
def State.readView (s : State) (d key n : Nat) : List Byte := Mem.readN (vat s.mem.views d) key n
def State.readLE (s : State) (d key n : Nat) : Nat := leNat (s.readView d key n)

/-- R162: a change of a map entry at its home invalidates every cached copy on the module; a copy overlaps the bytes written when one
of its 16 bytes is among them. -/
def TileSt.dropChanged (t : TileSt) (bs : List (Nat × Byte)) : TileSt :=
  { t with cache := t.cache.filter fun e => !(bs.any fun b => decide (e.key ≤ b.1 ∧ b.1 < e.key + 16)) }
def CoreSt.dropChanged (c : CoreSt) (bs : List (Nat × Byte)) : CoreSt := c.modTile fun t => t.dropChanged bs
def State.dropChanged (s : State) (bs : List (Nat × Byte)) : State :=
  { s with core := s.core.dropChanged bs, peers := s.peers.map fun c => c.dropChanged bs }

/-- R384: the poisoned lines that a write does not replace whole. -/
def MemSt.mended (m : MemSt) (bs : List (Nat × Byte)) : List Nat :=
  m.badLines.filter fun l => !(List.range 64).all fun i => bs.any fun p => p.1 == 64 * l + i

/-- R255, "emit": a write leaves its home die: the clock advances, the die's own view applies it, and the other
dies' views apply it later. -/
def State.emitWrite (s : State) (home : Nat) (bs : List (Nat × Byte)) (org : Option (Nat × Nat) := none) : State :=
  let home := home % 4
  let vc := vput (vat s.mem.vc home) home (vat (vat s.mem.vc home) home + 1)
  let (u, s) := s.takeUid
  let others := [0, 1, 2, 3].filter fun d => d != home
  let m := { s.mem with
    views := vput s.mem.views home (Mem.writeAll (vat s.mem.views home) bs),
    vc := vput s.mem.vc home vc,
    badLines := s.mem.mended bs,
    emitted := s.mem.emitted ++ [{ uid := u, src := home, vc := vc, bytes := bs, todo := others, org := org }] }
  others.foldl (fun s d => s.scheduleFrom 1 .dieViewApply { n0 := d, n1 := u }) ({ s with mem := m }.dropChanged bs)

/-- The part of a memory in `n` bytes from a key cleared. -/
def Mem.clear (m : Mem) (k n : Nat) : Mem := m.filter fun p => !decide (k ≤ p.1 ∧ p.1 < k + n)
/-- R255: the views of the dies once each has applied every write that has been emitted. -/
def State.settledViews (s : State) : Vector Mem 4 :=
  s.mem.emitted.foldl (fun v w => w.todo.foldl (fun (v : Vector Mem 4) d => vput v d (Mem.writeAll (vat v d) w.bytes)) v) s.mem.views
/-- R255: the clocks of the dies then, and after one more write of each home that a test picks. -/
def State.settledClocks (s : State) (home : Nat → Bool) : Vector (Vector Nat 4) 4 :=
  tab 4 fun _ => tab 4 fun k => vat (vat s.mem.vc k) k + (if home k then 1 else 0)
/-- R255: a write that every die applies as it is emitted, behind all that has been emitted before: the management core's, a trace record
(R396), a saved context (log 22). -/
def State.writeEverywhere (s : State) (bs : List (Nat × Byte)) : State :=
  { s with mem := { s.mem with
      views := tab 4 fun d => Mem.writeAll (vat s.settledViews d) bs,
      vc := s.settledClocks fun k => bs.any fun b => keyDie b.1 == k,
      emitted := [] } }.dropChanged bs
/-- Zeros that every die applies as they are emitted; cached map entries among them are gone (R162). -/
def State.clearEverywhere (s : State) (die pa n : Nat) : State :=
  let k := paKey die pa
  let drop (c : CoreSt) : CoreSt := c.modTile fun t => { t with cache := t.cache.filter fun e => !decide (k < e.key + 16 ∧ e.key < k + n) }
  { s with
    mem := { s.mem with
      views := tab 4 fun d => Mem.clear (vat s.settledViews d) k n
      vc := s.settledClocks fun d => d == die % 4
      emitted := [] }
    core := drop s.core, peers := s.peers.map drop }
/-- Bytes that are put into every die's view from outside the machine. -/
def State.putBytes (s : State) (bs : List (Nat × Byte)) : State :=
  { s with mem := { s.mem with views := tab 4 fun d => Mem.writeAll (vat s.mem.views d) bs } }.dropChanged bs

/-- Consecutive bytes as (key, byte) pairs. -/
def spanAt (key : Nat) (bs : List Byte) : List (Nat × Byte) :=
  ((List.range bs.length).zip bs).map fun p => (key + p.1, p.2)

/-! Translation (R212 to R219). -/

inductive Access where
  | read | write | fetch
deriving DecidableEq, Repr

/-- Fields of a page-table entry (R214, R215). -/
def pteNode (e : BitVec 64) : Nat := (e.toNat / 2 ^ 43) % 2 ^ 21
def pteDie (e : BitVec 64) : Nat := (e.toNat / 2 ^ 41) % 4
def ptePfn (e : BitVec 64) : Nat := (e.toNat / 2 ^ 14) % 2 ^ 27
def pteTid (e : BitVec 64) : Nat := (e.toNat / 2 ^ 54) % 2 ^ 10
def pteQ (e : BitVec 64) : Nat := (e.toNat / 2 ^ 43) % 2 ^ 11 + 2 ^ 11 * ((e.toNat / 2 ^ 8) % 2 ^ 6)
def pteV (e : BitVec 64) : Bool := e.getLsbD 0
def pteLeaf (e : BitVec 64) : Bool := e.getLsbD 1
def pteTm (e : BitVec 64) : Bool := e.getLsbD 2
def ptePw (e : BitVec 64) : Bool := e.getLsbD 3
def pteR (e : BitVec 64) : Bool := e.getLsbD 4
def pteW (e : BitVec 64) : Bool := e.getLsbD 5
def pteX (e : BitVec 64) : Bool := e.getLsbD 6
def pteCont (e : BitVec 64) : Bool := e.getLsbD 7
def pteRsvd (e : BitVec 64) : Bool := (e.toNat / 2 ^ 8) % 2 ^ 6 != 0

/-- An entry of a table node at local address `pfn` × 2^15 of a die, as a die sees it (R256), or as it stands at its home. -/
def State.nodeEntry (s : State) (die pfn ix : Nat) (view : Option Nat := none) : BitVec 64 :=
  BitVec.ofNat 64 (s.readLE (view.getD die) (paKey die (pfn * 2 ^ 15 + 8 * ix)) 8)

/-- R214: a table entry of level 1 or 2 that is malformed: a reserved field, or a node off the module. -/
def State.badTable (s : State) (e : BitVec 64) : Bool :=
  pteRsvd e || decide (pteNode e ≠ s.fab.node.toNat)

/-- R214: the 32 entries of a 1 MiB page agree, and entry 32q + i has PFN0 + i with PFN0 a multiple of 32. -/
def State.contOk (s : State) (die pfn ix3 : Nat) (view : Option Nat := none) : Bool :=
  let q := ix3 / 32 * 32
  let e0 := s.nodeEntry die pfn q view
  decide (ptePfn e0 % 32 = 0) && (List.range 32).all fun i =>
    let e := s.nodeEntry die pfn (q + i) view
    pteV e && pteLeaf e && pteCont e && !pteTm e && !pteRsvd e && decide (pteNode e = pteNode e0) && decide (pteDie e = pteDie e0)
      && decide (ptePfn e = ptePfn e0 + i) && decide (pteR e = pteR e0) && decide (pteW e = pteW e0)
      && decide (pteX e = pteX e0) && decide (ptePw e = ptePw e0)

/-- R212, R219: the walk from a root as a die sees the tables: a TLB entry of the leaf, or the detail 1 or 2 of its failure. -/
def State.walk (s : State) (asn rootDie rootPfn va : Nat) (view : Option Nat := none) : Except Nat TlbEntry :=
  let ix1 := va / 2 ^ 39 % 4096
  let ix2 := va / 2 ^ 27 % 4096
  let ix3 := va / 2 ^ 15 % 4096
  let e1 := s.nodeEntry rootDie rootPfn ix1 view
  if !pteV e1 then .error 1
  else if pteLeaf e1 || s.badTable e1 then .error 2
  else
    let e2 := s.nodeEntry (pteDie e1) (ptePfn e1) ix2 view
    if !pteV e2 then .error 1
    else if pteLeaf e2 then
      if pteRsvd e2 || pteCont e2 || pteTm e2 || decide (ptePfn e2 % 2 ^ 13 ≠ 0) then .error 2
      else .ok { asn := asn, va := va / 2 ^ 27 * 2 ^ 27, size := 2 ^ 27, pte := e2 }
    else if s.badTable e2 then .error 2
    else
      let e3 := s.nodeEntry (pteDie e2) (ptePfn e2) ix3 view
      if !pteV e3 then .error 1
      else if !pteLeaf e3 then .error 2
      else if pteTm e3 then
        if pteCont e3 || ptePw e3 then .error 2
        else .ok { asn := asn, va := va / 2 ^ 15 * 2 ^ 15, size := 2 ^ 15, pte := e3 }
      else if pteRsvd e3 then .error 2
      else if pteCont e3 then
        if s.contOk (pteDie e2) (ptePfn e2) ix3 view then
          .ok { asn := asn, va := va / 2 ^ 20 * 2 ^ 20, size := 2 ^ 20,
                pte := s.nodeEntry (pteDie e2) (ptePfn e2) (ix3 / 32 * 32) view }
        else .error 2
      else .ok { asn := asn, va := va / 2 ^ 15 * 2 ^ 15, size := 2 ^ 15, pte := e3 }

/-- R295: the frame window of a core in a context. FREE VALUE: the address the management core has chosen. -/
def frameWindow (ctx n : Nat) : Nat := Config.frameWindow (ctx * 2 ^ 10 + n) % 2 ^ 29 * 2 ^ 22
/-- R295: where the window of a core stands on its die. FREE VALUE: the place the management core has assigned. -/
def frameHome (n : Nat) : Nat := Config.frameHome n % (Config.dieBytes / 2 ^ 22) * 2 ^ 22
/-- R295: the management core maps the window of every core read-write into each context it loads, as 1 MiB pages (log 18). -/
def State.windowAt (s : State) (asn va : Nat) : Option TlbEntry :=
  match s.host.contexts.find? fun x => x.asn == asn with
  | none => none
  | some x =>
    match (List.range 1024).find? fun n => decide (frameWindow x.num n ≤ va ∧ va < frameWindow x.num n + 2 ^ 22) with
    | none => none
    | some n =>
      let page := va / 2 ^ 20 * 2 ^ 20
      let pfn := (frameHome n + (page - frameWindow x.num n)) / 2 ^ 15
      some { asn := asn, va := page, size := 2 ^ 20,
             pte := BitVec.ofNat 64 (s.fab.node.toNat * 2 ^ 43 + dieOf n * 2 ^ 41 + pfn * 2 ^ 14 + 0xB3) }
/-- The walk by a die, with what the management core maps where the tables map nothing. -/
def State.walkBy (s : State) (die asn rootDie rootPfn va : Nat) : Except Nat TlbEntry :=
  match s.walk asn rootDie rootPfn va (some die) with
  | .error 1 => (match s.windowAt asn va with | some e => .ok e | none => .error 1)
  | r => r

/-- R219: details 3 to 7, judged at a leaf; `p` is whether the access is of space P. -/
def leafFault (e : BitVec 64) (k : Access) (p : Bool) : Option Nat :=
  if k = Access.read ∧ !pteR e then some 3
  else if k = Access.write ∧ !pteW e then some 4
  else if k = Access.fetch ∧ (!pteX e ∨ ptePw e ∨ pteTm e) then some 5
  else if k = Access.fetch then none
  else if p ∧ !ptePw e then some 6
  else if !p ∧ ptePw e then some 7
  else none

/-- A location: module, home die, local physical address, and the page-table entry. -/
structure Place where
  node : Nat
  die : Nat
  pa : Nat
  pte : BitVec 64
deriving DecidableEq, Repr, Inhabited

/-- The place of an address within a translated page. -/
def State.placeOf (s : State) (e : TlbEntry) (va : Nat) : Place :=
  { node := if pteTm e.pte then s.fab.node.toNat else pteNode e.pte, die := pteDie e.pte,
    pa := ptePfn e.pte * 2 ^ 15 + (va - e.va), pte := e.pte }

/-- A TLB entry that holds an address of an address space (R216). -/
def tlbHit (asn va : Nat) (e : TlbEntry) : Bool := e.asn == asn && decide (e.va ≤ va ∧ va < e.va + e.size)

/-- R216, R217: translations of an address space that satisfy a test leave every TLB, and no walk in flight brings one of them back. -/
def State.dropTlb (s : State) (asn : Nat) (hit : TlbEntry → Bool) : State :=
  let keep (l : List TlbEntry) : List TlbEntry := l.filter fun e => !(e.asn == asn && hit e)
  let page (t : TaskSt) (p : Nat) : Bool := t.asn.toNat == asn && hit { asn := asn, va := 32768 * p, size := 32768, pte := 0 }
  let clean (c : CoreSt) : CoreSt := (c.modEng fun e => { e with walking := e.walking.filter fun p => !page c.task p }).modTask
    fun t => { t with tlb := keep t.tlb, walking := t.walking.filter fun p => !page t p }
  { s with core := clean s.core, peers := s.peers.map clean, mem := { s.mem with dieTlb := tab 4 fun d => keep (vat s.mem.dieTlb d) } }

/-- The L1 TLB, then the last-level TLB, then a walk, without their delays: for engines, the device's own reads and the
look at a transfer's target. -/
def State.lookup (s : State) (t : TaskSt) (die va : Nat) : Except Nat TlbEntry :=
  match t.tlb.find? (tlbHit t.asn.toNat va) with
  | some e => .ok e
  | none =>
    match (vat s.mem.dieTlb die).find? (tlbHit t.asn.toNat va) with
    | some e => .ok e
    | none => s.walkBy die t.asn.toNat t.rootDie.toNat t.rootPfn.toNat va

/-- R216: entries of an L1 TLB and of a last-level TLB; the oldest gives way (log 7). -/
def keepTlb (n : Nat) (e : TlbEntry) (l : List TlbEntry) : List TlbEntry := (e :: l.filter fun x => x ≠ e).take n

/-- R216, R218: the translation of an address that an engine, a tile command or a walker of a core has used stands in both TLBs, and a
miss of the L1 TLB counts; the wait for it is part of the command's free time (log 126). -/
def State.fillPage (s : State) (n va : Nat) : State :=
  let t := (s.coreAt n).task
  let d := dieOf n
  if decide (2 ^ 51 ≤ va) || t.tlb.any (tlbHit t.asn.toNat va) then s
  else match s.lookup t d va with
    | .error _ => s
    | .ok e =>
      let s := s.modCore n fun c => { c with
        task := { c.task with tlb := keepTlb 512 e c.task.tlb }
        dbg := { c.dbg with pmc := tab 8 fun i => if (vat c.dbg.pmsel i).toNat = 5 then vat c.dbg.pmc i + 1 else vat c.dbg.pmc i } }
      { s with mem := { s.mem with dieTlb := vput s.mem.dieTlb d (keepTlb 6144 e (vat s.mem.dieTlb d)) } }

/-- A translation with the permission checks of R219. -/
def State.translate (s : State) (t : TaskSt) (die va : Nat) (k : Access) (p : Bool := false) : Except Nat Place :=
  if 2 ^ 51 ≤ va then .error 1
  else match s.lookup t die va with
    | .error d => .error d
    | .ok e => match leafFault e.pte k p with
      | some d => .error d
      | none => .ok (s.placeOf e va)

/-- The address space of a thread, and a thread of an address space. -/
def TaskSt.space (t : TaskSt) : Space :=
  { ctx := t.ctx, asn := t.asn, rootDie := t.rootDie, rootPfn := t.rootPfn, profile := t.profile }
def Space.task (x : Space) : TaskSt :=
  { ctx := x.ctx, asn := x.asn, rootDie := x.rootDie, rootPfn := x.rootPfn, profile := x.profile }

/-! Fetch lines (R55 to R60). -/

/-- The line number, bits 6:5 and slot of a PC (R55). -/
def pcLine (pc : PC) : BitVec 44 := pc.extractLsb' 7 44
def pcSlot (pc : PC) : Nat := pc.toNat % 32
def pcMid (pc : PC) : Nat := pc.toNat / 32 % 4
/-- The PC of a slot of a line. -/
def pcAt (line : BitVec 44) (slot : Nat) : PC := (line.setWidth 51 <<< 7) ||| BitVec.ofNat 51 slot

/-- R56: a line from its 128 bytes. -/
def lineOf (num : BitVec 44) (bs : List Byte) : Line :=
  { num := num, header := BitVec.ofNat 64 (leNat (bs.take 8)),
    slots := (List.range 24).map fun i => BitVec.ofNat 40 (leNat ((bs.drop (8 + 5 * i)).take 5)) }

def Line.slot (l : Line) (i : Nat) : BitVec 40 := l.slots.getD i 0
def Line.start (l : Line) (i : Nat) : Bool := decide (i < 24) && l.header.getLsbD i
def Line.tgt (l : Line) (i : Nat) : Bool := decide (i < 24) && l.header.getLsbD (24 + i)
def Line.ver (l : Line) : Nat := l.header.toNat / 2 ^ 52 % 16

/-- The XOR of the bits of a slot. -/
def slotParity (w : BitVec 40) : Bool := (List.range 40).foldl (fun p i => p != w.getLsbD i) false

/-- R56: PAR agrees with the slots. -/
def Line.parOk (l : Line) : Bool :=
  (List.range 4).all fun j =>
    (List.range 6).foldl (fun p k => p != slotParity (l.slot (6 * j + k))) false == l.header.getLsbD (48 + j)

/-- R58: the scan over the slots from `i`; `n` bounds the slots left. -/
def Line.scan (l : Line) : Nat → Nat → Option Nat
  | 0, _ => none
  | n + 1, i =>
    if 24 ≤ i then none
    else if !l.start i then
      ((List.range (24 - i)).findSome? fun k =>
        let q := i + k
        if l.start q then some 7 else if l.slot q ≠ 0 then some 8 else none)
    else if 0xE0 ≤ (l.slot i).toNat % 256 then Line.scan l n (i + 1)
    else if i = 23 then some 6
    else if l.start (i + 1) then some 5
    else Line.scan l n (i + 2)

/-- R58: the detail of the first check that fails, or none for a well-formed line. -/
def Line.fault (l : Line) : Option Nat :=
  if l.header.toNat / 2 ^ 56 ≠ 0 then some 1
  else if l.ver ≠ 1 then some 2
  else if !l.parOk then some 3
  else if !l.start 0 then some 4
  else match l.scan 25 0 with
    | some d => some d
    | none => if (List.range 24).any fun q => l.tgt q && !l.start q then some 9 else none

/-- R60: the PC of the next instruction in sequential flow. -/
def Line.nextPc (l : Line) (pc : PC) : PC :=
  match (List.range (23 - pcSlot pc)).findSome? fun k =>
      if l.start (pcSlot pc + 1 + k) then some (pcSlot pc + 1 + k) else none with
  | some i => pcAt (pcLine pc) i
  | none => pcAt (pcLine pc + 1) 0

/-- What entering a line finds: its bytes, a failed translation, or a page of another module whose bytes have not come. -/
inductive LineRead where
  | line (l : Line)
  | pageFault (detail : Nat)
  | remote (p : Place)
  | absent (die pa : Nat)
deriving DecidableEq, Repr

/-- The bytes of a line of another module, once they have come (log 108). -/
def SeqSt.farBytes (q : SeqSt) (num : BitVec 44) : Option (List Byte) :=
  match q.far with
  | some f => if f.num = num then f.got else none
  | none => none

/-- The line that holds a PC, as the core's die sees memory now. -/
def State.readLine (s : State) (c : CoreSt) (pc : PC) : LineRead :=
  let va := (pcLine pc).toNat * 128
  match s.translate c.task (dieOf c.num) va .fetch with
  | .error d => .pageFault d
  | .ok p =>
    if p.node ≠ s.fab.node.toNat then
      (match c.q.farBytes (pcLine pc) with
      | some bs => .line (lineOf (pcLine pc) bs)
      | none => .remote p)
    else if !paExists p.pa then .absent p.die p.pa
    else .line (lineOf (pcLine pc) (s.readView (dieOf c.num) (paKey p.die p.pa) 128))

/-- R61: whether a transfer's target is refused; a trap return and a resumption require a START mark only. A line that is
malformed or does not translate lets the transfer retire, and R59 applies at the target. -/
def State.badTarget (s : State) (c : CoreSt) (pc : PC) (startOnly : Bool) : Bool :=
  match s.readLine c pc with
  | .line l =>
    l.fault.isNone && (decide (pcMid pc ≠ 0 ∨ 24 ≤ pcSlot pc) || !l.start (pcSlot pc) || (!startOnly && !l.tgt (pcSlot pc)))
  | _ => false

/-- The place of the line of a PC on another module, while its bytes have not come: what goes there waits (log 108). -/
def State.lineAway (s : State) (c : CoreSt) (pc : PC) : Option Place :=
  match s.readLine c pc with
  | .remote p => some p
  | _ => none

/-! Counters of events (R402). -/

/-- R402: `n` events of kind `e` counted by the counters that select it. -/
def DebugSt.count (d : DebugSt) (e n : Nat) : DebugSt :=
  { d with pmc := tab 8 fun i => if (vat d.pmsel i).toNat = e then vat d.pmc i + BitVec.ofNat 64 n else vat d.pmc i }
/-- R122, R402: events counted by the counters that `d0` selected. -/
def DebugSt.countAs (d d0 : DebugSt) (e n : Nat) : DebugSt :=
  { d with pmc := tab 8 fun i => if (vat d0.pmsel i).toNat = e then vat d.pmc i + BitVec.ofNat 64 n else vat d.pmc i }
def CoreSt.count (c : CoreSt) (e : Nat) (n : Nat := 1) : CoreSt := { c with dbg := c.dbg.count e n }

/-! The trace ring (R395 to R397). -/

/-- Whether a PC lies within an active loop's body. -/
def LoopSt.holds (l : LoopSt) (pc : PC) : Bool := l.act && decide (l.start.toNat ≤ pc.toNat ∧ pc.toNat ≤ l.stop.toNat)

/-- The innermost active loop whose body holds a PC: the one started last. -/
def SeqSt.innermost (q : SeqSt) (pc : PC) : Option Nat :=
  (List.range 8).foldl (fun best i =>
    let l := vat q.loops i
    if l.holds pc then
      match best with
      | some j => if (vat q.loops j).order ≤ l.order then some i else some j
      | none => some i
    else best) none

/-- R396: bytes 0 to 7 of a record. -/
def traceHead (c : CoreSt) (ty slot : Nat) : Nat :=
  let q := c.q
  let lp := q.innermost q.pc
  let stage := match lp with
    | some i =>
      let l := vat q.loops i
      let p := q.ir.pred.toNat
      if l.mb.toNat ≠ 0 ∧ l.mb.toNat ≤ p ∧ p ≤ l.mb.toNat + l.stg.toNat then p - l.mb.toNat else 0
    | none => 0
  let iter := match lp with | some i => (vat q.loops i).iter.toNat | none => 0
  iter + slot * 2 ^ 37 + c.num % 1024 * 2 ^ 39 + stage * 2 ^ 49 + lp.getD 15 * 2 ^ 52 + ty * 2 ^ 56

/-- R395 to R397: a record of a type, if its class is enabled and the ring is on: written to every die's view before TRHEAD
counts it; discarded and counted when the ring is full under STOPFULL, or its address does not translate to this module (log 12). TRREAD
is the word below the ring, at the top of the address space for a ring at 0; on another module it is a FREE VALUE (log 12). -/
def State.trace (s : State) (n ty : Nat) (payload : List Byte) (slot : Nat := 0) : State :=
  let c := s.coreAt n
  let d := c.dbg
  if !d.cls.getLsbD ty || decide (d.log2n = 0) then s
  else
    let size := 2 ^ d.log2n.toNat
    let drop (s : State) : State := s.modCore n fun c => c.modDbg fun d =>
      { d with trdrop := if d.trdrop = BitVec.allOnes 64 then d.trdrop else d.trdrop + 1 }
    let (far, s') := s.freeWord
    let at' := s.translate c.task (dieOf n) ((d.trbase.toNat + 2 ^ 51 - 8) % 2 ^ 51) .read
    let remote := match at' with | .ok p => p.node != s.fab.node.toNat | .error _ => false
    let full := d.stopfull && (match at' with
      | .ok p =>
        let read := if remote then far else BitVec.ofNat 64 (s.readLE (dieOf n) (paKey p.die p.pa) 8)
        decide (size ≤ (d.trhead - read).toNat)
      | .error _ => false)
    let s := if d.stopfull && remote then s' else s
    let drop := drop s
    if full then drop
    else
      let va := d.trbase.toNat + 32 * (d.trhead.toNat % size)
      match s.translate c.task (dieOf n) va .write with
      | .error _ => drop
      | .ok p =>
        if p.node ≠ s.fab.node.toNat ∨ !paExists p.pa then drop else
        let bs := leBytes 8 (traceHead c ty slot) ++ leBytes 8 s.stamp ++ payload
        (s.writeEverywhere (spanAt (paKey p.die p.pa) bs)).modCore n fun c =>
          c.modDbg fun d => { d with trhead := d.trhead + 1 }

/-! Traps (R317 to R320). -/

/-- What a trap reports: cause and detail (R319), TAUX.0 to 2 (R320), the PC, ASYNC and TSTALL (R325). -/
structure TrapInfo where
  cause : Nat
  detail : Nat := 0
  a0 : Word := 0
  a1 : Word := 0
  a2 : Word := 0
  async : Bool := false
  stall : List Word := []
deriving DecidableEq, Repr, Inhabited

def ILLEGAL : Nat := 0x01
def FETCH_FORMAT : Nat := 0x02
def BAD_TARGET : Nat := 0x03
def EMPTY_READ : Nat := 0x04
def LOOP_STATE : Nat := 0x05
def BUFFER_ACCESS : Nat := 0x06
def ADDR_RANGE : Nat := 0x07
def MISALIGNED : Nat := 0x08
def PAGE_FAULT : Nat := 0x09
def SPAD_EARLY : Nat := 0x0A
def GATHER_BOUND : Nat := 0x0B
def TILE_UNCONF : Nat := 0x0C
def TILE_FORMAT : Nat := 0x0D
def TILE_BOUND : Nat := 0x0E
def TILE_HANDLE : Nat := 0x0F
def REMOTE_ATOMIC : Nat := 0x10
def PROGRESS_LOC : Nat := 0x11
def FRONTIER_REGRESSION : Nat := 0x12
def PROGRESS_FULL : Nat := 0x13
def JOIN_UNDERFLOW : Nat := 0x14
def STALL : Nat := 0x15
def SWTRAP : Nat := 0x16
def BREAK : Nat := 0x17

/-- TCAUSE of R318. -/
def tcauseWord (t : TrapInfo) : Word :=
  BitVec.ofNat 64 (t.cause + t.detail % 65536 * 256 + (if t.async then 2 ^ 32 else 0))

/-- R69: every fixed-latency write of an older instruction lands. -/
def SeqSt.landAll (q : SeqSt) : SeqSt :=
  { (q.lat.foldl (fun q w => q.put w.reg w.val) q) with lat := [] }

/-- R317: the trap record. -/
def CoreSt.record (c : CoreSt) (t : TrapInfo) (pc : PC) (stamp : Nat) : CoreSt :=
  c.modTrap fun r => { r with
    tpc := pc, tcause := tcauseWord t,
    taux := ⟨#[t.a0, t.a1, t.a2, BitVec.ofNat 64 stamp], rfl⟩,
    tstall := tab 8 fun i => t.stall.getD i 0 }

/-- R317: a trap is taken at `pc`: the trap record is written; without a handler, or inside one, the task is killed with
code 1 or 2 (R332); else the thread enters its handler 3 cyc later. R64: every hold is satisfied after it. -/
def State.takeTrap (s : State) (t : TrapInfo) (pc : PC) : State :=
  let c := { s.core with
    q := { s.core.q.landAll with hist := [], holdFrom := none, verdict := none }, task := { s.core.task with walkFault := [] } }
  let c := c.record t pc s.stamp
  let s := { s with core := c, pe := { s.pe with 
    verdicts := s.pe.verdicts.filter fun m => m.core != c.num,
    colls := s.pe.colls.filter fun k => !(k.core == c.num && k.stage == 4) } }
  if c.trap.thm then
    ({ s with core := { s.core with status := .stopped } }).schedule 0 .taskKill { n0 := c.num, n1 := 2 }
  else if c.trap.tvec = 0 then
    ({ s with core := { s.core with status := .stopped } }).schedule 0 .taskKill { n0 := c.num, n1 := 1 }
  else
    let c := c.modTrap fun r => { r with thm := true }
    { s with core := { c with q := { c.q with pc := c.trap.tvec, entering := true, nextIssue := s.cyc + 3 } } }

/-- R321, R116: the return from a trap: THM is cleared and the thread goes to `pc`; R64: every hold is satisfied. -/
def State.returnFromTrap (s : State) (pc : PC) : State :=
  let c := s.core.modTrap fun r => { r with thm := false }
  { s with core := { c with q := { c.q with pc := pc, entering := true, nextIssue := s.cyc + 3, hist := [], holdFrom := none } } }

end Sys2Proof.Machine
end

