-- ==== Sys2Proof/Machine/Flags.lean ====
section
/-! DEFINITION. Conditions and the events instructions count (R39, R87, R107). -/

namespace Sys2Proof.Machine

open Sys2Proof

/-- A scalar operand as R100 reads it: an exact integer, or the value of a float pattern. -/
inductive SVal where
  | int (i : Int)
  | flt (v : FVal)
deriving DecidableEq, Repr, Inhabited

/-- R87, R107: the condition of MOD on ordered operands. -/
def condOrd (md : BitVec 4) (o : Ordering) : Bool :=
  match md.toNat with
  | 0 => o == .eq
  | 1 => o != .eq
  | 2 => o == .lt
  | 3 => o != .gt
  | 4 => o == .gt
  | 5 => o != .lt
  | 6 => false
  | _ => true

/-- R107: the condition of MOD; with a NaN operand NE and UN are true and the others false. -/
def condFlt (md : BitVec 4) (a b : FVal) : Bool :=
  if Sem.isNaN a || Sem.isNaN b then decide (md = 1) || decide (md = 6)
  else condOrd md (Sem.cmp a b)

/-- R87, R107: the condition of MOD on two scalar operands. -/
def condHolds (md : BitVec 4) (a b : SVal) : Bool :=
  match a, b with
  | .int i, .int j => condOrd md (compare i j)
  | .flt v, .flt w => condFlt md v w
  | _, _ => false

/-- R87: conditions accepted: with UN and ORD for float types only. -/
def condOk (md : BitVec 4) (flt : Bool) : Bool := decide (md.toNat ≤ 5) || (flt && decide (md.toNat ≤ 7))

/-- R39: events charged to the thread's default counters. -/
def CoreSt.charge (c : CoreSt) (st : Stats) : CoreSt := c.modCnt fun k => { k with stats := k.stats.add st }

/-- R389, R390: a command is of an earlier phase than the one that is open: a rollback keeps what it counts. -/
def CoreSt.ofEarlierPhase (c : CoreSt) (k : Cmd) : Bool := k.q == 2 && k.phase != c.ph.phase.toNat
/-- R39, R41: events of a command charged to the default counters, and kept by a rollback where it is of an earlier phase. -/
def CoreSt.chargeFor (c : CoreSt) (k : Cmd) (st : Stats) : CoreSt :=
  let c := c.charge st
  if c.ofEarlierPhase k then
    c.modPh fun p => { p with snap := p.snap.map fun x => { x with counts := { x.counts with stats := x.counts.stats.add st } } }
  else c

/-- The LFSR of a core with an empty count, for a sequence of roundings (R25, R26). -/
def CoreSt.draw (c : CoreSt) : Draw := { lfsr := c.q.lfsr }

/-- The LFSR after a sequence of roundings, and its events charged to the default counters (R26, R39). -/
def CoreSt.drawn (c : CoreSt) (d : Draw) : CoreSt := (c.modQ fun q => { q with lfsr := d.lfsr }).charge d.st

end Sys2Proof.Machine
end

