-- ==== Sys2Proof/Machine/Operands.lean ====
section
/-! DEFINITION. Operand forms: how a field names a register or an immediate, the checks of R99, the predicate, and the
reading and fitting of scalar and vector operands (R46, R66, R84, R89, R100, R125). -/

namespace Sys2Proof.Machine

open Sys2Proof

/-- The use an instruction makes of an operand field; a pair is an even S register and the next one (R286). -/
inductive Opd where
  | unused | s | v | m | t | imm | pair
deriving DecidableEq, Repr, Inhabited

/-- R66: what EMP must be: 0, 1 for a long-latency producer of a register other than S0, 1 with such a register only (R197),
or unchecked (R112). -/
inductive EmpRule where
  | zero | long | must | any
deriving DecidableEq, Repr, Inhabited

/-- What an instruction accepts, given its fields: the operand uses, and whether TYPE, MOD, IMM24 with the rest, token bits
and FOL pass (details 2, 3, 4, 9, 10 of R99). -/
structure Shape where
  dst : Opd := .unused
  sa : Opd := .unused
  sb : Opd := .unused
  sc : Opd := .unused
  tyOk : Bool := true
  mdOk : Bool := true
  immOk : Bool := true
  emp : EmpRule := .zero
  pred : Bool := true
  tokOk : Bool := true
  folOk : Bool := true
deriving DecidableEq, Repr, Inhabited

/-- R46: an unused field is zero with wait mode 00; a field of immediate bits has wait mode 00 (R89). -/
def Opd.unusedOk (o : Opd) (x : BitVec 6) (w : BitVec 2) : Bool :=
  match o with
  | .unused => decide (x = 0) && decide (w = 0)
  | .imm => decide (w = 0)
  | _ => true
/-- R46: the register number lies within its file. -/
def Opd.rangeOk (o : Opd) (x : BitVec 6) : Bool :=
  match o with
  | .v => decide (x.toNat ≤ 31)
  | .m => decide (x.toNat ≤ 7)
  | .t => decide (x.toNat ≤ 15)
  | .pair => decide (x.toNat % 2 = 0 ∧ x.toNat < 63)
  | _ => true
/-- R48, R67: no wait mode 11, and none on an M or T operand. -/
def Opd.waitOk (o : Opd) (w : BitVec 2) : Bool :=
  match o with
  | .m => decide (w = 0)
  | .t => decide (w = 0)
  | _ => decide (w ≠ 3)

/-- R66: EMP as the rule of the instruction asks. -/
def EmpRule.ok (r : EmpRule) (dst : Opd) (f : Fields) : Bool :=
  match r with
  | .zero => decide (f.emp = 0)
  | .any => true
  | .must => decide (f.emp = 1) && decide (f.dst ≠ 0)
  | .long =>
    match dst with
    | .s => decide ((f.emp = 1) = (f.dst ≠ 0))
    | .v => decide (f.emp = 1)
    | _ => decide (f.emp = 0)

/-- R99: the lowest failing detail of ILLEGAL for an assigned opcode. -/
def illegalDetail (sh : Shape) (f : Fields) : Option Nat :=
  if !sh.tyOk then some 2
  else if !sh.mdOk then some 3
  else if !(sh.immOk && sh.dst.unusedOk f.dst 0 && sh.sa.unusedOk f.sa f.wa && sh.sb.unusedOk f.sb f.wb
      && sh.sc.unusedOk f.sc f.wc) then some 4
  else if !(sh.dst.rangeOk f.dst && sh.sa.rangeOk f.sa && sh.sb.rangeOk f.sb && sh.sc.rangeOk f.sc) then some 5
  else if !(sh.sa.waitOk f.wa && sh.sb.waitOk f.wb && sh.sc.waitOk f.wc) then some 6
  else if !sh.emp.ok sh.dst f then some 7
  else if (!sh.pred && (decide (f.pred ≠ 0) || decide (f.pneg ≠ 0))) || (decide (f.pred = 0) && decide (f.pneg = 1)) then some 8
  else if !sh.tokOk then some 9
  else if !sh.folOk then some 10
  else none

/-- The register a destination or source field names. -/
def Opd.reg (o : Opd) (x : BitVec 6) : Option RegRef :=
  match o with
  | .s => some (.s x)
  | .v => some (.v (x.setWidth 5))
  | .m => some (.m (x.setWidth 3))
  | _ => none

/-- Whether the register of a field is full; a field without a full/empty bit is. -/
def Opd.full (o : Opd) (q : SeqSt) (x : BitVec 6) : Bool :=
  match o with
  | .s => q.fullS x.toNat
  | .v => q.fullV x.toNat
  | .pair => q.fullS x.toNat && q.fullS (x.toNat + 1)
  | _ => true

/-- R64: the hold of PD on the instruction issued PD instructions earlier. -/
def pdHeld (q : SeqSt) (f : Fields) (cyc : Nat) : Bool :=
  if f.pd = 0 then false
  else match q.hist[f.pd.toNat - 1]? with
    | some (some c) => decide (cyc < c)
    | _ => false

/-- R67: the first source of wait mode 10 that is empty: 1 SA, 2 SB, 3 SC. -/
def emptyRead (sh : Shape) (q : SeqSt) (f : Fields) : Option Nat :=
  if f.wa = 2 ∧ !sh.sa.full q f.sa then some 1
  else if f.wb = 2 ∧ !sh.sb.full q f.sb then some 2
  else if f.wc = 2 ∧ !sh.sc.full q f.sc then some 3
  else none

/-- R67: a source of wait mode 01 is empty. -/
def waitHeld (sh : Shape) (q : SeqSt) (f : Fields) : Bool :=
  (decide (f.wa = 1) && !sh.sa.full q f.sa) || (decide (f.wb = 1) && !sh.sb.full q f.sb)
    || (decide (f.wc = 1) && !sh.sc.full q f.sc)

/-- R65: a pending fixed-latency write to the same register would land no earlier. -/
def landHeld (sh : Shape) (lat : Option Nat) (q : SeqSt) (f : Fields) (cyc : Nat) : Bool :=
  match lat, sh.dst.reg f.dst with
  | some l, some r => q.lat.any fun w => decide (w.reg = r) && decide (cyc + l ≤ w.due)
  | _, _ => false

/-- R66: the register the instruction would write is empty. -/
def emptyHeld (sh : Shape) (q : SeqSt) (f : Fields) : Bool := !sh.dst.full q f.dst

/-- R84: the predicate mask: Mn XOR PNEG. -/
def enMask (q : SeqSt) (f : Fields) : BitVec 64 :=
  let m := q.getM f.pred.toNat
  if f.pneg = 1 then ~~~ m else m
/-- R84: whether an instruction that is no lane instruction takes effect. -/
def predOn (q : SeqSt) (f : Fields) : Bool := (enMask q f).getLsbD 0

/-- The sign-extended IMM24. -/
def immS (f : Fields) : Int := f.imm.toInt
/-- Bits of IMM24 from `lo`, `n` of them. -/
def immBits (f : Fields) (lo n : Nat) : Nat := f.imm.toNat / 2 ^ lo % 2 ^ n

/-! Scalar operands (R100, R101). -/

/-- TYPE 0x0, I8 to I64, N8 to N64. -/
def intTy (t : BitVec 4) : Bool := decide (t = 0) || decide (8 ≤ t.toNat)
/-- F32, F16, BF16. -/
def fltTy (t : BitVec 4) : Bool := decide (1 ≤ t.toNat ∧ t.toNat ≤ 3)
/-- The format of a scalar TYPE: 0x0 is I64 (R100). -/
def scalarFmt (t : BitVec 4) : Fmt := if t = 0 then .int 64 else (tyA t).getD (.int 64)

/-- R100: ReadOp. -/
def readOp (t : BitVec 4) (x : Word) : SVal :=
  let m := scalarFmt t
  if m.isFloat then .flt (decodeFloat m (x.toNat % 2 ^ m.width)) else .int (intVal m x.toNat)
/-- ReadOp for an integer TYPE. -/
def readInt (t : BitVec 4) (x : Word) : Int := intVal (scalarFmt t) x.toNat

/-- R100: a pattern of w bits as the 64 bits of an S register. -/
def extendTo64 (m : Fmt) (x : Nat) : Word :=
  match m with
  | .int n => (BitVec.ofNat n x).signExtend 64
  | _ => BitVec.ofNat 64 (x % 2 ^ m.width)

/-- R100: Fit, with whether it saturated. -/
def fit (t : BitVec 4) (sat : Bool) (v : Int) : Word × Bool :=
  let m := scalarFmt t
  let (x, d) := fitInt m sat v { lfsr := 0 }
  (extendTo64 m x, decide (d.st.sat ≠ 0))

/-- R110: the bytes of an access of a scalar TYPE. -/
def accessBytes (t : BitVec 4) : Nat := (scalarFmt t).width / 8

end Sys2Proof.Machine
end

