-- ==== Sys2Proof/Machine/Fabric.lean ====
section
/-! DEFINITION. Links, routing and flows of the fabric (23): what this module sends, and the link and flow layers of what it
receives. What a received packet does is in FabricRx.lean. -/

namespace Sys2Proof.Machine

open Sys2Proof Decode

/-- Nanoseconds as cyc of the arithmetic clock (R5). -/
def nsCyc (n : Nat) : Nat := n * 19 / 10

/-! CRC-32C (R368): polynomial 0x1EDC6F41, reflected, initial value and final XOR all ones. -/

/-- One byte into a reflected CRC of polynomial `poly`; `n` counts bits. -/
def crcBits (poly : Nat) : Nat → Nat → Nat
  | 0, c => c
  | n + 1, c => crcBits poly n (if c % 2 = 1 then Nat.xor (c / 2) poly else c / 2)
/-- The reflected CRC of bytes. -/
def crcReflected (poly : Nat) (bs : List Byte) : Nat :=
  Nat.xor 0xFFFFFFFF (bs.foldl (fun c b => crcBits poly 8 (Nat.xor c b.toNat)) 0xFFFFFFFF)
/-- CRC-32C. -/
def crc32c (bs : List Byte) : Nat := crcReflected 0x82F63B78 bs

/-! Packets (R368, R369). -/

def kWRITE : BitVec 4 := 1
def kREAD : BitVec 4 := 2
def kRESP : BitVec 4 := 3
def kRED : BitVec 4 := 4
def kPBATCH : BitVec 4 := 5
def kCOLLD : BitVec 4 := 6
def kFOPEN : BitVec 4 := 7
def kFCLOSE : BitVec 4 := 8
def kFACK : BitVec 4 := 9
def kLCTL : BitVec 4 := 15

/-- The header flit with CRC zero (R368). -/
def packetHeader (p : Packet) : BitVec 256 :=
  (0 : BitVec 32) ++ p.kind ++ p.nbytes ++ p.lseq ++ p.fseq ++ p.flow ++ p.snode ++ p.sdie ++ p.dnode ++ p.ddie ++ p.pa
    ++ (if p.ord then 1#1 else 0#1) ++ p.hops ++ p.aux

/-- The payload flits: the bytes padded with zeros to whole flits (R368). -/
def payloadFlits (p : Packet) : List Byte :=
  p.payload ++ List.replicate ((32 - p.payload.length % 32) % 32) 0

/-- The CRC of a packet (R368). -/
def packetCrc (p : Packet) : BitVec 32 :=
  BitVec.ofNat 32 (crc32c (leBytes 32 (packetHeader p).toNat ++ payloadFlits p))
def sealPacket (p : Packet) : Packet := { p with crc := packetCrc p }
/-- A packet carries its own CRC, a kind of R369, and as many bytes as NBYTES says. -/
def packetOk (p : Packet) : Bool :=
  decide (p.crc = packetCrc p) && (decide (1 ≤ p.kind.toNat ∧ p.kind.toNat ≤ 9) || decide (p.kind = kLCTL))
    && decide (p.payload.length = if p.kind = kREAD then 0 else p.nbytes.toNat)

/-! Links (R367, R370 to R372). -/

def State.modLink (s : State) (i : Nat) (f : Link → Link) : State :=
  { s with fab := { s.fab with links := vput s.fab.links i (f (vat s.fab.links i)) } }

/-- R367, R372: the link carries packets. -/
def Link.usable (l : Link) : Bool := l.up && l.enable

/-- R381: a saturating counter of a field whose width the spec does not give (log 19). -/
def bumpField (n : Nat) : Nat := if n < Config.counterTop then n + 1 else n

/-- R370: packets leave in order while fewer than 512 are unacknowledged; `n` bounds the packets looked at. -/
def linkPump : Nat → Link → Link
  | 0, l => l
  | n + 1, l =>
    match l.txq with
    | [] => l
    | p :: ps =>
      if l.retraining || !l.usable || decide (512 ≤ l.replay.length) then l
      else
        let p := sealPacket { p with lseq := l.txNext }
        linkPump n { l with txq := ps, txNext := l.txNext + 1, replay := l.replay ++ [p], wire := l.wire ++ [p] }

/-- A link control flit (R369), one flit, not sequenced. -/
def lctl (op n : Nat) : Packet := sealPacket { kind := kLCTL, aux := BitVec.ofNat 48 (op + n * 2 ^ 16) }

/-- R370: LTIMEOUT is watched while packets are unacknowledged. -/
def State.linkSend (s : State) (i : Nat) (p : Packet) : State :=
  let l := vat s.fab.links i
  let l' := linkPump (l.txq.length + 1) { l with txq := l.txq ++ [p] }
  let s := s.modLink i fun _ => l'
  if l.replay.isEmpty && !l'.replay.isEmpty then
    (s.modLink i fun l => { l with since := s.cyc }).schedule (nsCyc s.fab.ltimeout) .ltimeout { n0 := i }
  else s

/-- R370: an ACK at least once every 256 flit times, while the link is up. -/
def State.ackSoon (s : State) (i : Nat) : State :=
  let l := vat s.fab.links i
  if l.ackDue then s else (s.modLink i fun l => { l with ackDue := true }).scheduleIn 1 (if l.half.isSome then 69 else 34) .linkAckTimer { n0 := i }

/-- A control flit on the wire of a link. -/
def State.linkControl (s : State) (i : Nat) (op n : Nat) : State :=
  s.modLink i fun l => if l.usable then { l with wire := l.wire ++ [lctl op n] } else l

/-- R370: an ACK or NAK naming n releases the packets up to n. -/
def releaseTo (n : BitVec 16) (l : Link) : Link :=
  if l.replay.any fun p => p.lseq == n then
    { l with replay := (l.replay.dropWhile fun p => p.lseq != n).drop 1 }
  else l

/-! Routing (R373). -/

/-- R373: the primary link of a destination node, or the alternate when the primary is down; none when neither is up. -/
def State.route (s : State) (node : Nat) : Option Nat :=
  let own := s.fab.node.toNat
  let e := if node / 256 = own / 256 then s.fab.memberTab.find? fun t => t.1 == node % 256
           else s.fab.groupTab.find? fun t => t.1 == node / 256
  match e with
  | none => none
  | some (_, a, b) =>
    if (vat s.fab.links a).usable then some a
    else if (vat s.fab.links b).usable then some b
    else none

/-- A packet goes on the link R373 gives; with no link up it is not sent. -/
def State.sendPacket (s : State) (p : Packet) : State :=
  match s.route p.dnode.toNat with
  | some i => s.linkSend i p
  | none => s

/-! Flow sources (R374 to R377). -/

def State.modSrc (s : State) (slot : Nat) (f : FlowSrc → FlowSrc) : State :=
  { s with fab := { s.fab with srcs := s.fab.srcs.map fun x => if x.slot = slot then f x else x } }
def State.srcAt (s : State) (slot : Nat) : Option FlowSrc := s.fab.srcs.find? fun x => x.slot == slot

/-- FLOW of R368: slot and incarnation. -/
def flowField (x : FlowSrc) : BitVec 16 := BitVec.ofNat 16 (x.slot * 16 + x.inc % 16)

/-- R375, R376: packets of an open flow leave while fewer than 16 are unacknowledged; `n` bounds them. -/
def State.flowPump : Nat → State → Nat → State
  | 0, s, _ => s
  | n + 1, s, slot =>
    match s.srcAt slot with
    | none => s
    | some x =>
      match x.queue with
      | [] => s
      | it :: rest =>
        if !x.opened || decide (16 ≤ x.unacked.length) then s
        else
          let p := { it.p with fseq := x.nextSeq, flow := flowField x }
          let fresh := x.unacked.isEmpty
          let s := s.modSrc slot fun x =>
            { x with queue := rest, unacked := x.unacked ++ [{ it with p := p }], nextSeq := x.nextSeq + 1,
                     since := if fresh then s.cyc else x.since }
          let s := s.sendPacket p
          let s := if fresh then s.schedule (nsCyc s.fab.ftimeout) .ftimeout { n0 := slot } else s
          State.flowPump n s slot

/-- R375: the lowest free slot and its next incarnation. -/
def State.freeSlot (s : State) : Option (Nat × Nat) :=
  match (List.range 4096).find? fun i => !s.fab.srcs.any fun x => x.slot == i with
  | none => none
  | some i => some (i, (((s.fab.incs.find? fun p => p.1 == i).map (·.2)).getD 0 + 1) % 16)

/-- A packet of this module toward a node and die. -/
def State.packetTo (s : State) (kind : BitVec 4) (sdie node die : Nat) (ord : Bool) : Packet :=
  { kind := kind, snode := s.fab.node, sdie := BitVec.ofNat 2 sdie, dnode := BitVec.ofNat 21 node,
    ddie := BitVec.ofNat 2 die, ord := ord }

/-- R377: the timer of a flow; one whose destination no link leads to fails at once. -/
def State.flowTimer (s : State) (slot node : Nat) : State :=
  s.schedule (if (s.route node).isNone then 0 else nsCyc s.fab.ftimeout) .ftimeout { n0 := slot }

/-- R374, R375: items wait on the flow of a context to a node with an ordering; the first access opens it. Without a free
slot nothing is sent and the answer is none: the access waits. -/
def State.flowSend (s : State) (ctx sdie node : Nat) (ord : Bool) (items : List FlowItem) : Option State :=
  match s.fab.srcs.find? fun x => x.ctx == ctx && x.node == node && x.ord == ord with
  | some x =>
    let s := s.modSrc x.slot fun x => { x with queue := x.queue ++ items }
    let s := s.flowPump items.length x.slot
    some (if (s.route node).isNone then s.flowTimer x.slot node else s)
  | none =>
    match s.freeSlot with
    | none => none
    | some (slot, inc) =>
      let x : FlowSrc := { slot := slot, inc := inc, ctx := ctx, node := node, ord := ord, queue := items, since := s.cyc }
      let s := { s with fab := { s.fab with
        srcs := s.fab.srcs ++ [x], incs := (slot, inc) :: s.fab.incs.filter fun p => p.1 != slot } }
      let s := s.sendPacket { s.packetTo kFOPEN sdie node 0 ord with flow := flowField x }
      some (s.flowTimer slot node)

/-- R368: contiguous bytes at a local physical address split into pieces that cross no 2 KiB boundary, each with its offset;
`n` bounds the pieces. -/
def split2k : Nat → Nat → Nat → Nat → List (Nat × Nat)
  | 0, _, _, _ => []
  | n + 1, pa, off, len =>
    if len = 0 then []
    else
      let k := min len (2048 - (pa + off) % 2048)
      (off, k) :: split2k n pa (off + k) (len - k)

/-- R369: the WRITE packets of bytes at a place. -/
def State.writeItems (s : State) (sdie : Nat) (p : Place) (ord : Bool) (bs : List Byte) (use : FlowUse) : List FlowItem :=
  (split2k (bs.length / 2048 + 2) p.pa 0 bs.length).map fun (o, k) =>
    { p := { s.packetTo kWRITE sdie p.node p.die ord with
        nbytes := BitVec.ofNat 12 k, pa := BitVec.ofNat 42 (p.pa + o), payload := (bs.drop o).take k }, use := use }

/-- R369: the READ packets of `len` bytes at a place. -/
def State.readItems (s : State) (sdie : Nat) (p : Place) (ord : Bool) (va len : Nat) (use : FlowUse) : List FlowItem :=
  (split2k (len / 2048 + 2) p.pa 0 len).map fun (o, k) =>
    { p := { s.packetTo kREAD sdie p.node p.die ord with nbytes := BitVec.ofNat 12 k, pa := BitVec.ofNat 42 (p.pa + o) },
      use := use, va := va + o }

/-- R374: the ordering of a path's remote accesses under a context's profile. -/
def pathOrdered (t : TaskSt) (path : Nat) : Bool := !t.profile.getLsbD path

/-- Log 108: a READ for an instruction line has failed: the line is asked for again. -/
def SeqSt.farFails (q : SeqSt) (u : Nat) : SeqSt := { q with far := q.far.filter fun f => f.uid != u }

/-- R234: remote bytes that a command has asked for do not come: the command goes on to the element that needs them. -/
def State.readFails (s : State) (c u va len det : Nat) : State :=
  let mark (d : Cmd) : Cmd := if d.uid = u then { d with packets := d.packets - 1, failed := d.failed ++ [(va, len, det)] } else d
  (s.modCore c fun k => k.modEng fun e => { e with cmds := e.cmds.map mark }).schedule 0 .engineCommandBegin { n0 := c, n1 := u }

/-- R377, R280: a write that a thread issued from a core has not arrived: the count of its task is retired poisoned. A thread that has been
saved keeps it; one that has exited is the one whose gang's mark for that core the write's number stands below; a thread that has been
killed or re-queued holds no count any more. -/
def State.poisonTask (s : State) (c u thread : Nat) : State :=
  let bad (k : CoreSt) : CoreSt := k.modTask fun t => { t with poisonOwn := true }
  let mark (g : Gang) : Option Nat := (g.marks.find? fun m => m.1 == c && decide (u < m.2)).map (·.2)
  if (s.coreAt c).task.thread = thread then s.modCore c bad
  else if s.sched.ckpts.any fun x => x.2.task.thread == thread then
    { s with sched := { s.sched with ckpts := s.sched.ckpts.map fun x => if x.2.task.thread = thread then (x.1, bad x.2) else x } }
  else
    match (s.sched.gangs.filterMap mark).min? with
    | none => s
    | some m => { s with sched := { s.sched with gangs := s.sched.gangs.map fun (g : Gang) => if mark g = some m then { g with flowFail := true } else g } }

/-- A use still stands in some flow. -/
def State.usePending (s : State) (u : FlowUse) : Bool :=
  s.fab.srcs.any fun x => (x.unacked ++ x.queue).any fun it => it.use == u
/-- R374: the ordered flow of a die's Progress Engine stands under a context number of its own. -/
def peCtx (die : Nat) : Nat := 2 ^ 32 + die

/-! Reads that the device makes of its own accord on another module (R257, log 109). -/

def State.modFar (s : State) (u : Nat) (f : FarRead → FarRead) : State :=
  { s with fab := { s.fab with far := s.fab.far.map fun x => if x.uid = u then f x else x } }
/-- A read answers a want of a unit, if it has been asked for since a cyc. -/
def FarRead.fits (f : FarRead) (who : Nat × Nat) (since : Nat) (w : Place × Nat) : Bool :=
  f.who == some who && decide (since ≤ f.born) && f.node == w.1.node && f.die == w.1.die && f.pa == w.1.pa && f.len == w.2
/-- Everything a unit wants has been answered. -/
def State.farAnswered (s : State) (who : Nat × Nat) (since : Nat) (ws : List (Place × Nat)) : Bool :=
  ws.all fun w => s.fab.far.any fun f => f.fits who since w && f.left == 0
/-- An answer brought no bytes. -/
def State.farBad (s : State) (who : Nat × Nat) (since : Nat) (ws : List (Place × Nat)) : Bool :=
  ws.any fun w => s.fab.far.any fun f => f.fits who since w && f.bad
/-- READ packets for what a unit wants and has not asked for, on the flow of a context; without a free slot it asks again. -/
def State.askFar (s : State) (who : Nat × Nat) (since ctx sdie : Nat) (ord : Bool) (ws : List (Place × Nat)) : State :=
  ws.foldl (fun (s : State) w =>
    if s.fab.far.any fun f => f.fits who since w then s
    else
      let (u, s) := s.takeUid
      let items := s.readItems sdie w.1 ord 0 w.2 (.far u)
      match s.flowSend ctx sdie w.1.node ord items with
      | none => s
      | some t =>
        let f : FarRead := { uid := u, who := some who, born := t.cyc, node := w.1.node, die := w.1.die, pa := w.1.pa, len := w.2, left := items.length }
        { t with fab := { t.fab with far := f :: t.fab.far.filter fun x => !(x.left == 0 && x.fits who 0 w) } }) s
/-- A unit has used what it asked for; of each place the newest bytes stay. -/
def State.farDone (s : State) (who : Nat × Nat) : State :=
  if s.fab.far.isEmpty then s
  else
    let same (a b : FarRead) : Bool := a.node == b.node && a.die == b.die && a.pa == b.pa && a.len == b.len
    let now := s.fab.far.map fun f => if f.who = some who then { f with who := none } else f
    { s with fab := { s.fab with far := now.foldr (fun f rest => f :: (if f.who = none then rest.filter fun g => !(g.who.isNone && same f g) else rest)) [] } }
/-- The byte of a place that the newest read of it has brought. -/
def State.farByte (s : State) (node die pa : Nat) : Option Byte :=
  s.fab.far.findSome? fun f => if f.node = node ∧ f.die = die ∧ f.pa ≤ pa then (f.got.find? fun x => x.1 == pa - f.pa).map (·.2) else none

/-- What waits for a packet of a failed flow is given up: a fill, a command (DET 15), a write of a task but for an addition to a statistics
block (R40), a collective (R380), a chain walker. -/
def State.giveUp (s : State) (it : FlowItem) : State :=
  match it.use with
  | .fill c u => s.schedule 0 .longLatencyFill { n0 := c, n1 := u, n2 := 1 }
  | .cmd c u =>
    if it.p.kind = kREAD then s.readFails c u it.va it.p.nbytes.toNat 15
    else (s.modCore c fun k => k.modEng fun e => { e with cmds := e.cmds.map fun (d : Cmd) => if d.uid = u then
      { d with det := 15, packets := d.packets - 1 } else d }).schedule 0 .engineCommandComplete { n0 := c, n1 := u }
  | .store c u =>
    let s := match s.mem.flying.find? fun f => f.uid == u with
      | some (f : InFlight) => if f.what = StoreWhat.load then s else s.poisonTask c u f.thread
      | none => s
    { s with mem := { s.mem with flying := s.mem.flying.filter fun f => f.uid != u } }
  | .coll u =>
    (match s.pe.colls.find? fun k => k.uid == u with
    | none => s
    | some k =>
      let mark (g : GraphInst) : GraphInst :=
        if g.inst = k.loc.extractLsb' 32 32 then { g with aborts := (k.loc, k.time) :: g.aborts } else g
      { s with pe := { s.pe with insts := s.pe.insts.map mark } })
  | .walker c w => s.modCore c fun k => k.modEng fun e =>
    { e with walkers := vput e.walkers w { vat e.walkers w with
        st := .idle, cherr := true, seqNo := (vat e.walkers w).seqNo + 1, waiting := none, cmd := none, packets := 0, got := [] } }
  | .fetch c u => s.modCore c fun k => k.modQ fun q => q.farFails u
  | .far u => s.modFar u fun f => { f with left := f.left - 1, bad := true }
  | .batch u => if s.usePending (.batch u) then s else s.schedule 0 .countUpdateApply { n0 := u }
  | .unit _ => s
  | .reply => s

/-- R377: the flow of a slot has failed: it is closed, and what waited for it is given up. -/
def State.flowFail (s : State) (slot : Nat) : State :=
  match s.srcAt slot with
  | none => s
  | some x =>
    let s := { s with fab := { s.fab with
      srcs := s.fab.srcs.filter fun y => y.slot != slot, failed := bumpField s.fab.failed } }
    let s := s.sendPacket { s.packetTo kFCLOSE 0 x.node 0 x.ord with flow := flowField x }
    (x.unacked ++ x.queue).foldl (fun s it => s.giveUp it) s

/-- R218, R369, log 108: the line of `pc` at a place on another module is asked for by a READ on the context's ordered flow, unless
it is on its way; without a free slot it is asked for again. -/
def State.askLine (s : State) (pc : PC) (p : Place) : State :=
  if s.core.q.far.any fun f => f.num == pcLine pc then s
  else
    let (u, t) := s.takeUid
    let t := t.modQ fun q => { q with far := some { uid := u, num := pcLine pc } }
    (t.flowSend t.core.task.ctx t.die p.node true
      (t.readItems t.die p true ((pcLine pc).toNat * 128) 128 (.fetch t.core.num u))).getD s

end Sys2Proof.Machine
end

