-- ==== Sys2Proof/Machine/Issue.lean ====
section
/-! DEFINITION. Issuing an instruction: its checks and holds in the order of R68, its outcome, and the flow of control after
it with loop back-edges, breakpoints and single-step (03, 06, 25). -/

namespace Sys2Proof.Machine

open Sys2Proof Decode

/-- What the effect of an instruction answers once its checks and holds have passed. -/
inductive Res where
  /-- It retires in sequential flow. -/
  | done (s : State)
  /-- It is a taken transfer (R116) to a PC; `startOnly` asks for a START mark only (R61); `leaves` says whether it ends the
  loops it leaves (R120). -/
  | goto (s : State) (target : PC) (startOnly leaves : Bool)
  /-- It retires and flow goes on at a PC without a delay (R118, N = 0). -/
  | jump (s : State) (target : PC)
  /-- It traps and has no effect (R317). -/
  | trap (t : TrapInfo)
  /-- It holds its issue this cyc. -/
  | hold (s : State)
  /-- The machine stops. -/
  | fault (f : Fault)

def trapOf (cause detail : Nat) (a0 a1 a2 : Word := 0) : TrapInfo := { cause := cause, detail := detail, a0 := a0, a1 := a1, a2 := a2 }
/-- ILLEGAL with a detail of R99. -/
def illegal (d : Nat) : Res := .trap (trapOf ILLEGAL d)

/-! Writing a destination. -/

/-- R62: the write of a fixed-latency producer of latency `l` that issues now. -/
def State.writeReg (s : State) (l : Nat) (r : RegRef) (v : RegVal) : State :=
  if l ≤ 1 then s.modQ fun q => q.put r v
  else s.modQ fun q => { q with lat := q.lat ++ [{ reg := r, val := v, due := s.cyc + l }] }
/-- The write of S(DST). -/
def State.writeS (s : State) (l : Nat) (n : BitVec 6) (x : Word) : State := s.writeReg l (.s n) (.word x)
/-- The write of the enabled lanes of V(DST); R387: with every lane enabled at issue, the register is defined in the phase. -/
def State.writeV (s : State) (l : Nat) (n : BitVec 6) (en : BitVec 64) (x : LaneVec) : State :=
  let s := if s.core.ph.en && decide (en = BitVec.allOnes 64) then
      { s with core := s.core.modPh fun p => { p with vDefined := setBit p.vDefined (n.toNat % 32) true } } else s
  s.writeReg l (.v (n.setWidth 5)) (.lanes en x)
/-- The write of the enabled bits of M(DST). -/
def State.writeM (s : State) (l : Nat) (n : BitVec 6) (en x : BitVec 64) : State :=
  s.writeReg l (.m (n.setWidth 3)) (.bits en x)

/-- R48, R66: a long-latency producer issues: its register is marked empty and its fill falls due after `d` cyc. -/
def State.addFill (s : State) (r : Option RegRef) (src : FillSrc) (d : Nat) : Nat × State :=
  let (u, s) := s.takeUid
  let reg := r.getD (.s 0)
  let s := s.modQ fun q =>
    { (q.setFull reg false) with fills := q.fills ++ [{ uid := u, reg := reg, src := src, due := s.cyc + d, pc := q.pc }] }
  (u, s)
/-- A fill that lands between `lo` and `hi` cyc after issue: it is seen one cyc after it lands (R62). -/
def State.fillIn (s : State) (r : Option RegRef) (src : FillSrc) (lo hi : Nat) : State :=
  let (d, s) := s.freeCyc lo hi
  let (u, s) := s.addFill r src (d + 1)
  s.schedule (d + 1) .longLatencyFill { n0 := s.core.num, n1 := u }
/-- A fill that waits for another agent; none falls due by itself. -/
def State.fillLater (s : State) (r : Option RegRef) (src : FillSrc) : Nat × State := s.addFill r src 0

/-! Loops (R54, R119). -/

/-- R54: the stage-predicate vector of kernel iteration `i` of a loop of trip count `n` and `st` stages. -/
def stageVector (st n i : Nat) : BitVec 8 :=
  BitVec.ofNat 8 ((List.range st).foldl (fun a k => if k ≤ i ∧ i + 1 ≤ k + n then a + 2 ^ k else a) 0)

/-- R54, R65: SPV and the bound masks for the iteration LPITER of loop `id`, past which no older write of a bound mask lands; LOOP binds
none and sets SPV[0]. -/
def SeqSt.beginIteration (q : SeqSt) (id : Nat) : SeqSt :=
  let l := vat q.loops id
  let st := l.stg.toNat + 1
  let n := l.rem.toNat + l.iter.toNat - l.stg.toNat
  let spv := if l.mb = 0 then 1 else stageVector st n l.iter.toNat
  let q := { q with loops := vput q.loops id { l with spv := spv } }
  let bound (w : LatWrite) : Bool := match w.reg with
    | .m k => decide (l.mb.toNat ≤ k.toNat ∧ k.toNat < l.mb.toNat + st)
    | _ => false
  if l.mb = 0 then q
  else (List.range st).foldl (fun q k =>
    q.setM (l.mb.toNat + k) (BitVec.allOnes 64) (if spv.getLsbD k then BitVec.allOnes 64 else 0)) { q with lat := q.lat.filter fun w => !bound w }

/-- The active loops whose last instruction is at `pc`, the one started last first. -/
def SeqSt.endingAt (q : SeqSt) (pc : PC) : List Nat :=
  ((List.range 8).filter fun i => (vat q.loops i).act && (vat q.loops i).stop == pc).foldl
    (fun acc i =>
      let o := (vat q.loops i).order
      (acc.filter fun j => o < (vat q.loops j).order) ++ [i] ++ (acc.filter fun j => (vat q.loops j).order ≤ o)) []

/-- R401: one BANK record for every four entries changed since the previous snapshot. -/
def State.bankRecords (s : State) (n : Nat) : State :=
  let d := (s.coreAt n).dbg
  let old (i : Nat) : Nat := ((d.bcmLast.find? fun p => p.1 == i).map (·.2)).getD 0
  let ch := (List.range 320).filterMap fun i =>
    match d.bcm.find? fun p => p.1 == i with
    | some p => if p.2 = old i then none else some (i / 32 * 2 ^ 28 + i % 32 * 2 ^ 23 + min (p.2 - old i) 0x7FFFFF)
    | none => none
  let s := (List.range ((ch.length + 3) / 4)).foldl (fun s k =>
    s.trace n 3 ((List.range 4).flatMap fun j => leBytes 4 (ch.getD (4 * k + j) 0xF0000000))) s
  s.modCore n fun c => c.modDbg fun d => { d with bcmLast := d.bcm }

/-- R119: the back-edge at `pc`, innermost loop first: the next PC, and the loops whose kernel-iteration boundary it is. -/
def State.backEdge (s : State) (pc : PC) : List Nat → List Nat → State × PC × List Nat × Bool
  | [], done => (s, s.core.q.line.nextPc pc, done, false)
  | i :: is, done =>
    let l := vat s.core.q.loops i
    let l := { l with iter := l.iter + 1, rem := l.rem - 1 }
    if l.rem ≠ 0#32 then
      let s := s.modQ fun q => ({ q with loops := vput q.loops i l }).beginIteration i
      (s, l.start, done ++ [i], true)
    else
      let l := { l with act := false, spv := 0 }
      let s := s.modQ fun q => { q with loops := vput q.loops i l }
      let s := (s.trace s.core.num 2 (leBytes 8 l.stop.toNat ++ leBytes 8 l.iter.toNat)).bankRecords s.core.num
      State.backEdge s pc is (done ++ [i])

/-- R120: the active loops whose body holds `pc` and not `target` become inactive; LPREM and LPCFG.SPV keep their values (DESIGN
CHOICE, log 112: the rule names LPITER and the masks only). -/
def SeqSt.leaveLoops (q : SeqSt) (pc target : PC) : SeqSt :=
  { q with loops := tab 8 fun i =>
      let l := vat q.loops i
      if l.holds pc && !l.holds target then { l with act := false } else l }

/-! Breakpoints (R399, R400). -/

/-- A cause of a BREAK: the first one fixes source and PC, the first BKPT the DETAIL; a later one is merged, and the BREAK then waits for
the boundary of any loop that one of its causes waits for. -/
def DebugSt.cause (d : DebugSt) (source : Nat) (pc : PC) (detail : Option Nat) (loop : Option Nat) (ready : Bool) : DebugSt :=
  match d.brk with
  | none => { d with brk := some { source := source, pc := pc, detail := detail, merged := 1, loop := loop, ready := ready } }
  | some b =>
    let more := b.more ++ loop.toList
    { d with brk := some { b with detail := b.detail.or detail, merged := b.merged + 1, ready := b.ready || ready, more := more } }

/-- R400: the address breakpoint enabled and matched at a PC. -/
def DebugSt.matched (d : DebugSt) (pc : PC) : Option Nat :=
  (List.range 4).find? fun i => d.bpen.getLsbD i && vat d.bp i == pc

/-- R399, R400: every address breakpoint that matches at a PC is a cause, the one of the lowest number first. -/
def DebugSt.matches (d : DebugSt) (pc : PC) (loop : Option Nat) (ready : Bool) : DebugSt :=
  (List.range 4).foldl (fun (k : DebugSt) i => if d.bpen.getLsbD i && vat d.bp i == pc then k.cause (i + 1) pc none loop ready else k) d

/-- After an instruction at `pc` with the iteration boundaries `bs`: address matches inside a loop and single-step add their
causes, and a deferred BREAK whose boundary is reached, or whose loop is left, is ready (R399, R400). -/
def State.breaksAfter (s : State) (thm : Bool) (pc : PC) (inner : Option Nat) (bs : List Nat) : State :=
  let c := s.core
  let d := c.dbg
  let d := if thm then d else match inner with
    | some i => d.matches pc (some i) false
    | none => d
  let d := if thm || !d.step then d else
    match inner with
    | none => d.cause 5 pc none none true
    | some i => if bs.contains i then d.cause 5 pc none (some i) true else d
  let d := match d.brk with
    | some b =>
      if (b.loop.toList ++ b.more).any fun i => bs.contains i || !(vat c.q.loops i).act then { d with brk := some { b with ready := true } } else d
    | none => d
  { s with core := { c with dbg := d } }

/-- R399: the pending BREAK is taken at `pc`. -/
def State.takeBreak (s : State) (b : BreakSt) (pc : PC) : State :=
  let s := s.modCore s.core.num fun c => c.modDbg fun d => { d with brk := none }
  let s := s.trace s.core.num 4 (leBytes 8 pc.toNat ++ leBytes 2 (b.detail.getD 0) ++ leBytes 6 b.source)
  s.takeTrap { cause := BREAK, detail := b.detail.getD 0, a0 := BitVec.ofNat 64 b.source, a1 := b.pc.setWidth 64,
               a2 := BitVec.ofNat 64 b.merged } pc

/-! Retiring. -/

/-- The instruction at `pc` has issued: it enters the history with the cyc its result is seen from (R62, R64), flow goes on
at `next`, and it is counted (R402) by the counters that selected it before it took effect, `d0` (R122). -/
def State.retire (s : State) (d0 : DebugSt) (lat : Option Nat) (pc next : PC) (entered : Bool) (nextIssue : Nat) (inner : Option Nat)
    (bs : List Nat) (thm : Bool) : State :=
  let q := s.core.q
  let q := { q with
    hist := (lat.map (s.cyc + ·) :: q.hist).take 7, pc := next, holdFrom := none, asked := false, verdict := none,
    entering := entered || decide (pcLine next ≠ pcLine pc), nextIssue := nextIssue }
  let s := { s with core := { s.core with
    q := q, dbg := s.core.dbg.countAs d0 2 1, task := { s.core.task with walkFault := [] },
    eng := { s.core.eng with fol := s.core.eng.fol.filter fun p => p.2 != pc } } }
  s.breaksAfter thm pc inner bs

/-- An instruction held by a hold of its own: the first cyc of that hold is kept for its watchdog. -/
def State.heldOwn (s : State) : State := s.modQ fun q => { q with holdFrom := some (q.holdFrom.getD s.cyc) }

/-- R119: an instruction retires in sequential flow; a back-edge whose target R61 refuses traps and the instruction has no
effect; one whose target's line has to come from another module waits for it (log 108). -/
def State.retireSeq (s t : State) (lat : Option Nat) : State :=
  let pc := s.core.q.pc
  let (t, next, bs, back) := t.backEdge pc (t.core.q.endingAt pc) []
  if back && t.badTarget t.core next false then s.takeTrap (trapOf BAD_TARGET 0) pc
  else
    match (if back then t.lineAway t.core next else none) with
    | some p => (s.askLine next p).heldOwn
    | none => t.retire s.core.dbg lat pc next back (s.cyc + 1) (s.core.q.innermost pc) bs s.core.trap.thm

/-- R61, R116, R120: a taken transfer retires; one whose target is refused traps and has no effect; one whose target's line has to
come from another module waits for it (log 108). -/
def State.retireTo (s t : State) (lat : Option Nat) (target : PC) (startOnly leaves : Bool) : State :=
  let pc := s.core.q.pc
  if t.badTarget t.core target startOnly then s.takeTrap (trapOf BAD_TARGET 0) pc
  else
    match t.lineAway t.core target with
    | some p => (s.askLine target p).heldOwn
    | none =>
    let t := if leaves then t.modQ fun q => q.leaveLoops pc target else t
    t.retire s.core.dbg lat pc target true (s.cyc + 3) (s.core.q.innermost pc) [] s.core.trap.thm

/-- A held instruction: its issue is tried again; a cyc held by PD or a wait mode is counted (R402). -/
def State.held (s : State) (counts : Bool := false) : State :=
  if counts then { s with core := { s.core with dbg := s.core.dbg.count 3 1 } } else s

/-- The outcome of an effect that has taken place or not. -/
def State.conclude (s : State) (lat : Option Nat) : Res → Host.Outcome State Fault Refusal
  | .done t => .next (s.retireSeq t lat)
  | .goto t target so lv => .next (s.retireTo t lat target so lv)
  | .jump t target =>
    .next (t.retire s.core.dbg lat s.core.q.pc target true (s.cyc + 1) (s.core.q.innermost s.core.q.pc) [] s.core.trap.thm)
  | .trap i => .next (s.takeTrap i s.core.q.pc)
  | .hold t => .next t.heldOwn
  | .fault f => .fault f

/-- R68: why an instruction does not issue this cyc, in the order of the checks. -/
inductive Gate where
  | pass
  | trap (t : TrapInfo)
  | wait
  | hold
deriving DecidableEq, Repr

/-- R68, R99: the checks and holds that come before an instruction's own holds. -/
def gate (sh : Shape) (lat : Option Nat) (s : State) : Gate :=
  let q := s.core.q
  let f := q.ir
  match illegalDetail sh f with
  | some d => .trap (trapOf ILLEGAL d)
  | none =>
    if pdHeld q f s.cyc then .wait
    else match emptyRead sh q f with
      | some n => .trap (trapOf EMPTY_READ n)
      | none =>
        if waitHeld sh q f then .wait
        else if landHeld sh lat q f s.cyc || emptyHeld sh q f then .hold
        else .pass

/-- R387: a read of a vector register that is not defined in the open phase sets LIVE, whatever lanes are enabled (log 137). -/
def State.noteReads (s : State) (sh : Shape) : State :=
  let f := s.core.q.ir
  let undef (o : Opd) (x : BitVec 6) : Bool := decide (o = .v) && !s.core.ph.vDefined.getLsbD (x.toNat % 32)
  if s.core.ph.en && (undef sh.sa f.sa || undef sh.sb f.sb || undef sh.sc f.sc) then
    { s with core := s.core.modPh fun p => { p with live := true } }
  else s

/-- R68, R84: an instruction is issued: the checks, the common holds, the holds of its own, the predicate, its effect.
`lanes` says that the predicate acts lane by lane, so that the effect reads it itself. -/
def issueWith (sh : Shape) (lat : Option Nat) (own : State → Option State) (lanes : Bool) (body : State → Res) (s : State) :
    Host.Outcome State Fault Refusal :=
  match gate sh lat s with
  | .trap t => .next (s.takeTrap t s.core.q.pc)
  | .wait => .next (s.held true)
  | .hold => .next s.held
  | .pass =>
    match own s with
    | some t => .next t.heldOwn
    | none =>
      if !lanes && !predOn s.core.q s.core.q.ir then .next (s.retireSeq s lat)
      else s.conclude lat (body (s.noteReads sh))

/-- No hold of its own. -/
def noHold : State → Option State := fun _ => none

/-- A scalar or control instruction without holds of its own. -/
def issue (sh : Shape) (lat : Option Nat) (body : State → Res) (s : State) : Host.Outcome State Fault Refusal :=
  issueWith sh lat noHold false body s

end Sys2Proof.Machine
end

