-- ==== Sys2Proof/Machine/Scalar.lean ====
section
/-! DEFINITION. Scalar arithmetic, logic, immediates, compares, masks, full/empty queries and NOP (R102 to R109, R123,
R124), with their short forms (R83). -/

namespace Sys2Proof.Machine

open Sys2Proof

/-! Shapes (R89, R101). -/

/-- MOD as R101 gives it for SADD, SSUB, SMUL, SADDI: SAT allowed, MOD[2:0] zero. -/
def satOnly (md : BitVec 4) : Bool := decide (md = 0) || decide (md = 8)

def shIntArith (f : Fields) : Shape :=
  { dst := .s, sa := .s, sb := .s, tyOk := intTy f.ty, mdOk := satOnly f.md, immOk := decide (f.imm = 0) }
def shIntPlain (f : Fields) : Shape := { shIntArith f with mdOk := decide (f.md = 0) }
def shIntLong (f : Fields) : Shape := { shIntPlain f with emp := .long }
def shSaddi (f : Fields) : Shape := { shIntArith f with sb := .unused, immOk := true }
/-- TYPE 0x0 and MOD 0x0. -/
def plainTy (f : Fields) : Shape := { tyOk := decide (f.ty = 0), mdOk := decide (f.md = 0), immOk := decide (f.imm = 0) }
def shLogic (f : Fields) : Shape := { plainTy f with dst := .s, sa := .s, sb := .s }
def shUnary (f : Fields) : Shape := { plainTy f with dst := .s, sa := .s }
def shLogicImm (f : Fields) : Shape := { shUnary f with immOk := true }
def shShiftImm (f : Fields) : Shape := { shUnary f with immOk := decide (f.imm.toNat < 64) }
def shSli (f : Fields) : Shape := { plainTy f with dst := .s, immOk := true }
def shSlih (f : Fields) : Shape := { shUnary f with immOk := decide (f.imm.toNat < 2 ^ 16) }
/-- R106: pos + len ≤ 64, IMM24[23:13] zero, and SX on SBEXT only. -/
def bitFieldOk (f : Fields) (sx : Bool) : Bool :=
  decide (f.imm.toNat < 2 ^ 13) && (sx || !f.imm.getLsbD 12) && decide (immBits f 0 6 + immBits f 6 6 + 1 ≤ 64)
def shSbext (f : Fields) : Shape := { shUnary f with immOk := bitFieldOk f true }
def shSbins (f : Fields) : Shape := { shLogic f with immOk := bitFieldOk f false }
def shScmp (f : Fields) : Shape :=
  { dst := .s, sa := .s, sb := .s, tyOk := intTy f.ty || fltTy f.ty, mdOk := condOk f.md (fltTy f.ty), immOk := decide (f.imm = 0) }
def shScmpm (f : Fields) : Shape := { shScmp f with dst := .m }
def shScmpi (f : Fields) : Shape :=
  { dst := .s, sa := .s, tyOk := intTy f.ty, mdOk := condOk f.md false }
def shSsel (f : Fields) : Shape := { shLogic f with sc := .s }
def shMask (f : Fields) : Shape := { plainTy f with dst := .m, sa := .m, sb := .m }
def shMfroms (f : Fields) : Shape := { plainTy f with dst := .m, sa := .s }
def shMtos (f : Fields) : Shape := { plainTy f with dst := .s, sa := .m }
def shFeget (f : Fields) : Shape := { plainTy f with dst := .s }
def shFewaits (f : Fields) : Shape := { plainTy f with sa := .s, sb := .s }
/-- R124: every field zero except OPC, PRED and PNEG. -/
def shNop (f : Fields) : Shape :=
  { immOk := decide (f = { pred := f.pred, pneg := f.pneg }), tyOk := true }

/-! Operations. -/

def State.srcA (s : State) : Word := s.core.q.getS s.core.q.ir.sa.toNat
def State.srcB (s : State) : Word := s.core.q.getS s.core.q.ir.sb.toNat
def State.srcC (s : State) : Word := s.core.q.getS s.core.q.ir.sc.toNat

/-- R100: the result of an exact integer fitted to TYPE goes to S(DST); a saturation is charged to STATSAT. -/
def State.fitTo (s : State) (lat : Nat) (v : Int) : State :=
  let f := s.core.q.ir
  let r := fit f.ty (satOf f.md) v
  let s := if r.2 then { s with core := s.core.charge { sat := 1 } } else s
  s.writeS lat f.dst r.1

/-- R102: a two-source arithmetic instruction. -/
def intBinary (op : Int → Int → Int) (lat : Nat) (s : State) : Res :=
  let f := s.core.q.ir
  .done (s.fitTo lat (op (readInt f.ty s.srcA) (readInt f.ty s.srcB)))

/-- R102: the upper half of the product. -/
def mulHigh (s : State) : Res :=
  let f := s.core.q.ir
  .done (s.fitTo 3 ((readInt f.ty s.srcA * readInt f.ty s.srcB).fdiv (2 ^ (scalarFmt f.ty).width : Nat)))

/-- R103: quotient and remainder, truncated toward zero; by zero −1 and the dividend. -/
def divide (a b : Int) : Int × Int :=
  if b = 0 then (-1, a) else (a.tdiv b, a - b * a.tdiv b)

/-- R103: a divide fills its destination 20 to 68 cyc after issue, and not before the divides before it. -/
def intDivide (rem : Bool) (s : State) : Res :=
  let f := s.core.q.ir
  let qr := divide (readInt f.ty s.srcA) (readInt f.ty s.srcB)
  let lo := max 20 (min 68 (s.core.q.divDue - s.cyc))
  let (d, s) := s.freeCyc lo 68
  let s := s.modQ fun q => { q with divDue := s.cyc + d }
  .done (s.fillIn (some (.s f.dst)) (.value (.word (fit f.ty false (if rem then qr.2 else qr.1)).1)) d d)

/-- R104: an instruction on the 64 bits of two registers. -/
def wordBinary (op : Word → Word → Word) (s : State) : Res := .done (s.writeS 1 s.core.q.ir.dst (op s.srcA s.srcB))
/-- R104: an instruction on the 64 bits of one register. -/
def wordUnary (op : Word → Word) (s : State) : Res := .done (s.writeS 1 s.core.q.ir.dst (op s.srcA))
/-- R104, R105: an instruction on one register and IMM24. -/
def wordImm (op : Word → BitVec 24 → Word) (s : State) : Res := .done (s.writeS 1 s.core.q.ir.dst (op s.srcA s.core.q.ir.imm))

def shl (a b : Word) : Word := a <<< (b.toNat % 64)
def shr (a b : Word) : Word := a >>> (b.toNat % 64)
def sra (a b : Word) : Word := a.sshiftRight (b.toNat % 64)
/-- The leading zero bits of a word. -/
def clz (a : Word) : Nat := if a = 0 then 64 else 63 - a.toNat.log2
/-- The trailing zero bits of a word. -/
def ctz (a : Word) : Nat := ((List.range 64).find? fun i => a.getLsbD i).getD 64
/-- The one bits of a word. -/
def popc (a : Word) : Nat := (List.range 64).foldl (fun n i => if a.getLsbD i then n + 1 else n) 0
def sx24 (i : BitVec 24) : Word := i.signExtend 64

/-- R106: SBEXT. -/
def bitExtract (a : Word) (i : BitVec 24) : Word :=
  let pos := i.toNat % 64
  let len := i.toNat / 64 % 64 + 1
  let x := a.toNat / 2 ^ pos % 2 ^ len
  if i.getLsbD 12 then (BitVec.ofNat len x).signExtend 64 else BitVec.ofNat 64 x
/-- R106: SBINS. -/
def bitInsert (a b : Word) (i : BitVec 24) : Word :=
  let pos := i.toNat % 64
  let len := i.toNat / 64 % 64 + 1
  let mask : Word := BitVec.ofNat 64 ((2 ^ len - 1) * 2 ^ pos)
  (b &&& ~~~ mask) ||| ((a <<< pos) &&& mask)

/-- R107: SCMP, SCMPM, SCMPI: whether the condition holds. -/
def State.compareRegs (s : State) : Bool :=
  let f := s.core.q.ir
  condHolds f.md (readOp f.ty s.srcA) (readOp f.ty s.srcB)
def State.compareImm (s : State) : Bool :=
  let f := s.core.q.ir
  condHolds f.md (readOp f.ty s.srcA) (readOp f.ty (sx24 f.imm))

def boolWord (b : Bool) : Word := if b then 1 else 0
def boolMask (b : Bool) : BitVec 64 := if b then BitVec.allOnes 64 else 0

/-- R109: a mask instruction of two masks. -/
def maskBinary (op : BitVec 64 → BitVec 64 → BitVec 64) (s : State) : Res :=
  let f := s.core.q.ir
  .done (s.writeM 1 f.dst (BitVec.allOnes 64) (op (s.core.q.getM f.sa.toNat) (s.core.q.getM f.sb.toNat)))

/-- R109: MLANE: lanes 0 to n − 1 with n at most 64. -/
def laneMask (n : Nat) : BitVec 64 := BitVec.ofNat 64 (2 ^ min n 64 - 1)

def scalarAdd (s : State) := issue (shIntArith s.core.q.ir) (some 1) (intBinary (· + ·) 1) s
def scalarSub (s : State) := issue (shIntArith s.core.q.ir) (some 1) (intBinary (· - ·) 1) s
def scalarMul (s : State) := issue (shIntArith s.core.q.ir) (some 3) (intBinary (· * ·) 3) s
def scalarMin (s : State) := issue (shIntPlain s.core.q.ir) (some 1) (intBinary min 1) s
def scalarMax (s : State) := issue (shIntPlain s.core.q.ir) (some 1) (intBinary max 1) s
def scalarLogic (op : Word → Word → Word) (s : State) := issue (shLogic s.core.q.ir) (some 1) (wordBinary op) s
def scalarShiftImm (op : Word → Word → Word) (s : State) :=
  issue (shShiftImm s.core.q.ir) (some 1) (wordImm fun a i => op a (i.setWidth 64)) s
def scalarAddImm (s : State) :=
  issue (shSaddi s.core.q.ir) (some 1) (fun s => .done (s.fitTo 1 (readInt s.core.q.ir.ty s.srcA + immS s.core.q.ir))) s
def scalarLoadImm (s : State) := issue (shSli s.core.q.ir) (some 1) (wordImm fun _ i => sx24 i) s
def scalarCompare (s : State) :=
  issue (shScmp s.core.q.ir) (some 1) (fun s => .done (s.writeS 1 s.core.q.ir.dst (boolWord s.compareRegs))) s
def maskLogic (op : BitVec 64 → BitVec 64 → BitVec 64) (s : State) := issue (shMask s.core.q.ir) (some 1) (maskBinary op) s
/-- R124. -/
def noOperation (s : State) := issue (shNop s.core.q.ir) none (fun s => .done s) s

/-! Meanings. -/

abbrev Out := Host.Outcome State Fault Refusal

/-- SADD (R102). -/
def execSadd (s : State) : Out := scalarAdd s
/-- SSUB (R102). -/
def execSsub (s : State) : Out := scalarSub s
/-- SMUL (R102). -/
def execSmul (s : State) : Out := scalarMul s
/-- SMULH (R102). -/
def execSmulh (s : State) : Out := issue (shIntPlain s.core.q.ir) (some 3) mulHigh s
/-- SDIV (R103). -/
def execSdiv (s : State) : Out := issue (shIntLong s.core.q.ir) none (intDivide false) s
/-- SREM (R103). -/
def execSrem (s : State) : Out := issue (shIntLong s.core.q.ir) none (intDivide true) s
/-- SAND (R104). -/
def execSand (s : State) : Out := scalarLogic (· &&& ·) s
/-- SOR (R104). -/
def execSor (s : State) : Out := scalarLogic (· ||| ·) s
/-- SXOR (R104). -/
def execSxor (s : State) : Out := scalarLogic (· ^^^ ·) s
/-- SSHL (R104). -/
def execSshl (s : State) : Out := scalarLogic shl s
/-- SSHR (R104). -/
def execSshr (s : State) : Out := scalarLogic shr s
/-- SSRA (R104). -/
def execSsra (s : State) : Out := scalarLogic sra s
/-- SMIN (R102). -/
def execSmin (s : State) : Out := scalarMin s
/-- SMAX (R102). -/
def execSmax (s : State) : Out := scalarMax s
/-- SCMP (R107). -/
def execScmp (s : State) : Out := scalarCompare s
/-- SSEL (R108). -/
def execSsel (s : State) : Out :=
  issue (shSsel s.core.q.ir) (some 1) (fun s =>
    .done (s.writeS 1 s.core.q.ir.dst (if s.srcA ≠ 0 then s.srcB else s.srcC))) s
/-- SCLZ (R104). -/
def execSclz (s : State) : Out := issue (shUnary s.core.q.ir) (some 1) (wordUnary fun a => BitVec.ofNat 64 (clz a)) s
/-- SCTZ (R104). -/
def execSctz (s : State) : Out := issue (shUnary s.core.q.ir) (some 1) (wordUnary fun a => BitVec.ofNat 64 (ctz a)) s
/-- SPOPC (R104). -/
def execSpopc (s : State) : Out := issue (shUnary s.core.q.ir) (some 1) (wordUnary fun a => BitVec.ofNat 64 (popc a)) s
/-- SCMPM (R107). -/
def execScmpm (s : State) : Out :=
  issue (shScmpm s.core.q.ir) (some 1) (fun s =>
    .done (s.writeM 1 s.core.q.ir.dst (BitVec.allOnes 64) (boolMask s.compareRegs))) s
/-- SADDI (R105). -/
def execSaddi (s : State) : Out := scalarAddImm s
/-- SANDI (R104). -/
def execSandi (s : State) : Out := issue (shLogicImm s.core.q.ir) (some 1) (wordImm fun a i => a &&& sx24 i) s
/-- SORI (R104). -/
def execSori (s : State) : Out := issue (shLogicImm s.core.q.ir) (some 1) (wordImm fun a i => a ||| sx24 i) s
/-- SXORI (R104). -/
def execSxori (s : State) : Out := issue (shLogicImm s.core.q.ir) (some 1) (wordImm fun a i => a ^^^ sx24 i) s
/-- SSHLI (R104). -/
def execSshli (s : State) : Out := scalarShiftImm shl s
/-- SSHRI (R104). -/
def execSshri (s : State) : Out := scalarShiftImm shr s
/-- SSRAI (R104). -/
def execSsrai (s : State) : Out := scalarShiftImm sra s
/-- SCMPI (R107). -/
def execScmpi (s : State) : Out :=
  issue (shScmpi s.core.q.ir) (some 1) (fun s => .done (s.writeS 1 s.core.q.ir.dst (boolWord s.compareImm))) s
/-- SLI (R105). -/
def execSli (s : State) : Out := scalarLoadImm s
/-- SLIH (R105). -/
def execSlih (s : State) : Out :=
  issue (shSlih s.core.q.ir) (some 1) (wordImm fun a i => i.setWidth 16 ++ a.setWidth 48) s
/-- SLIT (R105). -/
def execSlit (s : State) : Out :=
  issue (shLogicImm s.core.q.ir) (some 1) (wordImm fun a i => a.extractLsb' 48 16 ++ (i ++ a.setWidth 24)) s
/-- SBEXT (R106). -/
def execSbext (s : State) : Out := issue (shSbext s.core.q.ir) (some 1) (wordImm bitExtract) s
/-- SBINS (R106). -/
def execSbins (s : State) : Out :=
  issue (shSbins s.core.q.ir) (some 1) (fun s =>
    .done (s.writeS 1 s.core.q.ir.dst (bitInsert s.srcA s.srcB s.core.q.ir.imm))) s
/-- MAND (R109). -/
def execMand (s : State) : Out := maskLogic (· &&& ·) s
/-- MOR (R109). -/
def execMor (s : State) : Out := maskLogic (· ||| ·) s
/-- MXOR (R109). -/
def execMxor (s : State) : Out := maskLogic (· ^^^ ·) s
/-- MANDN (R109). -/
def execMandn (s : State) : Out := maskLogic (fun a b => a &&& ~~~ b) s
/-- MFROMS (R109). -/
def execMfroms (s : State) : Out :=
  issue (shMfroms s.core.q.ir) (some 1) (fun s => .done (s.writeM 1 s.core.q.ir.dst (BitVec.allOnes 64) s.srcA)) s
/-- MTOS (R109). -/
def execMtos (s : State) : Out :=
  issue (shMtos s.core.q.ir) (some 1) (fun s => .done (s.writeS 1 s.core.q.ir.dst (s.core.q.getM s.core.q.ir.sa.toNat))) s
/-- MPOPC (R109). -/
def execMpopc (s : State) : Out :=
  issue (shMtos s.core.q.ir) (some 1) (fun s =>
    .done (s.writeS 1 s.core.q.ir.dst (BitVec.ofNat 64 (popc (s.core.q.getM s.core.q.ir.sa.toNat))))) s
/-- MLANE (R109). -/
def execMlane (s : State) : Out :=
  issue (shMfroms s.core.q.ir) (some 1) (fun s =>
    .done (s.writeM 1 s.core.q.ir.dst (BitVec.allOnes 64) (laneMask s.srcA.toNat))) s
/-- FEGET (R123). -/
def execFeget (s : State) : Out :=
  issue (shFeget s.core.q.ir) (some 1) (fun s => .done (s.writeS 1 s.core.q.ir.dst (s.core.q.sFull ||| 1))) s
/-- FEGETV (R123). -/
def execFegetv (s : State) : Out :=
  issue (shFeget s.core.q.ir) (some 1) (fun s => .done (s.writeS 1 s.core.q.ir.dst (s.core.q.vFull.setWidth 64))) s
/-- R123: a register that FEWAITS names is empty. -/
def fewaitsHold (s : State) : Option State :=
  let q := s.core.q
  if (s.srcA &&& ~~~ (q.sFull ||| 1)) ≠ 0 ∨ (s.srcB.setWidth 32 &&& ~~~ q.vFull) ≠ 0 then some s else none
/-- FEWAITS (R123). -/
def execFewaits (s : State) : Out := issueWith (shFewaits s.core.q.ir) none fewaitsHold false (fun s => .done s) s
/-- NOP (R124). -/
def execNop (s : State) : Out := noOperation s

/-! Short forms (R83): the instruction register holds the fields of the long form. -/

/-- SADD_SHORT (R83). -/
def execSaddShort (s : State) : Out := scalarAdd s
/-- SSUB_SHORT (R83). -/
def execSsubShort (s : State) : Out := scalarSub s
/-- SAND_SHORT (R83). -/
def execSandShort (s : State) : Out := scalarLogic (· &&& ·) s
/-- SOR_SHORT (R83). -/
def execSorShort (s : State) : Out := scalarLogic (· ||| ·) s
/-- SXOR_SHORT (R83). -/
def execSxorShort (s : State) : Out := scalarLogic (· ^^^ ·) s
/-- SSHL_SHORT (R83). -/
def execSshlShort (s : State) : Out := scalarLogic shl s
/-- SSHR_SHORT (R83). -/
def execSshrShort (s : State) : Out := scalarLogic shr s
/-- SSRA_SHORT (R83). -/
def execSsraShort (s : State) : Out := scalarLogic sra s
/-- SMUL_SHORT (R83). -/
def execSmulShort (s : State) : Out := scalarMul s
/-- SMIN_SHORT (R83). -/
def execSminShort (s : State) : Out := scalarMin s
/-- SMAX_SHORT (R83). -/
def execSmaxShort (s : State) : Out := scalarMax s
/-- SCMP_SHORT (R83). -/
def execScmpShort (s : State) : Out := scalarCompare s
/-- SADDI_SHORT (R83). -/
def execSaddiShort (s : State) : Out := scalarAddImm s
/-- SSHLI_SHORT (R83). -/
def execSshliShort (s : State) : Out := scalarShiftImm shl s
/-- SSHRI_SHORT (R83). -/
def execSshriShort (s : State) : Out := scalarShiftImm shr s
/-- SLI_SHORT (R83). -/
def execSliShort (s : State) : Out := scalarLoadImm s
/-- MAND_SHORT (R83). -/
def execMandShort (s : State) : Out := maskLogic (· &&& ·) s
/-- MOR_SHORT (R83). -/
def execMorShort (s : State) : Out := maskLogic (· ||| ·) s
/-- NOP_SHORT (R83). -/
def execNopShort (s : State) : Out := noOperation s

end Sys2Proof.Machine
end

