-- ==== Sys2Proof/Machine/Control.lean ====
section
/-! DEFINITION. Transfers of control and hardware loops (R90, R115 to R121). -/

namespace Sys2Proof.Machine

open Sys2Proof

/-! Shapes (R89, R101, R117). -/

def shBr (f : Fields) : Shape := { plainTy f with immOk := true }
def shBrc (f : Fields) : Shape :=
  { sa := .s, sb := .s, tyOk := intTy f.ty || fltTy f.ty, mdOk := condOk f.md (fltTy f.ty) }
def shBrci (f : Fields) : Shape := { sa := .s, sb := .imm, sc := .imm, tyOk := intTy f.ty, mdOk := condOk f.md false }
def shBri (f : Fields) : Shape := { plainTy f with sa := .s }
def shCall (f : Fields) : Shape := { shBr f with dst := .s }
def shCalli (f : Fields) : Shape := { shBri f with dst := .s }

/-- IMM24 of class LP (R89): end-line delta, end slot, first mask, S − 1, identifier. -/
def lpDelta (f : Fields) : Nat := immBits f 14 10
def lpSlot (f : Fields) : Nat := immBits f 9 5
def lpMask (f : Fields) : Nat := immBits f 6 3
def lpStages (f : Fields) : Nat := immBits f 3 3 + 1
def lpId (f : Fields) : Nat := immBits f 0 3

/-- R117: the end lies after the LOOP instruction, a long one whose last slot is the slot after its first. -/
def lpEndOk (f : Fields) (slot : Nat) : Bool := decide (lpDelta f ≠ 0) || decide (slot + 1 < lpSlot f)
def lpPlainOk (f : Fields) (slot : Nat) : Bool := lpEndOk f slot && decide (lpMask f = 0) && decide (lpStages f = 1)
def shLoop (f : Fields) (slot : Nat) : Shape := { plainTy f with sa := .s, immOk := lpPlainOk f slot, pred := false }
def shLoopi (f : Fields) (slot : Nat) : Shape := { plainTy f with sb := .imm, sc := .imm, immOk := lpPlainOk f slot, pred := false }
def shLoops (f : Fields) (slot : Nat) : Shape :=
  { plainTy f with
    sa := .s, pred := false,
    immOk := lpEndOk f slot && decide (1 ≤ lpMask f) && decide (lpMask f + lpStages f ≤ 8) && decide (lpStages f ≤ 7) }

/-! Transfers. -/

/-- R90: the PC-relative target. -/
def relTarget (pc : PC) (f : Fields) : PC :=
  pcAt (pcLine pc + (f.imm.extractLsb' 5 19).signExtend 44) (f.imm.toNat % 32)

/-- The 12-bit immediate of BRCI (R115): SC·64 + SB. -/
def brciImm (f : Fields) : Word := (f.sc ++ f.sb : BitVec 12).signExtend 64

/-- R115: a register target; bits 63:51 nonzero raise BAD_TARGET. -/
def regTarget (s : State) (t : Word) (go : PC → Res) : Res :=
  if t.toNat / 2 ^ 51 ≠ 0 then .trap (trapOf BAD_TARGET 0) else go (t.setWidth 51)

/-- R120: CALL and CALLI at the end of an active loop. -/
def callAtEnd (s : State) : Option Nat := (s.core.q.endingAt s.core.q.pc).head?

/-- R115: the link is NextPC, with latency 1. -/
def State.link (s : State) : State := s.writeS 1 s.core.q.ir.dst ((s.core.q.line.nextPc s.core.q.pc).setWidth 64)

def branch (s : State) : Res := .goto s (relTarget s.core.q.pc s.core.q.ir) false true
def branchIf (c : Bool) (s : State) : Res := if c then branch s else .done s
def branchReg (s : State) : Res := regTarget s s.srcA fun pc => .goto s pc false true
/-- CALL, CALLI: LOOP_STATE 5 comes before the checks of the target (R120, log 140). -/
def callTo (target : State → (PC → Res) → Res) (s : State) : Res :=
  match callAtEnd s with
  | some i => .trap (trapOf LOOP_STATE 5 (BitVec.ofNat 64 i))
  | none => target s fun pc => .goto s.link pc false false

/-- BR (R115). -/
def execBr (s : State) : Out := issue (shBr s.core.q.ir) none branch s
/-- BRC (R115). -/
def execBrc (s : State) : Out := issue (shBrc s.core.q.ir) none (fun s => branchIf s.compareRegs s) s
/-- BRCI (R115). -/
def execBrci (s : State) : Out :=
  issue (shBrci s.core.q.ir) none (fun s =>
    let f := s.core.q.ir
    branchIf (condHolds f.md (readOp f.ty s.srcA) (readOp f.ty (brciImm f))) s) s
/-- BRI (R115). -/
def execBri (s : State) : Out := issue (shBri s.core.q.ir) none branchReg s
/-- CALL (R115). -/
def execCall (s : State) : Out :=
  issue (shCall s.core.q.ir) (some 1) (callTo fun s go => go (relTarget s.core.q.pc s.core.q.ir)) s
/-- CALLI (R115). -/
def execCalli (s : State) : Out := issue (shCalli s.core.q.ir) (some 1) (callTo fun s go => regTarget s s.srcA go) s
/-- The return of R115. -/
def returnTo (s : State) : Out := issue (shBri s.core.q.ir) none branchReg s
/-- RET (R115). -/
def execRet (s : State) : Out := returnTo s
/-- RET_SHORT (R83). -/
def execRetShort (s : State) : Out := returnTo s

/-! Hardware loops. -/

/-- R118: the instruction after the end of a body in sequential flow; an end line that cannot be read is entered at its end
slot, where R59 or R219 applies. -/
def State.afterEnd (s : State) (stop : PC) : PC :=
  if pcLine stop = s.core.q.line.num then s.core.q.line.nextPc stop
  else match s.readLine s.core stop with
    | .line l => l.nextPc stop
    | _ => stop

/-- The line of an end slot has to come from another module (log 108). -/
def State.endAway (s : State) (stop : PC) : Option Place :=
  if pcLine stop = s.core.q.line.num then none else s.lineAway s.core stop

/-- R118: the start of a loop with trip count `n`. -/
def startLoop (n : Nat) (s : State) : Res :=
  let q := s.core.q
  let f := q.ir
  let id := lpId f
  let st := lpStages f
  let b := lpMask f
  let aux := BitVec.ofNat 64 id
  let k := n + st - 1
  let overlaps := decide (b ≠ 0) && (List.range 8).any fun j =>
    let l := vat q.loops j
    l.act && decide (l.mb ≠ 0) && decide (l.mb.toNat < b + st) && decide (b < l.mb.toNat + l.stg.toNat + 1)
  if (vat q.loops id).act then .trap (trapOf LOOP_STATE 1 aux)
  else if 2 ^ 32 - 1 < k then .trap (trapOf LOOP_STATE 2 aux)
  else if overlaps then .trap (trapOf LOOP_STATE 4 aux)
  else
    let stop := pcAt (pcLine q.pc + BitVec.ofNat 44 (lpDelta f)) (lpSlot f)
    let l := { vat q.loops id with start := q.line.nextPc q.pc, stop := stop }
    if n = 0 then
      (match s.endAway stop with
      | some p => .hold (s.askLine stop p)
      | none => .jump (s.modQ fun q => { q with loops := vput q.loops id l }) (s.afterEnd stop))
    else
      let l := { l with rem := BitVec.ofNat 32 k, iter := 0, act := true, mb := BitVec.ofNat 3 b,
                        stg := BitVec.ofNat 3 (st - 1), order := q.loopCount }
      .done (s.modQ fun q =>
        ({ q with loops := vput q.loops id l, loopCount := q.loopCount + 1 }).beginIteration id)

/-- LOOP (R117, R118). -/
def execLoop (s : State) : Out :=
  issue (shLoop s.core.q.ir (pcSlot s.core.q.pc)) none (fun s => startLoop s.srcA.toNat s) s
/-- LOOPI (R117, R118). -/
def execLoopi (s : State) : Out :=
  issue (shLoopi s.core.q.ir (pcSlot s.core.q.pc)) none
    (fun s => startLoop (s.core.q.ir.sc.toNat * 64 + s.core.q.ir.sb.toNat) s) s
/-- LOOPS (R117, R118). -/
def execLoops (s : State) : Out :=
  issue (shLoops s.core.q.ir (pcSlot s.core.q.pc)) none (fun s => startLoop s.srcA.toNat s) s

end Sys2Proof.Machine
end

