-- ==== Sys2Proof/Machine/TileMem.lean ====
section
/-! DEFINITION. Tiles as the tile table and the home memory agents see them (08): tensor entries, handles, map entries, the
elements of each kind, detection on write, and plain loads and stores of tile-mapped pages. -/

namespace Sys2Proof.Machine

open Sys2Proof Decode

/-! Reading memory by virtual address, in a context, from the view of a die. -/

/-- Why a read by virtual address gives nothing: a translation fault of R219, a page of another module, or no such memory. -/
inductive VaFail where
  | page (detail : Nat)
  | remote (p : Place)
  | absent (die pa : Nat)
deriving DecidableEq, Repr

/-- The place of an address, on this module. -/
def State.placeVa (s : State) (t : TaskSt) (die va : Nat) (k : Access) : Except VaFail Place :=
  match s.translate t die va k with
  | .error d => .error (.page d)
  | .ok p => if p.node ≠ s.fab.node.toNat then .error (.remote p)
             else if !paExists p.pa then .error (.absent p.die p.pa) else .ok p

/-- Bytes of a place of another module, as the newest READ of them has brought them. FREE VALUE (log 109): bytes that no READ has brought. -/
def State.remoteBytes (s : State) (p : Place) (len : Nat) : List Byte :=
  (List.range len).map fun i => (s.farByte p.node p.die (p.pa + i)).getD (Config.remoteByte p.node p.die (p.pa + i) s.cyc)

/-- Pieces of an extent that cross no 32 KiB page, each with its first address and length; `n` bounds them. -/
def pieces : Nat → Nat → Nat → List (Nat × Nat)
  | 0, _, _ => []
  | n + 1, va, len =>
    if len = 0 then []
    else
      let k := min len (32768 - va % 32768)
      (va, k) :: pieces n (va + k) (len - k)
def extentPieces (va len : Nat) : List (Nat × Nat) := pieces (len / 32768 + 2) va len

/-- R218: the parts of extents, translated for a die, that stand on another module. -/
def State.farOf (s : State) (t : TaskSt) (die : Nat) (exts : List (Nat × Nat)) : List (Place × Nat) :=
  exts.flatMap fun (va, len) =>
    if 2 ^ 51 < va + len then []
    else (extentPieces va len).filterMap fun (a, k) => match s.placeVa t die a .read with
      | .error (.remote p) => some (p, k)
      | _ => none
/-- What the core in focus wants from another module before its instruction issues: it asks, and holds until all has come. -/
def State.farHold (s : State) (wants : (List (Place × Nat) → Bool) → List (Place × Nat)) : Option State :=
  let who : Nat × Nat := (s.core.num, 1)
  let since := s.core.q.holdFrom.getD (s.cyc + 1)
  let ws := wants (s.farAnswered who since)
  if s.farAnswered who since ws then none
  else some (s.askFar who since s.core.task.ctx s.die (pathOrdered s.core.task 0) ws)

/-- `len` bytes at a virtual address, translated for the die and read as ordinary memory in a view, that of the die unless another is
named. -/
def State.rawVa (s : State) (t : TaskSt) (die va len : Nat) (view : Nat := die) : Except VaFail (List Byte) :=
  (extentPieces va len).foldl (fun acc (a, k) =>
    match acc with
    | .error e => .error e
    | .ok bs =>
      match s.placeVa t die a .read with
      | .error (.remote p) => .ok (bs ++ s.remoteBytes p k)
      | .error e => .error e
      | .ok p => .ok (bs ++ s.readView view (paKey p.die p.pa) k)) (.ok [])

/-! Tensor table (R152, R153). -/

/-- A tensor-table entry. -/
structure Tensor where
  fmtCode : Nat
  rank : Nat
  rows : Nat
  cols : Nat
  scale : Nat
  map : Nat
  stats : Nat
  slots : Nat
  dims : List Nat
  strides : List Int
  rsvd : Bool
deriving DecidableEq, Repr, Inhabited

def nbits (w lo n : Nat) : Nat := w / 2 ^ lo % 2 ^ n

/-- R152, R153: the fields of an entry; rank 1 counts as one tile row. -/
def tensorOf (x : BitVec 1024) : Tensor :=
  let w := x.toNat
  { fmtCode := nbits w 0 5, rank := nbits w 5 3, rows := if nbits w 5 3 = 1 then 1 else nbits w 8 6 + 1, cols := nbits w 14 6 + 1,
    scale := nbits w 64 51, map := nbits w 128 51, stats := nbits w 192 51, slots := nbits w 640 51,
    dims := (List.range 6).map fun k => nbits w (256 + 32 * k) 32,
    strides := (List.range 6).map fun k => (BitVec.ofNat 32 (nbits w (448 + 32 * k) 32)).toInt,
    rsvd := nbits w 20 44 != 0 || nbits w 115 13 != 0 || nbits w 179 13 != 0 || nbits w 243 13 != 0 || nbits w 691 333 != 0 }

def Tensor.fmt (t : Tensor) : Fmt := (fmtOfCode t.fmtCode).getD .f32
/-- R153. -/
def Tensor.ok (t : Tensor) : Bool :=
  let d (k : Nat) := t.dims.getD k 0
  (fmtOfCode t.fmtCode).isSome && decide (1 ≤ t.rank ∧ t.rank ≤ 6) && decide (d 0 % t.cols = 0) && decide (d 1 % t.rows = 0)
    && (List.range 6).all (fun k => if k < t.rank then decide (d k ≠ 0) else decide (d k = 0 ∧ t.strides.getD k 0 = 0))
    && decide (t.slots % 32768 = 0) && decide ((t.slots = 0) = (t.map = 0)) && decide (t.map % 16 = 0) && !t.rsvd
    && (match t.fmt with
        | .e2m1 => decide (t.cols = 32 ∨ t.cols = 64)
        | .bfp _ => decide (t.cols % 16 = 0)
        | _ => true)

/-- Element bytes of a tile, and its slot size (R157). -/
def Tensor.tileBytes (t : Tensor) : Nat := t.rows * t.cols * t.fmt.width / 8
def pow2Up : Nat → Nat → Nat
  | 0, b => b
  | n + 1, b => if b ≤ 64 then 64 else 2 * pow2Up n ((b + 1) / 2)
def Tensor.slotSize (t : Tensor) : Nat := pow2Up 32 t.tileBytes
/-- Tiles along a dimension (R155). -/
def Tensor.tiles (t : Tensor) (k : Nat) : Nat :=
  let d := t.dims.getD k 0
  if k = 0 then d / t.cols else if k = 1 then d / t.rows else d
/-- Blocks of a tile (R28, R31). -/
def Tensor.blocks (t : Tensor) : Nat := t.rows * t.cols / t.fmt.block

/-! Entries (R158 to R160). -/

def kindCode : TileKind → Nat
  | .unconf => 0 | .stored => 1 | .zero => 2 | .const => 3 | .ramp => 4 | .rep => 5
/-- The bits of an entry (R158). -/
def entryBits (e : TileEntry) : BitVec 128 :=
  BitVec.ofNat 4 (kindCode e.kind) ++ (if e.hnan then 1#1 else 0#1) ++ (if e.hinf then 1#1 else 0#1)
    ++ (if e.dirty then 1#1 else 0#1) ++ (if e.pin then 1#1 else 0#1) ++ BitVec.ofNat 5 e.list.length
    ++ BitVec.ofNat 8 e.maxexp ++ e.payload
/-- The pairs of an exception record (R160). -/
def pairsOf (bs : List Byte) (n : Nat) : List ExcPair :=
  (List.range n).map fun i =>
    let w := leNat ((bs.drop (8 * i)).take 8)
    { row := nbits w 6 6, col := nbits w 0 6, value := BitVec.ofNat 32 (nbits w 32 32) }
/-- The record of a list (R160). -/
def pairBytes (l : List ExcPair) : List Byte :=
  l.flatMap fun p => leBytes 8 (p.col + p.row * 64 + p.value.toNat * 2 ^ 32)

/-- Payload fields of R159. -/
def plConst (v : Nat) : BitVec 107 := BitVec.ofNat 107 (v % 2 ^ 64)
def plRamp (axis step base : Nat) : BitVec 107 := BitVec.ofNat 107 (axis % 4 * 2 ^ 64 + step % 2 ^ 32 * 2 ^ 32 + base % 2 ^ 32)
def plRep (pr pc src : Nat) : BitVec 107 := BitVec.ofNat 107 (pc % 64 * 2 ^ 57 + pr % 64 * 2 ^ 51 + src % 2 ^ 51)
def plStored (space off : Nat) : BitVec 107 := BitVec.ofNat 107 (space % 8 * 2 ^ 53 + off % 2 ^ 20)
def plField (e : TileEntry) (lo n : Nat) : Nat := nbits e.payload.toNat lo n

/-- R160: formats that may have an exception list. -/
def listFmt : Fmt → Bool
  | .f32 | .f16 | .bf16 | .e4m3 | .e5m2 => true
  | .int n => decide (n ≤ 32)
  | .nat n => decide (n ≤ 32)
  | _ => false

/-- R159: the reserved payload bits are zero. -/
def payloadOk (e : TileEntry) : Bool :=
  let p := e.payload.toNat
  match e.kind with
  | .unconf => decide (p = 0)
  | .zero => decide (p = 0)
  | .const => decide (p < 2 ^ 64)
  | .ramp => decide (p < 2 ^ 66) && decide (nbits p 64 2 ≠ 3)
  | .rep => decide (p < 2 ^ 63)
  | .stored => decide (p < 2 ^ 56) && decide (nbits p 20 33 = 0)

/-- R158: the entry of 128 bits in memory with its exception record, or none when it is malformed. -/
def entryOf (t : Tensor) (x : BitVec 128) (record : List Byte) : Option TileEntry :=
  let w := x.toNat
  let k? : Option TileKind := match nbits w 124 4 with
    | 0 => some .unconf | 1 => some .stored | 2 => some .zero | 3 => some .const | 4 => some .ramp | 5 => some .rep | _ => none
  let n := nbits w 115 5
  match k? with
  | none => none
  | some k =>
    let e : TileEntry := { kind := k, hnan := x.getLsbD 123, hinf := x.getLsbD 122, dirty := x.getLsbD 121, pin := x.getLsbD 120,
                           maxexp := nbits w 107 8, payload := x.setWidth 107, list := pairsOf record (min n 16) }
    if 16 < n ∨ (n ≠ 0 ∧ k ≠ .zero ∧ k ≠ .const) ∨ (n ≠ 0 ∧ (t.scale = 0 ∨ !listFmt t.fmt)) ∨ e.dirty ∨ !payloadOk e
        ∨ (k = .stored ∧ plField e 53 3 ≠ 0) then none
    else some e

/-! Elements. -/

/-- An element: its pattern (for a block format, the decoded value as an F32 pattern), its exact value, and whether it is an
undecodable escape of a stored E2M1 block (R29). -/
structure Elem where
  pat : Nat
  val : FVal
  bad : Bool := false
deriving DecidableEq, Repr, Inhabited

def elemOf (t : Fmt) (x : Nat) : Elem := { pat := x % 2 ^ t.width, val := fvalOf t x }
/-- The F32 pattern of a value, under RN and OVF. -/
def f32Pat (v : FVal) : Nat := (roundF .f32 {} v { lfsr := 0 }).1
def elemVal (v : FVal) : Elem := { pat := f32Pat v, val := v }

/-- R163: equality of element values: −0 is +0 and every NaN one value. -/
def sameVal (a b : FVal) : Bool :=
  if Sem.isNaN a || Sem.isNaN b then Sem.isNaN a && Sem.isNaN b else Sem.cmp a b == .eq

/-- The blocks of a list of values. -/
def chunks {α : Type} : Nat → Nat → List α → List (List α)
  | 0, _, _ => []
  | n + 1, k, l => match l with | [] => [] | _ => l.take k :: chunks n k (l.drop k)

/-- Values as block-format bytes: element data and scale records (E2M1) or exponent bytes (Bn) (R28 to R32). -/
def encodeBlocks (t : Fmt) (r : Rnd) (vs : List FVal) (d : Draw) : (List Byte × List Byte) × Draw :=
  (chunks (vs.length + 1) t.block vs).foldl (fun ((ds, ss), d) b =>
    match t with
    | .bfp n => let (x, d) := bEncode n r b d; ((ds ++ bBytes n x, ss ++ [BitVec.ofNat 8 x.exp]), d)
    | _ => let (x, d) := e2Encode r b d; ((ds ++ e2Bytes x, ss ++ leBytes 16 x.scale), d)) (([], []), d)

/-- Block-format bytes as elements (R29, R31). -/
def decodeBlocks (t : Fmt) (count : Nat) (data scales : List Byte) : List Elem :=
  (List.range (count / t.block)).flatMap fun q =>
    match t with
    | .bfp n => (bDecode n { mants := bMants n ((data.drop (2 * n * q)).take (2 * n)), exp := (scales.getD q 0).toNat }).map elemVal
    | _ =>
      (e2Elements { codes := e2Codes ((data.drop (16 * q)).take 16), scale := leNat ((scales.drop (16 * q)).take 16) }).map
        fun x => { elemVal x.1 with bad := x.2 }
/-- The undecodable escapes of elements (R29). -/
def escapesOf (es : List Elem) : Nat := (es.filter Elem.bad).length
/-- The elements that are NaN. -/
def nansOf (es : List Elem) : Nat := (es.filter fun e => Sem.isNaN e.val).length

/-- The elements of stored bytes, row-major (R175). -/
def elemsOfBytes (t : Fmt) (count : Nat) (data scales : List Byte) : List Elem :=
  if t.isBlock then decodeBlocks t count data scales
  else (List.range count).map fun i => elemOf t (leNat ((data.drop (i * (t.width / 8))).take (t.width / 8)))

/-- The bytes of elements of a format that is no block format. -/
def bytesOfElems (t : Fmt) (es : List Elem) : List Byte := es.flatMap fun e => leBytes (t.width / 8) e.pat

/-- Bytes of scale data of a tile (R175). -/
def scaleBytes (t : Fmt) (count : Nat) : Nat :=
  match t with | .e2m1 => 16 * (count / 32) | .bfp _ => count / 16 | _ => 0

/-- The value of a RAMP element (R159), exact. -/
def rampVal (t : Fmt) (cols : Nat) (e : TileEntry) (r c : Nat) : FVal :=
  let x : Nat := match plField e 64 2 with | 0 => c | 1 => r | _ => r * cols + c
  if t.isInt then
    let i := (BitVec.ofNat 32 (plField e 0 32)).toInt + (BitVec.ofNat 32 (plField e 32 32)).toInt * x
    .fin (decide (i < 0)) i.natAbs 0
  else
    Sem.add false (decodeFloat .f32 (plField e 0 32)) (Sem.mul (decodeFloat .f32 (plField e 32 32)) (.fin false x 0))

/-- The element of an exact value: rounded RN under OVF, or wrapped for an integer format (R159). -/
def elemRound (t : Fmt) (v : FVal) : Elem :=
  if t.isFloat then elemOf t (roundF t {} v { lfsr := 0 }).1
  else elemOf t (fitInt t false (Sem.floor v) { lfsr := 0 }).1

/-- Values of a block-format symbol, encoded by R30 or R32 under RN and decoded again (R159). -/
def reencode (t : Fmt) (vs : List FVal) : List Elem :=
  let (bs, _) := encodeBlocks t {} vs { lfsr := 0 }
  decodeBlocks t vs.length bs.1 bs.2

/-- The base value of a ZERO or CONST entry. -/
def baseElem (t : Fmt) (e : TileEntry) : Elem :=
  if e.kind = .zero then { pat := 0, val := .fin false 0 0 }
  else if t.isBlock then elemVal (decodeFloat .f32 (plField e 0 32))
  else elemOf t (plField e 0 64)

/-- The positions of a tile, row-major. -/
def positions (rows cols : Nat) : List (Nat × Nat) :=
  (List.range rows).flatMap fun r => (List.range cols).map fun c => (r, c)

/-- R159: the elements of a symbolic entry other than REPEAT, with each exception pair in place; the zeros of a RAMP that a symbolic
resolution gave are +0 (R164). -/
def symbolElems (t : Fmt) (rows cols : Nat) (e : TileEntry) : List Elem :=
  let ps := positions rows cols
  match e.kind with
  | .zero | .const =>
    let b := baseElem t e
    if t.isBlock then reencode t (ps.map fun _ => b.val)
    else ps.map fun (r, c) =>
      match e.list.find? fun p => p.row == r && p.col == c with
      | some p => elemOf t p.value.toNat
      | none => b
  | .ramp =>
    if t.isBlock then reencode t (ps.map fun (r, c) => rampVal t cols e r c)
    else ps.map fun (r, c) =>
      let x := elemRound t (rampVal t cols e r c)
      if e.plus && Sem.isZero x.val then { pat := 0, val := .fin false 0 0 } else x
  | _ => ps.map fun _ => { pat := 0, val := .fin false 0 0 }

/-- MAXEXP of R158. -/
def maxExpOf (es : List Elem) : Nat :=
  let m := maxMagnitude (es.map (·.val))
  if Sem.isZero m then 0 else (min (max (Sem.log2 m + 127) 0) 254).toNat
/-- An entry with its summary computed from elements. -/
def withSummary (e : TileEntry) (es : List Elem) : TileEntry :=
  { e with hnan := es.any fun x => Sem.isNaN x.val, hinf := es.any fun x => Sem.isInf x.val, maxexp := maxExpOf es }

/-- The F32 pattern of a value that F32 represents. -/
def f32Exact (v : FVal) : Option Nat :=
  match v with
  | .nan => some Fmt.f32.nanBits
  | .inf s => some (Fmt.f32.infBits s)
  | .fin _ _ _ => if sameVal (decodeFloat .f32 (f32Pat v)) v then some (f32Pat v) else none

/-- The canonical pattern of a value in a CONST payload: NaN canonical, −0 as +0 (R163, R164). -/
def constPat (t : Fmt) (x : Elem) : Option Nat :=
  if t.isBlock then f32Exact x.val
  else if Sem.isNaN x.val then some t.nanBits
  else if Sem.isZero x.val then some 0 else some x.pat

/-- R163: detection on write: ZERO, CONST, or none for a tile that stays STORED. -/
def detect (t : Fmt) (es : List Elem) : Option TileEntry :=
  match es with
  | [] => none
  | x :: _ =>
    if es.all fun y => Sem.isZero y.val then some { kind := .zero }
    else if es.all fun y => sameVal x.val y.val then
      match constPat t x with
      | some p => some (withSummary { kind := .const, payload := plConst p } [x])
      | none => none
    else none

/-! Handles (R155 to R157). -/

structure Handle where
  tid : Nat
  c : List Nat
deriving DecidableEq, Repr

def handleOf (h : Nat) : Handle :=
  { tid := nbits h 41 10, c := [nbits h 0 12, nbits h 12 13, nbits h 25 8, nbits h 33 4, nbits h 37 2, nbits h 39 2] }

/-- R156: why a handle is refused: a detail of its table, or a translation fault with the address that failed. -/
inductive HandleErr where
  | tile (detail : Nat)
  | page (detail va : Nat)
deriving DecidableEq, Repr

/-- A tile named by handle: its tensor, map index, the places of its map entry and slot, and its entry. -/
structure TileRef where
  tid : Nat
  t : Tensor
  m : Int
  mapAt : Place
  slotAt : Place
  entry : TileEntry
deriving DecidableEq, Repr

/-- The entry of a tensor identifier: the core's copy, or the table's (R154); none when the table cannot be read. -/
def State.tensorWord (s : State) (c : CoreSt) (tid : Nat) : Except VaFail (BitVec 1024) :=
  match c.tile.tensors.find? fun p => p.1 == tid with
  | some p => .ok p.2
  | none =>
    match s.rawVa c.task (dieOf c.num) (c.tile.ttbase.toNat + 128 * tid) 128 with
    | .ok bs => .ok (BitVec.ofNat 1024 (leNat bs))
    | .error e => .error e

/-- R154: the core reads an entry it has not kept, and keeps it. -/
def State.keepTensor (s : State) (n tid : Nat) : State :=
  let c := s.coreAt n
  match c.tile.tensors.find? fun p => p.1 == tid, s.tensorWord c tid with
  | none, .ok w => s.modCore n fun c => c.modTile fun t => { t with tensors := t.tensors ++ [(tid, w)] }
  | _, _ => s

/-- The map index of coordinates (R155). -/
def Tensor.mapIndex (t : Tensor) (cs : List Nat) : Int :=
  (List.range t.rank).foldl (fun a k => a + (cs.getD k 0 : Int) * t.strides.getD k 0) 0

/-- A computed address taken modulo 2^51 (DESIGN CHOICE, log 111). -/
def addrInt (i : Int) : Nat := (i % (2 ^ 51 : Nat)).toNat
/-- R160: the address of an exception record. -/
def Tensor.recordVa (t : Tensor) (m : Int) : Nat := addrInt (t.scale + 128 * m)
/-- The address of a tile's scale data: its blocks follow one another in map order (log 16). -/
def Tensor.scaleVa (t : Tensor) (m : Int) : Nat :=
  addrInt (t.scale + (scaleBytes t.fmt (t.rows * t.cols) : Int) * m)

/-- Bytes that belong to a tile at a virtual address, as the tile's home sees them, so that they are of one moment with its entry (R259);
a failed translation is reported as for its handle (R156, R182). -/
def State.tileVa (s : State) (c : CoreSt) (home va len : Nat) : Except HandleErr (List Byte) :=
  match s.rawVa c.task (dieOf c.num) va len home with
  | .ok bs => .ok bs
  | .error (.page d) => .error (.page d va)
  | .error _ => .error (.tile 4)

/-- The 128 bits of a map entry as the home die `d` holds them. -/
def State.mapBits (s : State) (d : Nat) (mapAt : Place) : BitVec 128 :=
  BitVec.ofNat 128 (leNat (if mapAt.node = s.fab.node.toNat then s.readView d (paKey mapAt.die mapAt.pa) 16 else s.remoteBytes mapAt 16))
/-- R160: the exception record of an entry, which its home `d` holds; only a list is read. That a record which does not translate fails
the use of the tile as its other bytes do is the model's choice (log 24). -/
def State.mapRecord (s : State) (c : CoreSt) (d : Nat) (t : Tensor) (x : BitVec 128) (m : Int) : Except HandleErr (List Byte) :=
  let n := nbits x.toNat 115 5
  if n = 0 ∨ 16 < n ∨ t.scale = 0 then .ok [] else s.tileVa c d (t.recordVa m) 128
/-- The map entry of index `m` with its exception record, as the home of a die holds them; a malformed one is detail 4. -/
def State.mapEntry (s : State) (c : CoreSt) (d : Nat) (t : Tensor) (mapAt : Place) (m : Int) : Except HandleErr TileEntry :=
  let x := s.mapBits d mapAt
  if (entryOf t x []).isNone then .error (.tile 4)
  else match s.mapRecord c d t x m with
    | .ok record => ((entryOf t x record).map Except.ok).getD (.error (.tile 4))
    | .error e => .error e

/-- R156: coordinates that lie outside a tensor. -/
def Tensor.outside (t : Tensor) (cs : List Nat) : Bool :=
  (List.range 6).any fun k => decide (if k < t.rank then t.tiles k ≤ cs.getD k 0 else cs.getD k 0 ≠ 0)
/-- R156: the tile of a handle, in the order of its checks. -/
def State.resolve (s : State) (c : CoreSt) (hw : Nat) : Except HandleErr TileRef :=
  let h := handleOf hw
  match s.tensorWord c h.tid with
  | .error (.page d) => .error (.page d (c.tile.ttbase.toNat + 128 * h.tid))
  | .error _ => .error (.tile 1)
  | .ok w =>
    let t := tensorOf w
    if t.rank = 0 ∨ !t.ok then .error (.tile 1)
    else if t.map = 0 then .error (.tile 2)
    else if t.outside h.c then .error (.tile 3)
    else
      let m := t.mapIndex h.c
      let mapVa := addrInt (t.map + 16 * m)
      let slotVa := addrInt (t.slots + t.slotSize * m)
      match s.translate c.task (dieOf c.num) mapVa .read, s.translate c.task (dieOf c.num) slotVa .read with
      | .error d, _ => .error (.page d mapVa)
      | _, .error d => .error (.page d slotVa)
      | .ok mp, .ok sp =>
        if (entryOf t (s.mapBits mp.die mp) []).isNone then .error (.tile 4)
        else if mp.node ≠ sp.node ∨ mp.die ≠ sp.die then .error (.tile 5)
        else if mp.node ≠ s.fab.node.toNat ∨ !pteTm sp.pte ∨ pteTid sp.pte ≠ h.tid
            ∨ (pteQ sp.pte : Int) ≠ (t.slotSize * m).fdiv 32768 then .error (.tile 6)
        else match s.mapEntry c mp.die t mp m with
          | .error e => .error e
          | .ok e => .ok { tid := h.tid, t := t, m := m, mapAt := mp, slotAt := sp, entry := e }

/-- The stored bytes of a tile at its home: element data and scale data. -/
def State.slotBytes (s : State) (c : CoreSt) (r : TileRef) : Except HandleErr (List Byte × List Byte) :=
  let d := r.slotAt.die
  let data := s.readView d (paKey d r.slotAt.pa) r.t.tileBytes
  let n := scaleBytes r.t.fmt (r.t.rows * r.t.cols)
  if n = 0 then .ok (data, [])
  else match s.tileVa c d (r.t.scaleVa r.m) n with
    | .ok sc => .ok (data, sc)
    | .error e => .error e

/-- The elements of a tile whose entry is no REPEAT (R159); UNCONF has none. -/
def State.plainElems (s : State) (c : CoreSt) (r : TileRef) : Except HandleErr (List Elem) :=
  if r.entry.kind = .stored then
    match s.slotBytes c r with
    | .ok (d, sc) => .ok (elemsOfBytes r.t.fmt (r.t.rows * r.t.cols) d sc)
    | .error e => .error e
  else .ok (symbolElems r.t.fmt r.t.rows r.t.cols r.entry)

/-- R159, R180: the source of a REPEAT of a format: its handle refused as R156 refuses it, or detail 4 where it is none that the
device could have recorded. -/
def State.repSource (s : State) (c : CoreSt) (t : Fmt) (e : TileEntry) : Except HandleErr TileRef :=
  match s.resolve c (plField e 0 51) with
  | .ok r =>
    if r.entry.kind = .unconf ∨ r.entry.kind = .rep ∨ r.t.fmt ≠ t ∨ r.t.rows < plField e 51 6 + 1 ∨ r.t.cols < plField e 57 6 + 1
    then .error (.tile 4) else .ok r
  | .error x => .error x

/-! What of a tile stands on another module: the reads that come before its use (R218, R257, log 109). Each part is found once `ok` says
that what it is found by has come. -/

/-- The entry of a tensor that the core has not kept. -/
def State.tensorWants (s : State) (c : CoreSt) (tid : Nat) : List (Place × Nat) :=
  if c.tile.tensors.any fun p => p.1 == tid then [] else s.farOf c.task (dieOf c.num) [(c.tile.ttbase.toNat + 128 * tid, 128)]
/-- The entry of a tensor stands on this module, or has come from another. -/
def State.tensorHere (s : State) (c : CoreSt) (tid : Nat) : Bool :=
  (s.tensorWants c tid).all fun w => (s.farByte w.1.node w.1.die w.1.pa).isSome
/-- The exception record of a map entry. -/
def State.recordWants (s : State) (c : CoreSt) (t : Tensor) (x : BitVec 128) (m : Int) : List (Place × Nat) :=
  let n := nbits x.toNat 115 5
  if n = 0 ∨ 16 < n ∨ t.scale = 0 then [] else s.farOf c.task (dieOf c.num) [(t.recordVa m, 128)]
/-- What the use of a handle reads: the tensor entry, the map entry, its record, the scale data, and the same of the source of a
REPEAT; `depth` bounds the sources. -/
def State.handleWants (s : State) (c : CoreSt) (ok : List (Place × Nat) → Bool) : Nat → Nat → List (Place × Nat)
  | 0, _ => []
  | depth + 1, hw =>
    let h := handleOf hw
    let e := s.tensorWants c h.tid
    if !ok e then e
    else match s.tensorWord c h.tid with
      | .error _ => e
      | .ok w =>
        let t := tensorOf w
        if t.rank = 0 ∨ !t.ok ∨ t.map = 0 ∨ t.outside h.c then e
        else
          let m := t.mapIndex h.c
          let mapVa := addrInt (t.map + 16 * m)
          let a := s.farOf c.task (dieOf c.num) [(mapVa, 16)]
          if !ok a then e ++ a
          else match s.translate c.task (dieOf c.num) mapVa .read with
            | .error _ => e ++ a
            | .ok mp =>
              let r := s.recordWants c t (s.mapBits mp.die mp) m
              let k := scaleBytes t.fmt (t.rows * t.cols)
              let sc := if k = 0 then [] else s.farOf c.task (dieOf c.num) [(t.scaleVa m, k)]
              if !ok r then e ++ a ++ r
              else match s.mapEntry c mp.die t mp m with
                | .error _ => e ++ a ++ r
                | .ok x => e ++ a ++ r ++ sc ++ if x.kind = .rep then s.handleWants c ok depth (plField x 0 51) else []
/-- What the elements of a register's REPEAT read. -/
def State.repWants (s : State) (c : CoreSt) (ok : List (Place × Nat) → Bool) (e : TileEntry) : List (Place × Nat) :=
  if e.kind = .rep then s.handleWants c ok 1 (plField e 0 51) else []

/-- R154, R180: the core keeps the tensor entry that it reads for the source of a REPEAT. -/
def State.keepSource (s : State) (n : Nat) (e : TileEntry) : State := if e.kind = .rep then s.keepTensor n (plField e 41 10) else s

/-- R159: the elements of an entry of a format and shape; `stored` gives those of a STORED one; a REPEAT whose source is refused
has none. -/
def State.entryElems (s : State) (c : CoreSt) (t : Fmt) (rows cols : Nat) (e : TileEntry) (stored : List Elem) :
    Except HandleErr (List Elem) :=
  match e.kind with
  | .stored => .ok stored
  | .rep =>
    match s.repSource c t e with
    | .error x => .error x
    | .ok r =>
      match s.plainElems c r with
      | .error x => .error x
      | .ok es =>
        let a := es.toArray
        .ok ((positions rows cols).map fun (x, y) =>
          a.getD ((x % (plField e 51 6 + 1)) * r.t.cols + y % (plField e 57 6 + 1)) { pat := 0, val := .nan })
  | _ => .ok (symbolElems t rows cols e)

/-! Counts of tensors (R39 to R42). -/

/-- R40: an addition to a block of another module leaves as non-returning additions of its counts and TASKS, and as a write of LASTINST,
on the path of the atomics (log 109). -/
def State.sendStats (s : State) (t : TaskSt) (die : Nat) (p : Place) (st : Stats) (inst : BitVec 32) (org : Nat × Nat) : State :=
  let (u, s) := s.takeUid
  let ord := pathOrdered t 6
  let add (off ty : Nat) (bs : List Byte) : FlowItem :=
    { p := { s.packetTo kRED die p.node p.die ord with nbytes := BitVec.ofNat 12 bs.length, pa := BitVec.ofNat 42 (p.pa + off),
                                                       payload := bs, aux := BitVec.ofNat 48 (16 * ty) }, use := .store org.1 u }
  let items := [add 0 0xF (leBytes 8 st.sat ++ leBytes 8 st.flush ++ leBytes 8 st.nan ++ leBytes 8 st.esc ++ leBytes 8 st.skip),
    add 40 0xE (leBytes 4 1)] ++ s.writeItems die { p with pa := p.pa + 44 } ord (leBytes 4 inst.toNat) (.store org.1 u)
  match s.flowSend t.ctx die p.node ord items with
  | some s => { s with mem := { s.mem with flying := s.mem.flying ++ [{ uid := u, core := org.1, path := 6, what := .load }] } }
  | none => s

/-- R40, R42, R43: an addition to a statistics block at its home; one that cannot be made is dropped. -/
def State.addStats (s : State) (t : TaskSt) (die va : Nat) (st : Stats) (inst : BitVec 32) (org : Nat × Nat) : State :=
  if va = 0 ∨ va % 64 ≠ 0 then s
  else match s.placeVa t die va .write with
    | .error (.remote p) => s.sendStats t die p st inst org
    | .error _ => s
    | .ok p =>
      let key := paKey p.die p.pa
      let word (i x : Nat) : List (Nat × Byte) := spanAt (key + 8 * i) (leBytes 8 (min (s.readLE p.die (key + 8 * i) 8 + x) (2 ^ 64 - 1)))
      s.emitWrite p.die (word 0 st.sat ++ word 1 st.flush ++ word 2 st.nan ++ word 3 st.esc ++ word 4 st.skip
        ++ spanAt (key + 40) (leBytes 4 ((s.readLE p.die (key + 40) 4 + 1) % 2 ^ 32) ++ leBytes 4 inst.toNat)) (some org)

/-- The statistics block of a tensor as a core knows it; 0 where it knows none. -/
def State.statsVa (s : State) (c : CoreSt) (tid : Nat) : Nat :=
  match s.tensorWord c tid with
  | .ok w => (tensorOf w).stats
  | .error _ => 0

/-- The task instance a core's thread is of; 0 for a thread without a task. -/
def State.instOf (s : State) (c : CoreSt) : BitVec 32 :=
  match c.task.gang with
  | some g => ((s.sched.gangs.find? fun x => x.id == g).map fun x => x.task.inst).getD 0
  | none => 0

/-- R40: counts added to a cache of 32 tensors, the most recently charged first, and the one that gives way. -/
def cacheStats (l : List (Nat × Stats)) (tid : Nat) (st : Stats) : List (Nat × Stats) × Option (Nat × Stats) :=
  let old := ((l.find? fun p => p.1 == tid).map (·.2)).getD {}
  let l := (tid, old.add st) :: l.filter fun p => p.1 != tid
  if 32 < l.length then (l.dropLast, l.getLast?) else (l, none)

/-- R41: what a snapshot holds of the counts of a tensor: more by `st`, where a command of an earlier phase has counted, and nothing of a
tensor whose counts have left the cache. -/
def CoreSt.snapCache (c : CoreSt) (f : List (Nat × Stats) → List (Nat × Stats)) : CoreSt :=
  c.modPh fun p => { p with snap := p.snap.map fun x => { x with counts := { x.counts with cache := f x.counts.cache } } }

/-- R39 to R41: events charged to a tensor by a write of a core's thread, `v` what the write carries: into the core's cache while the
thread has the core, else to its gang. A tensor without a statistics block is not counted. `keep` says that a rollback keeps them. -/
def State.chargeTensor (s : State) (n : Nat) (v : TileView) (tid : Nat) (st : Stats) (keep : Bool := false) : State :=
  let c := s.coreAt n
  if st = {} then s
  else if c.task.thread = v.thread ∧ c.task.gang = v.gang then
    if s.statsVa c tid = 0 then s
    else
      let (l, out) := cacheStats c.cnt.cache tid st
      let s := s.modCore n fun c =>
        let c := c.modCnt fun k => { k with cache := l }
        if keep then c.snapCache fun l => (cacheStats l tid st).1 else c
      match out with
      | some (x, y) =>
        (s.modCore n fun c => c.snapCache fun l => l.filter fun p => p.1 != x).addStats c.task (dieOf n) (s.statsVa c x) y (s.instOf c) (n, 6)
      | none => s
  else
    let va := s.statsVa { num := n, task := v.space.task, tile := { tensors := v.tensors, ttbase := v.ttbase } } tid
    let add (g : Gang) : Gang := if v.gang = some g.id then { g with cache := g.cache ++ [(va, st)] } else g
    { s with sched := { s.sched with gangs := s.sched.gangs.map add } }

/-! Plain loads and stores (R165, R166). -/

/-- The core as an access it has issued carries it (R165). -/
def PagePiece.agent (p : PagePiece) (n : Nat) : CoreSt :=
  { num := n, task := p.view.space.task, tile := { tensors := p.view.tensors, ttbase := p.view.ttbase } }

/-- R165: what an access of a core to a tile-mapped page carries: the tensor entry of the page, read now if the core has not kept it; one
that cannot be read counts as not well formed. -/
def State.viewed (s : State) (n : Nat) (p : PagePiece) : PagePiece :=
  if !pteTm p.pte then p
  else
    let c := s.coreAt n
    let w := (s.tensorWord c (pteTid p.pte)).toOption.getD 0
    { p with view := { tensors := [(pteTid p.pte, w)] ++ c.tile.tensors, ttbase := c.tile.ttbase, space := c.task.space,
                       thread := c.task.thread, gang := c.task.gang } }
/-- R154, R165: the pieces of an access as it issues: the core keeps the tensor entries it has read for it. -/
def State.carryAll (s : State) (n : Nat) (ps : List PagePiece) : List PagePiece × State :=
  (ps.map (s.viewed n), (ps.filter fun p => pteTm p.pte).foldl (fun s p => s.keepTensor n (pteTid p.pte)) s)

/-- What a plain access to a tile-mapped page reads on another module: the tensor entry, and the records of the tiles it falls into
(log 109). -/
def State.pageWants (s : State) (c : CoreSt) (ok : List (Place × Nat) → Bool) (p : PagePiece) : List (Place × Nat) :=
  if !pteTm p.pte then []
  else
    let e := s.tensorWants c (pteTid p.pte)
    if !ok e then e
    else match s.tensorWord c (pteTid p.pte) with
      | .error _ => e
      | .ok w =>
        let t := tensorOf w
        if !t.ok ∨ t.map = 0 ∨ t.slots + 32768 * pteQ p.pte ≠ p.va / 32768 * 32768 then e
        else
          let b := t.slotSize
          let ms := ((List.range p.len).map fun i => pteQ p.pte * (32768 / b) + (p.va + i) % 32768 / b).eraseDups
          e ++ ms.flatMap fun (m : Nat) => match s.placeVa c.task (dieOf c.num) (addrInt (t.map + 16 * (m : Int))) .read with
            | .error _ => []
            | .ok mp =>
              let r := s.recordWants c t (s.mapBits p.die mp) m
              if !ok r then r
              else match s.mapEntry c p.die t mp m with
                | .error _ => r
                | .ok x => r ++ s.repWants c ok x

/-- R165: the tile of a tile-mapped page that an address falls into, if the page is one of its tensor; what does not translate
makes it ordinary memory (log 24). -/
def State.pageTile (s : State) (c : CoreSt) (p : Place) (va : Nat) : Option TileRef :=
  match s.tensorWord c (pteTid p.pte) with
  | .error _ => none
  | .ok w =>
    let t := tensorOf w
    if !t.ok ∨ t.map = 0 ∨ t.slots + 32768 * pteQ p.pte ≠ va / 32768 * 32768 then none
    else
      let b := t.slotSize
      let m : Int := (pteQ p.pte * (32768 / b) + va % 32768 / b : Nat)
      match s.placeVa c.task (dieOf c.num) (addrInt (t.map + 16 * m)) .read with
      | .error _ => none
      | .ok mp =>
        match s.mapEntry c p.die t mp m with
        | .error _ => none
        | .ok e =>
          let r : TileRef := { tid := pteTid p.pte, t := t, m := m, mapAt := mp, slotAt := { p with pa := p.pa / b * b }, entry := e }
          if e.kind = .rep ∧ (s.repSource c t.fmt e).toOption.isNone then none else some r

/-- The bytes of a symbolic tile (R159) with its scale data, and the events of encoding them; a slot's bytes beyond the tile keep what
they hold. -/
def State.synthBytes (s : State) (c : CoreSt) (r : TileRef) : Option ((List Byte × List Byte) × Stats) :=
  match s.entryElems c r.t.fmt r.t.rows r.t.cols r.entry [] with
  | .error _ => none
  | .ok es =>
    if r.t.fmt.isBlock then (let x := encodeBlocks r.t.fmt {} (es.map (·.val)) { lfsr := 0 }; some (x.1, x.2.st))
    else some ((bytesOfElems r.t.fmt es, []), { nan := nansOf es })

def symbolic (k : TileKind) : Bool := k != .unconf && k != .stored

/-- R165: one byte by a plain load. -/
def State.plainByte (s : State) (c : CoreSt) (die : Nat) (p : Place) (va : Nat) : Byte :=
  if !pteTm p.pte then Mem.read (vat s.mem.views die) (paKey p.die p.pa)
  else
    let home := Mem.read (vat s.mem.views p.die) (paKey p.die p.pa)
    match s.pageTile c p va with
    | none => home
    | some r =>
      if symbolic r.entry.kind then
        match s.synthBytes c r with
        | some bs => bs.1.1.getD (p.pa - r.slotAt.pa) home
        | none => home
      else home

/-- R165: bytes of one page by a plain load. -/
def State.plainBytes (s : State) (c : CoreSt) (die : Nat) (p : Place) (va len : Nat) : List Byte :=
  if !pteTm p.pte then s.readView die (paKey p.die p.pa) len
  else (List.range len).map fun i => s.plainByte c die { p with pa := p.pa + i } (va + i)

/-- `len` bytes at a virtual address by plain loads. -/
def State.plainVa (s : State) (c : CoreSt) (va len : Nat) : Except VaFail (List Byte) :=
  (extentPieces va len).foldl (fun acc (a, k) =>
    match acc with
    | .error e => .error e
    | .ok bs =>
      match s.placeVa c.task (dieOf c.num) a .read with
      | .error (.remote p) => .ok (bs ++ s.remoteBytes p k)
      | .error e => .error e
      | .ok p => .ok (bs ++ s.plainBytes c (dieOf c.num) p a k)) (.ok [])

/-- R43, R166, R173: a count that saturates at all ones. -/
def satAdd (x : BitVec 64) (n : Nat) : BitVec 64 := BitVec.ofNat 64 (min (x.toNat + n) (2 ^ 64 - 1))

/-- The write of a map entry as memory bytes. -/
def entrySpan (mp : Place) (e : TileEntry) : List (Nat × Byte) :=
  spanAt (paKey mp.die mp.pa) (leBytes 16 (entryBits { e with dirty := false }).toNat)

/-- Bytes of a tile beside its slot, page by page, at their places on this module. -/
def State.besideSpan (s : State) (c : CoreSt) (va : Nat) (bs : List Byte) : List (Nat × Byte) :=
  (extentPieces va bs.length).flatMap fun (a, k) =>
    match s.placeVa c.task (dieOf c.num) a .write with
    | .ok p => spanAt (paKey p.die p.pa) ((bs.drop (a - va)).take k)
    | .error _ => []
/-- Those on another module leave as WRITEs (log 109). -/
def State.besideSend (s : State) (c : CoreSt) (va : Nat) (bs : List Byte) : State :=
  (extentPieces va bs.length).foldl (fun (s : State) (a, k) =>
    match s.placeVa c.task (dieOf c.num) a .write with
    | .error (.remote p) =>
      (s.flowSend c.task.ctx (dieOf c.num) p.node true (s.writeItems (dieOf c.num) p true ((bs.drop (a - va)).take k) .reply)).getD s
    | _ => s) s

/-- An entry whose summary takes that of further elements in: OR and maximum (R166, R183, R187). -/
def TileEntry.merge (e : TileEntry) (es : List Elem) : TileEntry :=
  let x := withSummary e es
  { e with hnan := e.hnan || x.hnan, hinf := e.hinf || x.hinf, maxexp := max e.maxexp x.maxexp }

/-- R166: a store that has landed in a STORED tile updates its summary from the elements it touched; the elements of a block
format are judged together (log 25). -/
def State.storedSummary (s : State) (c : CoreSt) (r : TileRef) (pa len : Nat) (org : Option (Nat × Nat)) : State :=
  let es := (s.plainElems c r).toOption.getD []
  let w := r.t.fmt.width
  let touched := if r.t.fmt.isBlock then es else
    let lo := 8 * (pa - r.slotAt.pa) / w
    (es.drop lo).take ((8 * (pa - r.slotAt.pa + len) + w - 1) / w - lo)
  let e := r.entry.merge touched
  if e = r.entry then s else s.emitWrite r.slotAt.die (entrySpan r.mapAt e) org

/-- R173: a promotion counts in PROMCNT of the thread that stored, on its core or saved; what a rollback restores counts it too, because
a store that has left is of an earlier phase or has made the phase irrevocable (R387). -/
def State.countPromotion (s : State) (n thread : Nat) : State :=
  let up (k : CountSt) : CountSt := { k with promcnt := satAdd k.promcnt 1 }
  let bump (c : CoreSt) : CoreSt :=
    (c.modCnt up).modPh fun p => { p with snap := p.snap.map fun x => { x with counts := up x.counts } }
  if (s.coreAt n).task.thread = thread then s.modCore n bump
  else { s with sched := { s.sched with
    ckpts := s.sched.ckpts.map fun x => if x.2.task.thread = thread then (x.1, bump x.2) else x } }

/-- R166: bytes of one tile by a plain store at the home, `c` the core as the store carries it: a symbolic tile is promoted first,
which counts (R39, R173), then the store lands as in a STORED tile. The promoted entry is not pinned (log 130). -/
def State.storeTile (s : State) (c : CoreSt) (v : TileView) (p : Place) (va : Nat) (bs : List Byte) (org : Option (Nat × Nat)) : State :=
  let plain := spanAt (paKey p.die p.pa) bs
  match s.pageTile c p va with
  | none => s.emitWrite p.die plain org
  | some r =>
    if symbolic r.entry.kind then
      match s.synthBytes c r with
      | none => s.emitWrite p.die plain org
      | some (whole, st) =>
        let e := withSummary { kind := .stored } (elemsOfBytes r.t.fmt (r.t.rows * r.t.cols) whole.1 whole.2)
        let s := s.emitWrite p.die (spanAt (paKey r.slotAt.die r.slotAt.pa) whole.1 ++ s.besideSpan c (r.t.scaleVa r.m) whole.2
          ++ entrySpan r.mapAt e) org
        let s := s.besideSend c (r.t.scaleVa r.m) whole.2
        let s := (s.chargeTensor c.num v r.tid st true).countPromotion c.num v.thread
        (s.emitWrite p.die plain org).storedSummary c { r with entry := e } p.pa bs.length org
    else if r.entry.kind = .stored then (s.emitWrite p.die plain org).storedSummary c r p.pa bs.length org
    else s.emitWrite p.die plain org

/-- A plain store of bytes of one page at its home (R166, R167): tile by tile on a tile-mapped page; `n` bounds the tiles. -/
def State.plainStore (org : Option (Nat × Nat)) (c : CoreSt) (v : TileView) : Nat → State → Place → Nat → List Byte → State
  | 0, s, _, _, _ => s
  | n + 1, s, p, va, bs =>
    if bs.isEmpty then s
    else if !pteTm p.pte then s.emitWrite p.die (spanAt (paKey p.die p.pa) bs) org
    else
      let b := match s.tensorWord c (pteTid p.pte) with | .ok w => (tensorOf w).slotSize | .error _ => 64
      let k := min bs.length (b - va % b)
      State.plainStore org c v n (s.storeTile c v p va (bs.take k) org) { p with pa := p.pa + k } (va + k) (bs.drop k)

/-! The save area of a context (R334). -/

/-- Bytes written at a virtual address of a core's context, where it translates; on another module by WRITEs (log 109). -/
def State.saveBytes (s : State) (c : CoreSt) (va : Nat) (bs : List Byte) : State :=
  (extentPieces va bs.length).foldl (fun (s : State) (a, k) =>
    match s.placeVa c.task (dieOf c.num) a .write with
    | .ok p => s.writeEverywhere (spanAt (paKey p.die p.pa) ((bs.drop (a - va)).take k))
    | .error (.remote p) =>
      (s.flowSend c.task.ctx (dieOf c.num) p.node true
        (s.writeItems (dieOf c.num) p true ((bs.drop (a - va)).take k) .reply)).getD s
    | .error _ => s) s

end Sys2Proof.Machine
end

