-- ==== Sys2Proof/Machine/Access.lean ====
section
/-! DEFINITION. Accesses of the SEQ and VEC paths: the checks of R111 and R145, scratchpads, windows, multicasts, main memory
and the Progress Engine window, and the device steps that carry them (06, 07, 12, 14). -/

namespace Sys2Proof.Machine

open Sys2Proof Decode

/-! Scratchpads (R204, R211, R335). Buffers are numbered 0 W, 1 A, 2 C. -/

def bufSize (b : Nat) : Nat := if b = 2 then Config.sizeC else Config.sizeA
def TileSt.buf (t : TileSt) (b : Nat) : Mem := if b = 0 then t.bufW else if b = 1 then t.bufA else t.bufC
def TileSt.setBuf (t : TileSt) (b : Nat) (m : Mem) : TileSt :=
  if b = 0 then { t with bufW := m } else if b = 1 then { t with bufA := m } else { t with bufC := m }

/-- R335: the 16 KiB region of a buffer offset, written since the last save. -/
def TrapSt.dirtyAt (r : TrapSt) (b a : Nat) : TrapSt :=
  let j := a / 16384
  if b = 0 then { r with spdirty0 := setBit r.spdirty0 j true }
  else if b = 1 then { r with spdirty1 := setBit r.spdirty1 j true }
  else { r with spdirty0 := setBit r.spdirty0 (48 + j % 16) true }

/-- R210: a command of the core is under way that reads as it completes. -/
def EngSt.reading (e : EngSt) : Bool := e.cmds.any fun k => k.st == .moving && !k.early
/-- R210: the bytes that a write replaces while such a command is under way. -/
def CoreSt.replaced (c : CoreSt) (b : Nat) (bs : List (Nat × Byte)) : List (Nat × Nat × Byte) :=
  if c.eng.reading then c.tile.past ++ bs.map fun p => (b, p.1, Mem.read (c.tile.buf b) p.1) else c.tile.past

/-- Bytes that land in a buffer: the region is dirty (R335), the words are no longer pending (R211), and those
that are replaced whole no longer poisoned (R384). -/
def CoreSt.writeBuf (c : CoreSt) (b : Nat) (bs : List (Nat × Byte)) : CoreSt :=
  if bs.isEmpty then c
  else
    let words := bs.map fun p => p.1 / 32
    let c := c.modTile fun t =>
      { (t.setBuf b (Mem.writeAll (t.buf b) bs)) with
        past := c.replaced b bs,
        pending := t.pending.filter fun w => !(w.1 == b && words.contains w.2),
        badWords := t.badWords.filter fun w => !((w.1 == b || (b == 2 && w.1 == 3)) && (List.range 32).all fun i => bs.any fun p => p.1 == 32 * w.2 + i) }
    let c := c.modQ fun q => { q with veils := q.veils.filter fun v => !(v.buf == b && bs.any fun p => p.1 == v.addr) }
    { c with trap := bs.foldl (fun r p => r.dirtyAt b p.1) c.trap }

/-- R113, R147, R248: a store of the thread to its own buffer lands; a veiled one keeps the bytes it replaces for other agents. -/
def CoreSt.landPad (c : CoreSt) (w : PadWrite) : CoreSt :=
  let t := c.writeBuf w.buf w.bytes
  if !w.veiled then t
  else
    let old := w.bytes.map fun p =>
      ({ path := if w.vec then 1 else 0, uid := w.uid, buf := w.buf, addr := p.1, old := Mem.read (c.tile.buf w.buf) p.1 } : Veil)
    t.modQ fun q => { q with veils := c.q.veils ++ old }

/-- R211: words of a buffer become pending while SPDBG.PEND = 1. -/
def CoreSt.pend (c : CoreSt) (b a n : Nat) : CoreSt :=
  if c.tile.spdbg && decide (0 < n) then
    c.modTile fun t => { t with pending := ((List.range ((a + n - 1) / 32 + 1 - a / 32)).map fun i => (b, a / 32 + i)) ++ t.pending }
  else c
/-- R211: an extent covers a pending word. -/
def CoreSt.isPending (c : CoreSt) (b a n : Nat) : Bool :=
  decide (0 < n) && c.tile.pending.any fun w => w.1 == b && decide (a / 32 ≤ w.2 ∧ w.2 ≤ (a + n - 1) / 32)
/-- R384: an extent covers a poisoned word. -/
def CoreSt.isPoisoned (c : CoreSt) (b a n : Nat) : Bool :=
  decide (0 < n) && c.tile.badWords.any fun w => w.1 == b && decide (a / 32 ≤ w.2 ∧ w.2 ≤ (a + n - 1) / 32)

/-- R394: an uncorrectable error has been consumed on a die. -/
def State.countUe (s : State) (d : Nat) : State :=
  { s with host := { s.host with relUe := vput s.host.relUe d (min (vat s.host.relUe d + 1) (2 ^ 64 - 1)) } }
/-- R390, R391, R394: a path of the thread has consumed an uncorrectable error, or a compare has failed: rollback or kill follows. -/
def State.consumeError (s : State) (core cause : Nat) : State :=
  (if cause = 1 then s else s.countUe (dieOf core)).schedule 0 .rollback { n0 := core, n1 := cause }

/-- The home of a write that stays on the module: a die, or a core's buffers. -/
def homeOf : StoreWhat → Nat × Nat
  | .plain p _ => (0, p.die)
  | .window _ c _ => (1, c)
  | .multicast _ _ => (9, 0)
  | .load => (8, 0)
  | .post => (8, 0)
  | .drop _ => (8, 0)
  | .atomic p _ _ _ _ _ => (0, p.die)
  | .red p _ _ _ => (7, p.node)
  | .commit d _ _ _ _ _ => (0, d)
/-- The bytes of a write, by address. -/
def bytesOf : StoreWhat → List (Nat × Byte)
  | .plain _ bs => bs
  | .window _ _ bs => bs
  | .multicast _ bs => bs
  | .atomic p _ _ _ _ _ => (List.range p.len).map fun i => (p.va + i, 0)
  | _ => []
/-- The write stays on the module. -/
def State.staysHere (s : State) : StoreWhat → Bool
  | .plain p _ => p.node == s.fab.node.toNat
  | .red _ _ _ _ => false
  | _ => true
/-- R248, R258: the write is homed on the die of its core. -/
def State.ownHome (s : State) (f : InFlight) : Bool :=
  s.staysHere f.what && (homeOf f.what == (0, dieOf f.core) || (homeOf f.what).1 == 1 || (homeOf f.what).1 == 9)
/-- Where the bytes of a write stand: physical addresses, or offsets in a buffer. -/
def keysOf : StoreWhat → List Nat
  | .plain p bs => bs.map fun b => paKey p.die (p.pa + (b.1 - p.va))
  | .window _ _ bs => bs.map Prod.fst
  | .multicast _ bs => bs.map Prod.fst
  | .atomic p _ _ _ _ _ => (List.range p.len).map fun i => paKey p.die (p.pa + i)
  | _ => []

/-! Loads. -/

/-- The value of a load from the bytes it reads (R110, R144). -/
def LoadForm.value (l : LoadForm) (rd : Nat → Byte) : RegVal :=
  let elem (a : Nat) : Nat := leNat ((List.range l.width).map fun i => rd (a + i))
  let ext (w : Nat) (x : Nat) : BitVec w := if l.sx then (BitVec.ofNat (8 * l.width) x).signExtend w else BitVec.ofNat w x
  if l.vec then .lanes l.en (tab 64 fun i => if l.en.getLsbD i then ext 32 (elem (l.base + i * l.stride)) else 0)
  else .word (ext 64 (elem l.base))
/-- The bytes from `base` that a load's extent covers. -/
def LoadForm.extent (l : LoadForm) : Nat := if l.stride = 0 then l.width else 63 * l.stride + l.width

/-- R112, R146: the value of a load with the elements that hold a byte which is not good as zero, and whether there is one. -/
def LoadForm.spoiled (l : LoadForm) (bad : Nat → Bool) (v : RegVal) : RegVal × Bool :=
  let hit (a : Nat) : Bool := (List.range l.width).any fun i => bad (a + i)
  match v with
  | .lanes en x =>
    (.lanes en (tab 64 fun i => if hit (l.base + i * l.stride) then 0 else vat x i),
     (List.range 64).any fun i => en.getLsbD i && hit (l.base + i * l.stride))
  | v => if hit l.base then (.word 0, true) else (v, false)

/-- A translated extent of the issuing core. -/
inductive Xlat where
  | pieces (ps : List PagePiece)
  | trap (t : TrapInfo)
  | hold (s : State)
  | fault (f : Fault)

/-- R216: the page of an address is looked up in the last-level TLB and walked to: a walk in flight for the page is joined, and of
64 walkers of the die one must be free. -/
def State.walkFor (s : State) (n va : Nat) (note : CoreSt → CoreSt) : Option State :=
  let c := s.coreAt n
  let wait (s : State) : State := s.modCore n fun c => (note c).count 5
  let arg : EvArg := { n0 := c.num, n1 := va, n2 := 1, w := c.task.asn.setWidth 64 }
  let walks := s.agenda.filter fun e => e.op == .tlbWalkComplete && e.arg.n2 == 1 && dieOf e.arg.n0 == dieOf c.num
  if (vat s.mem.dieTlb (dieOf c.num)).any (tlbHit c.task.asn.toNat va) then some ((wait s).schedule 14 .tlbWalkComplete { arg with n2 := 0 })
  else if walks.any fun e => e.arg.w == arg.w && e.arg.n1 / 32768 == va / 32768 then some (wait s)
  else if 64 ≤ walks.length then none
  else some ((wait s).scheduleFrom 15 .tlbWalkComplete arg)
/-- An access of the core in focus waits for the page of an address. -/
def State.startWalk (s : State) (va : Nat) : State :=
  let page := va / 32768
  if s.core.task.walking.contains page then s
  else (s.walkFor s.core.num va fun c => c.modTask fun t => { t with walking := page :: t.walking }).getD s

/-- R216: an engine or a walker of a core asks for the pages of addresses, each of which the L1 TLB holds, a walk in flight brings, or a walk
is started for; those for which no walker is free are left. -/
def State.engWalks (s : State) (n : Nat) (vas : List Nat) : List Nat × State :=
  vas.foldl (fun (acc : List Nat × State) va =>
    let c := acc.2.coreAt n
    if decide (2 ^ 51 ≤ va) || c.task.tlb.any (tlbHit c.task.asn.toNat va) || c.eng.walking.contains (va / 32768) then acc
    else match acc.2.walkFor n va fun c => c.modEng fun e => { e with walking := va / 32768 :: e.walking } with
      | some s => (acc.1, s)
      | none => (acc.1 ++ [va], acc.2)) ([], s)
/-- R216: what a command asks for first: `walks` is none before it has asked, else what is left; none is answered once every walk that it
asked for has ended. -/
def State.pagesFor (s : State) (n : Nat) (walks : Option (List Nat)) (pages : List Nat) : Option (List Nat × State) :=
  let r := s.engWalks n (walks.getD pages)
  if r.1.isEmpty && !(pages.any fun va => (r.2.coreAt n).eng.walking.contains (va / 32768)) then none else some r

/-- One piece of an extent through the L1 TLB (R216, R219). -/
def State.xlatPiece (s : State) (va len : Nat) (k : Access) (p : Bool) (trapAt : Nat → TrapInfo) : Xlat :=
  let t := s.core.task
  if 2 ^ 51 ≤ va then .trap (trapAt 1)
  else match t.tlb.find? (tlbHit t.asn.toNat va) with
    | some e =>
      (match leafFault e.pte k p with
      | some d => .trap (trapAt d)
      | none =>
        let pl := s.placeOf e va
        if pl.node = s.fab.node.toNat ∧ !paExists pl.pa then .fault (.noSuchAddress pl.die pl.pa)
        else .pieces [{ va := va, len := len, node := pl.node, die := pl.die, pa := pl.pa, pte := pl.pte }])
    | none =>
      match t.walkFault.find? fun w => w.1 == va / 32768 with
      | some w => .trap (trapAt w.2)
      | none => .hold (s.startWalk va)

/-- What translated pieces need from another module is asked for and waited for (log 109). -/
def State.xlatFar (s : State) (ps : List PagePiece) : Xlat :=
  match s.farHold fun ok => ps.flatMap fun p => s.pageWants s.core ok p with
  | some t => .hold t
  | none => .pieces ps
/-- An extent through the L1 TLB: a miss holds issue until the walk ends, so that a fault is precise (R111). -/
def State.xlat (s : State) (va len : Nat) (k : Access) (p : Bool) (trapAt : Nat → TrapInfo) : Xlat :=
  let x : Xlat := (extentPieces va len).foldl (fun (acc : Xlat) (a, n) =>
    match acc with
    | .pieces ps => (match s.xlatPiece a n k p trapAt with
      | .pieces qs => .pieces (ps ++ qs)
      | x => x)
    | x => x) (.pieces [])
  match x with
  | .pieces ps => s.xlatFar ps
  | x => x

/-- The place of a piece. -/
def PagePiece.place (p : PagePiece) : Place := { node := p.node, die := p.die, pa := p.pa, pte := p.pte }

/-- R165, R256, R274: the byte of an address within translated pieces, as a plain load of the core returns it now; a word of the
Progress Engine window is read at its home. -/
def State.pieceByte (s : State) (c : CoreSt) (ps : List PagePiece) (va : Nat) : Byte :=
  match ps.find? fun p => decide (p.va ≤ va ∧ va < p.va + p.len) with
  | none => 0
  | some p =>
    let d := if ptePw p.pte then p.die else dieOf c.num
    s.plainByte (p.agent c.num) d { p.place with pa := p.pa + (va - p.va) } va

/-- R384: a piece covers a poisoned line of memory. -/
def State.badPiece (s : State) (p : PagePiece) : Bool :=
  p.node == s.fab.node.toNat && s.mem.badLines.any fun l => decide (paKey p.die p.pa / 64 ≤ l ∧ l ≤ (paKey p.die p.pa + p.len - 1) / 64)

/-- R384: the byte that a load of a space reads at an address is poisoned. -/
def State.badByte (s : State) (ps : List PagePiece) (space target va : Nat) : Bool :=
  if space = 4 ∨ space = 5 then (s.coreAt target).isPoisoned (space - 3) va 1
  else ps.any fun p => decide (p.va ≤ va ∧ va < p.va + p.len) && s.badPiece { p with va := va, len := 1, pa := p.pa + (va - p.va) }

/-- R203, R248: the bytes that older stores of a core and path, which have not reached their home, hold for a load of a space, the
youngest first, by physical address or offset. -/
def State.ownBytes (s : State) (core path uid space target : Nat) : List (Nat × Byte) :=
  (s.mem.flying.filter fun f => f.core == core && f.path == path && decide (f.uid < uid)).reverse.flatMap fun f =>
    match f.what with
    | .plain _ bs => if (space = 4 ∨ space = 5) || !s.staysHere f.what then [] else (keysOf f.what).zip (bs.map Prod.snd)
    | .window b c bs => if space = b + 3 ∧ target = c then bs else []
    | .multicast mask bs => if space = 4 ∧ mask.getLsbD (coreInCluster target) then bs else []
    | _ => []

/-- R248: a byte of a core's buffer as another agent, the path `path` of core `core`, sees it: one that a store has replaced is still the
old one while an older write of that store's path is on its way to the die. -/
def State.padByte (s : State) (core path target buf a : Nat) : Byte :=
  let c := s.coreAt target
  let hides (v : Veil) : Bool := v.buf == buf && v.addr == a && !(core == target && path == v.path) &&
    s.mem.flying.any fun g => g.core == target && g.path == v.path && decide (g.uid < v.uid) && s.ownHome g
  match c.q.veils.find? hides with
  | some v => v.old
  | none => Mem.read (c.tile.buf buf) a

/-- Where an address of translated pieces stands. -/
def keyIn (ps : List PagePiece) (a : Nat) : Option Nat :=
  (ps.find? fun p => decide (p.va ≤ a ∧ a < p.va + p.len)).map fun p => paKey p.die (p.pa + (a - p.va))

/-- What a local load of the G or P space, or of a window, returns when it is performed, and whether its data has an uncorrectable
error; code 8 stands for the upper half of a map entry read at its home (R185). -/
def State.loadNow (s : State) (c : CoreSt) (l : LoadForm) (ps : List PagePiece) (space target path uid : Nat) : RegVal × Bool :=
  let own := s.ownBytes c.num path uid space target
  let seen (key : Nat → Option Nat) (rd : Nat → Byte) (a : Nat) : Byte :=
    ((own.find? fun p => key a == some p.1).map (·.2)).getD (rd a)
  let v : RegVal :=
    if space = 4 ∨ space = 5 then l.value (seen some (s.padByte c.num path target (space - 3)))
    else if space = 8 then
      (match ps.head? with
      | some p => .word (BitVec.ofNat 64 (s.readLE p.die (paKey p.die p.pa) 8) &&& 0xFFFFF80000000000)
      | none => .word 0)
    else l.value (seen (keyIn ps) fun a => s.pieceByte c ps a)
  l.spoiled (s.badByte ps space target) v

/-- R203, R207, R248: the loads of a core and path older than `uid` that a test picks are performed now, with those of the path before
them: what each returns is decided, and it fills when it is due. -/
def State.performLoads (s : State) (core path uid : Nat) (pick : List PagePiece → Nat → Nat → Bool) : State :=
  let c := s.coreAt core
  let picked (f : Fill) : Bool := match f.src with
    | .load _ ps space target p => decide (p = path ∧ f.uid < uid) && pick ps space target
    | _ => false
  let last := ((c.q.fills.filter picked).map fun f => f.uid + 1).foldl max 0
  let perform (f : Fill) : Fill :=
    match f.src with
    | .load l ps space target p =>
      if p = path ∧ f.uid < last then
        let r := s.loadNow c l ps space target path f.uid
        { f with src := .value r.1, bad := r.2, spad := decide (space = 4 ∨ space = 5) }
      else f
    | _ => f
  if c.q.fills.any fun f => perform f != f then s.modCore core fun c => c.modQ fun q => { q with fills := q.fills.map perform } else s

/-- R248: a read of the core's own buffer on a path is performed behind the older loads of the path. -/
def State.readsFirst (s : State) (path : Nat) : State := s.performLoads s.core.num path s.uid fun _ _ _ => true

/-- R114, R207: an older store of the same core and path to the window of the same core, or homed on the same die, has not reached its
home. -/
def State.loadWaits (s : State) (core path uid : Nat) (ps : List PagePiece) (space target : Nat) : Bool :=
  s.mem.flying.any fun f => f.core == core && f.path == path && decide (f.uid < uid) &&
    (match f.what with
    | .window _ c _ => decide ((space = 4 ∨ space = 5) ∧ c = target)
    | .multicast mask _ => decide ((space = 4 ∨ space = 5) ∧ clusterOf core = clusterOf target) && mask.getLsbD (coreInCluster target)
    | .plain p _ => ps.any fun q => q.node == p.node && q.die == p.die
    | _ => false)
/-- A load is between its issue and its compare (R383). -/
def State.loadHeld (s : State) (core uid : Nat) : Bool :=
  s.mem.flying.any fun f => f.core == core && f.uid == uid

/-- R206, R401, R402: cyc lost at a bank by a class of requesters. -/
def DebugSt.lose (d : DebugSt) (cls bank n : Nat) : DebugSt :=
  let i := 32 * cls + bank % 32
  if n = 0 then d
  else { d.count 7 n with bcm := (i, min (((d.bcm.find? fun p => p.1 == i).map (·.2)).getD 0 + n) (2 ^ 32 - 1)) :: d.bcm.filter fun p => p.1 != i }
/-- FREE VALUE (log 43): the cyc that an access of a class loses at a bank of a core, at most `most`; they are charged. -/
def State.lostCyc (s : State) (core cls bank : Nat) (most : Option Nat) : Nat × State :=
  let (d, s) := match most with | some m => s.freeCyc 0 m | none => s.freeFrom 0
  (d, s.modCore core fun c => c.modDbg fun k => k.lose cls bank d)

/-- An access of the core in focus, with what it carries from its issue. -/
def State.accessOf (s : State) (uid path : Nat) (what : StoreWhat) : InFlight :=
  { uid := uid, core := s.core.num, path := path, thread := s.core.task.thread, ctx := s.core.task.ctx,
    ord := pathOrdered s.core.task path, pc := s.core.q.pc, what := what, compared := false, born := s.cyc }
/-- R383: an access of the core in focus issues; its compare comes after between `lo` and `hi` cyc. -/
def State.fly (s : State) (f : InFlight) (lo hi : Nat) : State :=
  { s with mem := { s.mem with flying := s.mem.flying ++ [f] } }.scheduleIn lo hi .tasterCompare { n0 := s.core.num, n1 := f.uid, n2 := 1 }

/-- A local load issues: it leaves the core after its compare (R383), and its fill falls due in its bounds (R202, R207); at a window,
cyc lost at the bank delay it (R206). -/
def State.issueLoad (s : State) (r : Option RegRef) (l : LoadForm) (ps : List PagePiece) (space target path : Nat) (lo hi : Nat) :
    State :=
  let (ps, s) := s.carryAll s.core.num ps
  let (d, s) := if hi = 0 then s.freeFrom lo else s.freeCyc lo hi
  let (lost, s) := if space = 4 ∨ space = 5 then s.lostCyc target 6 (l.base / 32) none else (0, s)
  let (u, s) := s.addFill r (.load l ps space target path) (d + lost + 1)
  let s := s.schedule (d + lost + 1) .longLatencyFill { n0 := s.core.num, n1 := u }
  s.fly (s.accessOf u path .load) 4 12

/-- A remote load issues: it leaves the core after its compare (R383), as READ packets on the flow of its path (R374 to R376), and it
fills no earlier than 96 cyc after its issue (R202). -/
def State.issueRemote (s : State) (r : Option RegRef) (l : LoadForm) (ps : List PagePiece) (path : Nat) : State :=
  let (ps, s) := s.carryAll s.core.num ps
  let (u, s) := s.addFill r (.remote l ps path [] 1) 97
  s.fly (s.accessOf u path .load) 4 12

/-- R202, R203, R248, R256: a local load that has left the core is performed then, with the loads of its path before it, or by a free
choice and behind the stores it waits for when it fills. -/
def State.loadLeaves (s : State) (core path uid : Nat) (ps : List PagePiece) (space target : Nat) : State :=
  let (now, s) := s.freeBool
  if now && !s.loadWaits core path uid ps space target then s.performLoads core path (uid + 1) fun _ _ _ => true else s

/-- R374 to R376: a load that has left the core asks for what stands on other modules; what stands on this one is read. Without a free
slot (R375) it waits. -/
def State.remoteLeaves (s : State) (core uid ctx : Nat) (ord : Bool) (l : LoadForm) (ps : List PagePiece) (path : Nat) : Option State :=
  let own := s.fab.node.toNat
  let near := ps.filter fun p => p.node == own
  let got := near.flatMap fun p => (List.range p.len).filterMap fun i =>
    if s.badByte near 0 0 (p.va + i) then none else some (p.va + i, s.pieceByte (s.coreAt core) near (p.va + i))
  let far := (ps.filter fun p => p.node != own).map fun p => (p.node, s.readItems (dieOf core) p.place ord p.va p.len (.fill core uid))
  let left := far.foldl (fun n x => n + x.2.length) 0
  let s := s.modCore core fun c => c.modQ fun q => { q with fills := q.fills.map fun f =>
    if f.uid = uid then { f with src := .remote l ps path got left } else f }
  far.foldl (fun (acc : Option State) x => acc.bind fun s => s.flowSend ctx (dieOf core) x.1 ord x.2) (some s)

/-! Stores. -/

/-- R113, R147: a store of the thread to its own buffer, which lands at the end of cyc p + 2. R203, R248: an older load of the path through
a window to the buffer does not return its bytes, an older window store leaves them (log 114), and other agents see them behind the
older writes of the path. -/
def State.padStore (s : State) (b : Nat) (bs : List (Nat × Byte)) (vec : Bool) : State :=
  let n := s.core.num
  let path := if vec then 1 else 0
  let s := s.performLoads n path s.uid fun _ space target => decide (space = b + 3 ∧ target = n)
  let under (f : InFlight) : InFlight :=
    match f.what with
    | .window b' c x => if f.core = n ∧ f.path = path ∧ b' = b ∧ c = n then
        { f with what := .window b c (x.filter fun p => !bs.any fun y => y.1 == p.1) } else f
    | _ => f
  let s := if s.mem.flying.isEmpty then s else { s with mem := { s.mem with flying := s.mem.flying.map under } }
  let (u, s) := s.takeUid
  let veiled := s.mem.flying.any fun g => g.core == n && g.path == path && s.ownHome g
  let w : PadWrite := { buf := b, addr := 0, bytes := bs, vec := vec, due := s.cyc + 3, uid := u, veiled := veiled }
  let c := bs.foldl (fun (c : CoreSt) p => c.pend b p.1 1) s.core
  { s with core := c.modQ fun q => { q with pad := q.pad ++ [w] } }

/-- R383: an access leaves the core after its compare, 4 to 12 cyc behind; then it travels to its home. R211: the words of a window
store are pending in its target from its issue. -/
def State.sendStore (s : State) (path : Nat) (what : StoreWhat) (lo hi : Nat) : State :=
  let (u, s) := s.takeUid
  let a := s.accessOf u path what
  let s := match what with
    | .window b c bs => s.modCore c fun k => bs.foldl (fun (k : CoreSt) (p : Nat × Byte) => k.pend b p.1 1) k
    | _ => s
  s.fly a lo hi

/-- Bytes of a store grouped by the page they fall into. -/
def State.sendPlain (s : State) (path : Nat) (ps : List PagePiece) (bs : List (Nat × Byte)) : State :=
  let (ps, s) := s.carryAll s.core.num ps
  ps.foldl (fun s p =>
    let mine := bs.filter fun b => decide (p.va ≤ b.1 ∧ b.1 < p.va + p.len)
    if mine.isEmpty then s else s.sendStore path (.plain p mine) 4 12) s

/-- R208: the mask of a multicast, from the issuing core's own A-buffer. -/
def CoreSt.multicastMask (c : CoreSt) (off : Nat) : BitVec 128 := BitVec.ofNat 128 (Mem.readLE c.tile.bufA off 16)

/-- R208: a multicast of the cluster has taken this cyc. -/
def State.multicastBusy (s : State) : Bool :=
  s.agenda.any fun e => e.op == .multicastLand && decide (e.due = s.cyc + 9) &&
    (s.mem.flying.any fun f => f.uid == e.arg.n0 && clusterOf f.core == clusterOf s.core.num)
/-- R208: the turn of a core among those of its cluster that ask for a multicast: the one after the last that had it is first. -/
def State.multicastRank (s : State) (n : Nat) : Nat := (coreInCluster n + 127 - vat s.mem.mcLast (clusterOf n)) % 128
/-- R208: the cyc goes to another core: it has multicast in it, or it has asked for it or been held since an earlier cyc and its turn comes
first. -/
def State.multicastLost (s : State) : Bool :=
  let n := s.core.num
  s.multicastBusy || (s.mem.mcAsk.any fun r => r != n && clusterOf r == clusterOf n && decide (s.multicastRank r < s.multicastRank n)) ||
    s.mem.mcReq.any fun r => decide (r.2 + 1 = s.cyc ∧ r.1 ≠ n) && clusterOf r.1 == clusterOf n &&
    decide (s.multicastRank r.1 < s.multicastRank n)
/-- R208: another core of the cluster may ask for a multicast in this cyc and has not had its turn: the core asks, and has the answer at the
end of the cyc. -/
def State.rivals (s : State) : Bool :=
  let n := s.core.num
  !s.sched.late && s.peers.any fun c => clusterOf c.num == clusterOf n && decide (c.status = .running ∧ c.q.nextIssue ≤ s.cyc)
/-- The core's instruction has a second turn in this cyc. -/
def State.askLate (s : State) : State := s.modQ fun q => { q with asked := true }
/-- A multicast asks for the cyc. -/
def State.multicastAsks (s : State) : State :=
  let n := s.core.num
  { s with mem := { s.mem with mcAsk := n :: s.mem.mcAsk } }.askLate
/-- A multicast is held: it asks again in the next cyc. -/
def State.multicastHeld (s : State) (cls bank : Nat) : State :=
  let n := s.core.num
  { s with core := s.core.modDbg fun d => d.lose cls bank 1,
           mem := { s.mem with mcReq := (n, s.cyc) :: s.mem.mcReq.filter fun r => r.1 != n && decide (s.cyc ≤ r.2 + 1) } }
/-- R208, R258: an older window store of the path has issued too late to land before a multicast that issues now. -/
def State.youngWindow (s : State) (path : Nat) : Bool :=
  s.mem.flying.any fun f => f.core == s.core.num && f.path == path && decide (s.cyc < f.born + 2) &&
    (match f.what with | .window _ _ _ => true | _ => false)
/-- R248, R258: the older accesses of a path pass their compare in time to go before a multicast that issues now. -/
def State.hurry (s : State) (path : Nat) : State :=
  let mine (u : Nat) : Bool := s.mem.flying.any fun f => f.uid == u && f.core == s.core.num && f.path == path
  { s with agenda := s.agenda.map fun e =>
      if e.op == .tasterCompare && e.arg.n2 == 1 && mine e.arg.n1 then { e with due := min e.due (s.cyc + 7) } else e }

/-! The access checks (R111, R145). -/

/-- The space code of MOD[2:0] (R88). -/
def spaceOf (f : Fields) : Nat := f.md.toNat % 8
/-- The effective address: base plus the signed offset, 64 bits. -/
def effAddr (base : Word) (f : Fields) : Word := base + f.imm.signExtend 64

structure AccessCheck where
  vec : Bool
  store : Bool
  space : Nat
  ea : Word
  width : Nat
  extent : Nat
  sc : Word

/-- R111, R145: checks 1 to 7 in order. -/
def AccessCheck.fails (k : AccessCheck) : Option TrapInfo :=
  let t (cause detail : Nat) : Option TrapInfo := some (trapOf cause detail k.ea (BitVec.ofNat 64 k.space))
  let ea := k.ea.toInt
  let size : Int := if k.space = 3 ∨ k.space = 5 then Config.sizeC else Config.sizeA
  let first := if k.vec then decide (k.space = 1) || (decide (k.space = 7) && !k.store)
               else decide (k.space = 1 ∨ k.space = 3 ∨ k.space = 5)
  if first then t BUFFER_ACCESS 1
  else if k.space = 6 ∧ !k.store then t BUFFER_ACCESS 4
  else if k.space = 7 ∧ k.store then t BUFFER_ACCESS 5
  else if ((k.space = 4 ∨ k.space = 5) ∧ 127 < k.sc.toNat) ∨
      (k.space = 6 ∧ (k.sc.toNat % 16 ≠ 0 ∨ 786416 < k.sc.toNat)) then t BUFFER_ACCESS 3
  else if k.space ≠ 0 ∧ k.space ≠ 7 ∧ (ea < 0 ∨ size < ea + k.extent) then t BUFFER_ACCESS 2
  else if (k.space = 0 ∨ k.space = 7) ∧ k.ea.toNat / 2 ^ 51 ≠ 0 then t ADDR_RANGE 0
  else if k.ea.toNat % k.width ≠ 0 then t MISALIGNED 0
  else none

/-- R273: a Progress Engine window access into an overflow area is refused: detail 3 for a read, 4 for a write. -/
def State.overflowArea (s : State) (ps : List PagePiece) : Bool :=
  ps.any fun p => ptePw p.pte && p.node == s.fab.node.toNat &&
    decide ((vat s.pe.ovfBase p.die).toNat ≤ p.pa ∧ p.pa < (vat s.pe.ovfBase p.die).toNat + (vat s.pe.ovfSize p.die).toNat * 2 ^ 20)

/-- A load after its checks: own buffer at fixed latency `lat`, or long-latency. -/
def doLoad (k : AccessCheck) (l : LoadForm) (path lat : Nat) (dst : RegRef) (s : State) : Res :=
  let a := k.ea.toNat
  let aux0 := k.ea
  let aux1 := BitVec.ofNat 64 k.space
  if k.space = 2 ∨ k.space = 3 then
    let b := k.space - 1
    if s.core.isPending b a k.extent then .trap (trapOf SPAD_EARLY (if b = 1 then 2 else 3) aux0 aux1)
    else
      let m := s.core.tile.buf b
      let r := l.spoiled (fun x => s.core.isPoisoned b x 1) (l.value fun x => Mem.read m x)
      let s' := if r.2 then s.consumeError s.core.num 2 else s
      let s' := s'.readsFirst path
      (match dst, r.1 with
      | .v n, .lanes en x => .done (s'.writeV lat (n.setWidth 6) en x)
      | r, v => .done (s'.writeReg lat r v))
  else if k.space = 4 ∨ k.space = 5 then
    let target := s.core.num / 128 * 128 + k.sc.toNat % 128
    .done (s.issueLoad (some dst) l [] k.space target path 14 40)
  else
    let p := decide (k.space = 7)
    match s.xlat a k.extent .read p (fun d => trapOf PAGE_FAULT d aux0 aux1) with
    | .trap t => .trap t
    | .hold t => .hold t
    | .fault f => .fault f
    | .pieces ps =>
      if p && s.overflowArea ps then .trap (trapOf PAGE_FAULT 3 aux0 aux1)
      else if ps.all fun x => x.node == s.fab.node.toNat then
        .done (s.issueLoad (some dst) l ps k.space 0 path (if p then 1 else 96) 0)
      else .done (s.issueRemote (some dst) l ps path)

/-- A store of bytes after its checks. -/
def doStore (k : AccessCheck) (bs : List (Nat × Byte)) (path : Nat) (s : State) : Res :=
  if k.space = 2 ∨ k.space = 3 then .done (s.padStore (k.space - 1) bs k.vec)
  else if k.space = 4 ∨ k.space = 5 then
    .done (s.sendStore path (.window (k.space - 3) (s.core.num / 128 * 128 + k.sc.toNat % 128) bs) 4 12)
  else if k.space = 6 then
    if s.core.isPending 1 k.sc.toNat 16 then .trap (trapOf SPAD_EARLY 2 k.ea (BitVec.ofNat 64 k.space))
    else if s.rivals then .hold s.multicastAsks
    else if s.multicastLost then .hold (s.multicastHeld (if k.vec then 1 else 0) (k.ea.toNat / 32))
    else if s.youngWindow path then .hold s
    else
      let mask := s.core.multicastMask k.sc.toNat
      let u := s.uid
      let n := s.core.num
      let s := (s.hurry path).sendStore path (.multicast mask bs) 4 8
      let s := { s with mem := { s.mem with
        mcLast := vput s.mem.mcLast (clusterOf n) (coreInCluster n), mcReq := s.mem.mcReq.filter fun r => r.1 != n } }
      let base := n / 128 * 128
      let s := (List.range 128).foldl (fun s c =>
        if mask.getLsbD c then s.modCore (base + c) fun k => bs.foldl (fun k p => k.pend 1 p.1 1) k else s) s
      .done (s.schedule 9 .multicastLand { n0 := u })
  else
    match s.xlat k.ea.toNat k.extent .write false (fun d => trapOf PAGE_FAULT d k.ea (BitVec.ofNat 64 k.space)) with
    | .trap t => .trap t
    | .hold t => .hold t
    | .fault f => .fault f
    | .pieces ps => .done (s.sendPlain path ps bs)

/-! SLD and SST (R110 to R114). -/

/-- R88: a space code of a load or store, with the window register in SC for codes 4 to 6. -/
def memSc (f : Fields) : Opd := if 4 ≤ spaceOf f ∧ spaceOf f ≤ 6 then .s else .unused
def memTyOk (f : Fields) : Bool := intTy f.ty || fltTy f.ty
/-- R110: in space P only 0x0, I64 and N64. -/
def memMdOk (f : Fields) : Bool :=
  !f.md.getLsbD 3 && (decide (spaceOf f ≠ 7) || decide (f.ty = 0 ∨ f.ty = 0xB ∨ f.ty = 0xF))
/-- R112: EMP of a load by its space. -/
def loadEmp (own : List Nat) (long : List Nat) (f : Fields) : EmpRule :=
  if own.contains (spaceOf f) then .zero else if long.contains (spaceOf f) then .long else .any
def shSld (f : Fields) : Shape :=
  { dst := .s, sa := .s, sc := memSc f, tyOk := memTyOk f, mdOk := memMdOk f, emp := loadEmp [2] [0, 4, 7] f }
def shSst (f : Fields) : Shape := { sa := .s, sb := .s, sc := memSc f, tyOk := memTyOk f, mdOk := memMdOk f }

def scalarLoad (s : State) : Res :=
  let f := s.core.q.ir
  let w := accessBytes f.ty
  let k : AccessCheck := { vec := false, store := false, space := spaceOf f, ea := effAddr s.srcA f, width := w, extent := w, sc := s.srcC }
  match k.fails with
  | some t => .trap t
  | none =>
    let sx := match scalarFmt f.ty with | .int _ => true | _ => false
    doLoad k { base := k.ea.toNat, width := w, sx := sx } 0 5 (.s f.dst) s

def scalarStore (s : State) : Res :=
  let f := s.core.q.ir
  let w := accessBytes f.ty
  let k : AccessCheck := { vec := false, store := true, space := spaceOf f, ea := effAddr s.srcB f, width := w, extent := w, sc := s.srcC }
  match k.fails with
  | some t => .trap t
  | none => doStore k (spanAt k.ea.toNat (leBytes w s.srcA.toNat)) 0 s

/-- The latency of a load by its space: fixed from the core's own buffers. -/
def loadLat (own : List Nat) (lat : Nat) (f : Fields) : Option Nat := if own.contains (spaceOf f) then some lat else none

def loadScalar (s : State) : Out := issue (shSld s.core.q.ir) (loadLat [2] 5 s.core.q.ir) scalarLoad s
def storeScalar (s : State) : Out := issue (shSst s.core.q.ir) none scalarStore s
/-- SLD (R110). -/
def execSld (s : State) : Out := loadScalar s
/-- SST (R110). -/
def execSst (s : State) : Out := storeScalar s
/-- SLD_SHORT (R83). -/
def execSldShort (s : State) : Out := loadScalar s
/-- SST_SHORT (R83). -/
def execSstShort (s : State) : Out := storeScalar s

end Sys2Proof.Machine
end

