-- ==== Sys2Proof/Machine/AccessEvents.lean ====
section
/-! DEFINITION. The device steps that carry accesses: fills, page walks, writes at their home, multicasts and the views of the
dies (03 R62, 12, 14 R248, R255, 24 R383). -/

namespace Sys2Proof.Machine

open Sys2Proof Decode

/-! Fills (R48, R66). -/

/-- Passed(t, d) of R229: identifier t lies below d. -/
def passed (t d : BitVec 32) : Bool := decide (1 ≤ (d - t).toNat ∧ (d - t).toNat - 1 < 2 ^ 31)

/-- The fill of a core with a number. -/
def SeqSt.fillOf (q : SeqSt) (u : Nat) : Option Fill := q.fills.find? fun f => f.uid == u
def SeqSt.dropFill (q : SeqSt) (u : Nat) : SeqSt := { q with fills := q.fills.filter fun f => f.uid != u }

/-- R65: what is left of an older fixed-latency write once a fill of the same register has landed: the lanes the fill does not
write. -/
def LatWrite.under (w : LatWrite) (r : RegRef) (v : RegVal) : Option LatWrite :=
  if w.reg ≠ r then some w
  else match w.val, v with
    | .lanes en x, .lanes e _ => if en &&& ~~~ e = 0 then none else some { w with val := .lanes (en &&& ~~~ e) x }
    | _, _ => none

/-- R48, R65, R66: a fill lands: the register has its value and is full; of an older write that is still pending only the lanes that
the fill leaves land later. A fill of a V register defines it in the phase (R387). -/
def CoreSt.landFill (c : CoreSt) (f : Fill) (v : RegVal) : CoreSt :=
  let q := c.q.dropFill f.uid
  let q := { q with lat := q.lat.filterMap fun (w : LatWrite) => w.under f.reg v }
  let c := { c with q := (q.put f.reg v).setFull f.reg true }
  match f.reg with
  | .v n => if c.ph.en then c.modPh fun p => { p with vDefined := setBit p.vDefined n.toNat true } else c
  | _ => c

/-- A fill lands with a value. -/
def State.landFill (s : State) (core : Nat) (f : Fill) (v : RegVal) : State := s.modCore core fun c => c.landFill f v

/-- A fill whose value another agent has decided lands after between `lo` and `hi` cyc. -/
def State.resolveFill (s : State) (core uid : Nat) (w : Word) (lo hi : Nat) : State :=
  let s := s.modCore core fun c => c.modQ fun q => { q with fills := q.fills.map fun f =>
    if f.uid = uid then { f with src := .value (.word w) } else f }
  let (d, s) := s.freeCyc lo hi
  s.schedule (d + 1) .longLatencyFill { n0 := core, n1 := uid }

/-- A bit of PHSTAT.IRREV is set while a phase is open (R387). -/
def CoreSt.irrevocable (c : CoreSt) : CoreSt := if c.ph.en then c.modPh fun p => { p with irrev := true } else c

/-- R251: the thread has observed completions of the Store Engine: those that a test picks among the ones it has not observed. -/
def EngSt.observe (e : EngSt) (seen : Bool → Nat → BitVec 32 → Bool) : EngSt :=
  { e with unseen := e.unseen.filter fun x => !seen x.2.1 x.2.2.1 x.2.2.2 }
/-- XWAIT and XPOLL report the identifiers of a channel below XDONE. -/
def EngSt.observeChan (e : EngSt) (ch : Nat) : EngSt :=
  e.observe fun chain c x => !chain && 4 + c == ch && decide (1 ≤ (vat e.xdone ch - x).toNat ∧ (vat e.xdone ch - x).toNat - 1 < 2 ^ 31)
/-- EVPOP reports the command of its record. -/
def EngSt.observeEvent (e : EngSt) (w : Word) : EngSt :=
  let src := nbits w.toNat 59 3
  e.observe fun chain c x => (if chain then src == 3 else src == 1) && c == nbits w.toNat 57 2 && x.toNat == w.toNat % 2 ^ 32
/-- CHSEQ reports the entries before the sequence number of the STE walker. -/
def EngSt.observeChain (e : EngSt) : EngSt :=
  e.observe fun chain _ x => chain && decide (1 ≤ ((vat e.walkers 1).seqNo - x).toNat ∧ ((vat e.walkers 1).seqNo - x).toNat - 1 < 2 ^ 31)

/-- R241: the status of identifier `t` of channel `ch`. -/
def EngSt.status (e : EngSt) (ch : Nat) (t : BitVec 32) (bad : Bool) : Word :=
  let x := vat e.xerr ch
  let ident : BitVec 32 := x.setWidth 32
  let err := bad || (x.getLsbD 63 && (ident == t || passed ident t))
  BitVec.ofNat 64 ((if err then 2 ^ 63 else 0) + (if bad then 2 ^ 62 else 0) + (vat e.xdone ch).toNat)

/-- R112, R146: a load fills; an uncorrectable error in what it has read is consumed, of a scratchpad or of memory or a link (R386). -/
def State.loadFills (s : State) (core : Nat) (f : Fill) (v : RegVal × Bool) (spad : Bool := false) : State :=
  let s := s.landFill core f v.1
  if v.2 then s.consumeError core (if spad then 2 else 3) else s

/-- A fill that is due; `failed` says that one READ packet of a remote load has come to nothing. -/
def State.fillStep (s : State) (core uid : Nat) (failed : Bool) : State :=
  let c := s.coreAt core
  match c.q.fillOf uid with
  | none => s
  | some f =>
    let again := s.schedule 1 .longLatencyFill { n0 := core, n1 := uid }
    match f.src with
    | .value v => if s.loadHeld core uid then again else s.loadFills core f (v, f.bad) f.spad
    | .load l ps space target path =>
      if s.loadHeld core uid || s.loadWaits core path uid ps space target then again
      else (s.performLoads core path uid fun _ _ _ => true).loadFills core f (s.loadNow c l ps space target path uid) (decide (space = 4 ∨ space = 5))
    | .remote l ps path got left =>
      let left := if failed then left - 1 else left
      let f := { f with src := .remote l ps path got left }
      let s := if failed then s.modCore core fun c => c.modQ fun q => { q with fills := q.fills.map fun x => if x.uid = uid then f else x } else s
      if left ≠ 0 then s
      else if s.cyc < f.due then s.schedule (f.due - s.cyc) .longLatencyFill { n0 := core, n1 := uid }
      else
        let byte (a : Nat) : Option Byte := (got.find? fun p => p.1 == a).map (·.2)
        let r := l.spoiled (fun a => (byte a).isNone) (l.value fun a => (byte a).getD 0)
        s.loadFills core f r
    | .xwait ch t bad => (s.modCore core fun c => c.modEng fun e => e.observeChan ch).landFill core f (.word (c.eng.status ch t bad))
    | .waitev limit =>
      if !c.eng.events.isEmpty then
        s.landFill core f (.word (BitVec.ofNat 64 c.eng.events.length))
      else if limit ≤ s.cyc then s.landFill core f (.word 0)
      else again
    | _ => s

/-! Page walks (R216 to R219). -/

/-- The end of a walk for a page of an address space: every core of the die that waits for it has the translation, or its failure;
a page that no core waits for any more (R217) is not kept. -/
def State.walkEnd (s : State) (core va asn : Nat) : State :=
  let d := dieOf core
  let page := va / 32768
  let waits (c : CoreSt) : Bool := dieOf c.num == d && c.task.asn.toNat == asn && (c.task.walking.contains page || c.eng.walking.contains page)
  match s.cores.find? waits with
  | none => s
  | some k =>
    let r : Except Nat TlbEntry := match (vat s.mem.dieTlb d).find? (tlbHit asn va) with
      | some e => .ok e
      | none => s.walkBy d asn k.task.rootDie.toNat k.task.rootPfn.toNat va
    let gets (c : CoreSt) : CoreSt := if !waits c then c else (c.modEng fun e => { e with walking := e.walking.filter fun p => p != page }).modTask fun t =>
      let mine := t.walking.contains page
      let t := { t with walking := t.walking.filter fun p => p != page }
      match r with
      | .ok e => { t with tlb := keepTlb 512 e t.tlb }
      | .error x => if mine then { t with walkFault := (page, x) :: t.walkFault } else t
    let s := { s with core := gets s.core, peers := s.peers.map gets }
    match r with
    | .ok e => { s with mem := { s.mem with dieTlb := vput s.mem.dieTlb d (keepTlb 6144 e (vat s.mem.dieTlb d)) } }
    | .error _ => s

/-- TLB_WALK_COMPLETE (R216). -/
def execTlbWalkComplete (s : State) : Out := .next (s.walkEnd s.ev.n0 s.ev.n1 s.ev.w.toNat)

/-! Writes at their home. -/

def State.flight (s : State) (u : Nat) : Option InFlight := s.mem.flying.find? fun f => f.uid == u
def State.dropFlight (s : State) (u : Nat) : State :=
  { s with mem := { s.mem with flying := s.mem.flying.filter fun f => f.uid != u } }
def State.markCompared (s : State) (u : Nat) : State :=
  { s with mem := { s.mem with flying := s.mem.flying.map fun f => if f.uid = u then { f with compared := true } else f } }

/-- R207, R248, R258: of two writes of a core and path the older `g` goes first: both are homed on the core's own die, or they are to the
same bytes. -/
def State.ordered (s : State) (g f : InFlight) : Bool :=
  (s.ownHome g && s.ownHome f) || (homeOf g.what == homeOf f.what && s.staysHere g.what &&
    (keysOf g.what).any fun x => (keysOf f.what).contains x)
/-- The older writes of its core and path that a write follows, the oldest first. -/
def State.before (s : State) (f : InFlight) : List InFlight :=
  ((s.mem.flying.filter fun g => g.core == f.core && g.path == f.path && decide (g.uid < f.uid)).foldr
    (fun g acc => if acc.any (s.ordered g) then g :: acc else acc) [f]).dropLast
/-- R207, R248: a write has older ones before it. -/
def State.mustFollow (s : State) (f : InFlight) : Bool := !(s.before f).isEmpty

/-- Runs of consecutive addresses. -/
def runs (bs : List (Nat × Byte)) : List (Nat × List Byte) :=
  bs.foldl (fun (acc : List (Nat × List Byte)) p =>
    match acc.getLast? with
    | some (a, l) => if p.1 = a + l.length then acc.dropLast ++ [(a, l ++ [p.2])] else acc ++ [(p.1, [p.2])]
    | none => [(p.1, [p.2])]) []

/-- R167: a plain write is applied at its home. -/
def State.applyPlain (s : State) (core path : Nat) (p : PagePiece) (bs : List (Nat × Byte)) : State :=
  (runs bs).foldl (fun s (a, l) =>
    State.plainStore (some (core, path)) (p.agent core) p.view (l.length + 1) s { p.place with pa := p.pa + (a - p.va) } a l) s

/-- R238: the link of a chain entry has been written: a walker parked at the entry goes on with it; one that runs the entry and has read
LINK = 0, or has not read it yet, will; a link that it has read stands. -/
def State.linkArrived (s : State) (f : InFlight) : State :=
  match f.cmd with
  | none => s
  | some w =>
    let link := leNat ((bytesOf f.what).map (·.2)) % 2 ^ 51
    let k := vat (s.coreAt f.core).eng.walkers w
    let put (k' : Walker) : State := s.modCore f.core fun c => c.modEng fun e => { e with walkers := vput e.walkers w k' }
    if k.addr ≠ f.va then s
    else if k.st = .park then
      if link = 0 then s
      else (put { k with st := .run, addr := link, kick := k.kick + 1, got := [] }).scheduleFrom 1 .chainEntryRead { n0 := f.core, n1 := w, n2 := k.kick + 1 }
    else if k.st = .run then put { k with linked := link }
    else s

/-- R203, R248: the older loads of the path that are performed before a write: those of the core's own die before one that is homed
there, and those of its bytes. -/
def State.loadsBefore (s : State) (f : InFlight) (ps : List PagePiece) (space target : Nat) : Bool :=
  let own := ps.all fun p => p.node == s.fab.node.toNat && p.die == dieOf f.core
  (own && s.ownHome f) || (match f.what with
    | .plain p _ => p.node == s.fab.node.toNat && (keysOf f.what).any fun k => ps.any fun p =>
        p.node == s.fab.node.toNat && decide (paKey p.die p.pa ≤ k ∧ k < paKey p.die p.pa + p.len)
    | .window b c _ => decide (space = b + 3 ∧ target = c)
    | _ => false)

/-- R208, R209: a multicast writes the A-buffer of every selected core; a store of the core itself that lands in the same cyc stays. -/
def State.multicastLands (s : State) (n : Nat) (mask : BitVec 128) (bs : List (Nat × Byte)) : State :=
  (List.range 128).foldl (fun s i =>
    if mask.getLsbD i then s.modCore (n / 128 * 128 + i) fun k =>
      (k.q.pad.filter fun w => decide (w.due = s.cyc ∧ w.buf = 1)).foldl CoreSt.landPad (k.writeBuf 1 bs)
    else s) s

/-- A write acts at its home, after the older loads of its path that it must not overtake. -/
def State.landFlight (s : State) (f : InFlight) : State :=
  let s := (s.performLoads f.core f.path f.uid (s.loadsBefore f)).dropFlight f.uid
  match f.what with
  | .plain p bs => (s.applyPlain f.core f.path p bs).linkArrived f
  | .window b c bs => s.modCore c fun k => k.writeBuf b bs
  | .multicast mask bs => s.multicastLands f.core mask bs
  | _ => s

/-- R207, R208: a write cannot land yet: a window store within 10 cyc of its issue, a multicast before its cyc, a write whose compare is
still to come. -/
def State.tooYoung (s : State) (g : InFlight) : Bool :=
  !g.compared || (match g.what with
    | .plain _ _ => false
    | .window _ _ _ => decide (s.cyc < g.born + 10)
    | _ => true)

/-- A write reaches its home behind the older ones it follows: they land before it, or it waits for them. -/
def State.arrive (s : State) (u : Nat) : State :=
  match s.flight u with
  | none => s
  | some f =>
    let first := s.before f
    if first.any s.tooYoung then s.schedule 1 .storeArriveHome { n0 := u }
    else (first ++ [f]).foldl State.landFlight s

/-- STORE_ARRIVE_HOME (R167). -/
def execStoreArriveHome (s : State) : Out := .next (s.arrive s.ev.n0)

/-- R208, R258: a multicast lands, after the older writes of its path that are homed on the die. -/
def State.landMulticast (s : State) (u : Nat) : State :=
  match s.flight u with
  | some f => (((s.before f).filter fun g => !s.tooYoung g) ++ [f]).foldl State.landFlight s
  | none => s

/-- MULTICAST_LAND (R208). -/
def execMulticastLand (s : State) : Out := .next (s.landMulticast s.ev.n0)

/-- R203: an older load of the path asks another module for bytes that a store writes, and they have not come: on a flow that keeps no
order the store waits. -/
def State.readFlying (s : State) (f : InFlight) (p : PagePiece) (bs : List (Nat × Byte)) : Bool :=
  !f.ord && (s.coreAt f.core).q.fills.any fun x => match x.src with
    | .remote _ ps path _ left => decide (path = f.path ∧ x.uid < f.uid ∧ left ≠ 0) && ps.any fun q => q.node == p.node && q.die == p.die &&
        bs.any fun b => decide (q.pa ≤ p.pa + (b.1 - p.va) ∧ p.pa + (b.1 - p.va) < q.pa + q.len)
    | _ => false

/-- R383: the compare of a load differs: it never fills. -/
def CoreSt.loadDiscarded (c : CoreSt) (uid : Nat) : CoreSt :=
  c.modQ fun q => { q with fills := q.fills.map fun f => if f.uid = uid then { f with src := .compare } else f }

/-- Half of the way of an update or a verdict (R282): 40 to 90 cyc on one die, 200 to 500 between dies. -/
def State.halfWay (s : State) (same : Bool) (op : Instr) (arg : EvArg) : State :=
  if same then s.scheduleIn 20 45 op arg else s.scheduleIn 100 250 op arg
def State.modInst (s : State) (i : BitVec 32) (f : GraphInst → GraphInst) : State :=
  { s with pe := { s.pe with insts := s.pe.insts.map fun g => if g.inst = i then f g else g } }
/-- R278: the next batch of a sender for a home, on the one ordered flow between them; an instance keeps the last one that names it. -/
def State.nextBatch (s : State) (sender home : Nat) (inst : BitVec 32) : Nat × State :=
  let row := vat s.pe.sentTo sender
  let b := vat row home + 1
  let s := { s with pe := { s.pe with sentTo := vput s.pe.sentTo sender (vput row home b) } }
  (b, s.modInst inst fun g => { g with sent := vput g.sent sender b })
/-- R278, R383: an update or a join decrement leaves its sender: it takes its place in the order of the sender's batches for its home. One
for a home on another module goes there as a PBATCH. -/
def State.postLeaves (s : State) (u : Nat) : State :=
  match s.pe.updates.find? fun x => x.uid == u with
  | some (x : Update) =>
    let put (s : State) (b : Nat) : State := { s with pe := { s.pe with updates := s.pe.updates.map fun (y : Update) =>
      if y.uid = u then { y with left := true, batch := b } else y } }
    if x.away.isSome then (put s 0).schedule 0 .countUpdateApply { n0 := u }
    else
      let (b, s) := s.nextBatch x.sender x.home x.inst
      (put s b).halfWay (x.home == x.sender) .countUpdateApply { n0 := u }
  | none =>
    match s.pe.joins.find? fun x => x.uid == u with
    | some (x : JoinMsg) =>
      let (b, s) := s.nextBatch x.sender x.home x.inst
      let s := { s with pe := { s.pe with joins := s.pe.joins.map fun (y : JoinMsg) => if y.uid = u then { y with left := true, batch := b } else y } }
      s.halfWay (x.home == x.sender) .joinDecrement { n0 := u }
    | none => s

/-- R387: the first access of an open phase that leaves the core after its compare makes the phase irrevocable. -/
def State.hasLeft (s : State) (f : InFlight) : State :=
  if (s.coreAt f.core).task.thread = f.thread then s.modCore f.core CoreSt.irrevocable else s

/-- R383: an access has passed its compare and leaves the core. -/
def State.leaveCore (s : State) (f : InFlight) : State :=
  let s := s.markCompared f.uid
  match f.what with
  | .plain p bs =>
    let s := s.hasLeft f
    if p.node = s.fab.node.toNat then s.scheduleFrom 1 .storeArriveHome { n0 := f.uid }
    else
      let again := s.schedule 1 .tasterCompare { n0 := f.core, n1 := f.uid, n2 := 1 }
      if s.readFlying f p bs then again
      else
        let items := (runs bs).flatMap fun (a, l) =>
          s.writeItems (dieOf f.core) { p.place with pa := p.pa + (a - p.va) } f.ord l (.store f.core f.uid)
        (s.flowSend f.ctx (dieOf f.core) p.node f.ord items).getD again
  | .window _ c bs =>
    let (d, s) := (s.hasLeft f).freeCyc 6 28
    let (_, s) := s.lostCyc c 6 ((bs.headD (0, 0)).1 / 32) (some (d - 6))
    s.schedule d .storeArriveHome { n0 := f.uid }
  | .multicast _ _ => s.hasLeft f
  | .atomic p _ _ _ _ _ =>
    let s := s.hasLeft f
    if p.die = dieOf f.core then s.scheduleIn 16 58 .atomicApply { n0 := f.uid }
    else s.scheduleIn 96 293 .atomicApply { n0 := f.uid }
  | .red p op ty bs =>
    let s := s.hasLeft f
    let ord := f.ord
    let items := (split2k (bs.length / 2048 + 2) p.pa 0 bs.length).map fun (o, k) =>
      let q := { s.packetTo kRED (dieOf f.core) p.node p.die ord with
        nbytes := BitVec.ofNat 12 k, pa := BitVec.ofNat 42 (p.pa + o), payload := (bs.drop o).take k,
        aux := BitVec.ofNat 48 (op + 16 * ty.toNat) }
      let it : FlowItem := { p := q, use := .store f.core f.uid }
      it
    (s.flowSend f.ctx (dieOf f.core) p.node ord items).getD (s.schedule 1 .tasterCompare { n0 := f.core, n1 := f.uid, n2 := 1 })
  | .post => ((s.dropFlight f.uid).hasLeft f).postLeaves f.uid
  | .drop g => ((s.dropFlight f.uid).hasLeft f).schedule 0 .taskComplete { n0 := g, n1 := 1, n2 := f.core }
  | .load =>
    let t := s.dropFlight f.uid
    (match ((t.coreAt f.core).q.fillOf f.uid).map (fun x : Fill => x.src) with
    | some (.load _ ps space target _) => t.loadLeaves f.core f.path f.uid ps space target
    | some (.remote l ps path _ _) =>
      (t.remoteLeaves f.core f.uid f.ctx f.ord l ps path).getD (s.schedule 1 .tasterCompare { n0 := f.core, n1 := f.uid, n2 := 1 })
    | _ => t)
  | .commit _ _ _ _ _ _ => s

/-- R383, R390: updates that have not left their core are discarded. -/
def State.dropPosts (s : State) (us : List Nat) : State :=
  { s with pe := { s.pe with updates := s.pe.updates.filter fun x => x.left || !us.contains x.uid,
                             joins := s.pe.joins.filter fun x => x.left || !us.contains x.uid } }

/-- R383: the compare of an access: a difference discards it; otherwise it leaves behind the older ones of its path. -/
def State.compareFlight (s : State) (f : InFlight) (equal : Bool) : State :=
  if !equal then
    let t := ((s.dropFlight f.uid).dropPosts [f.uid]).modCore f.core fun c => c.loadDiscarded f.uid
    if (s.coreAt f.core).task.thread = f.thread then t.consumeError f.core 1 else t
  else if s.mem.flying.any fun g => g.core == f.core && g.path == f.path && decide (g.uid < f.uid) && !g.compared then
    s.schedule 1 .tasterCompare { n0 := f.core, n1 := f.uid, n2 := 1 }
  else s.leaveCore f

/-! The views of the dies (R255). -/

/-- R255: a die receives a write: it is held until what precedes it has been applied. -/
def State.viewApply (s : State) (d u : Nat) : State :=
  match s.mem.emitted.find? fun w => w.uid == u with
  | none => s
  | some w =>
    let e := vat s.mem.vc d
    let ok := decide (vat w.vc w.src = vat e w.src + 1) && [0, 1, 2, 3].all fun k => k == w.src || decide (vat w.vc k ≤ vat e k)
    if !w.todo.contains d then s
    else if !ok then s.schedule 1 .dieViewApply { n0 := d, n1 := u }
    else
      { s with mem := { s.mem with
          views := vput s.mem.views d (Mem.writeAll (vat s.mem.views d) w.bytes),
          vc := vput s.mem.vc d (vput e w.src (vat w.vc w.src)),
          emitted := (s.mem.emitted.map fun x => if x.uid = u then { x with todo := x.todo.filter fun k => k != d } else x).filter
            fun x => !x.todo.isEmpty } }

/-- DIE_VIEW_APPLY (R255). -/
def execDieViewApply (s : State) : Out := .next (s.viewApply (s.ev.n0 % 4) s.ev.n1)

end Sys2Proof.Machine
end

