-- ==== Sys2Proof/Machine/Power.lean ====
section
/-! DEFINITION. Power draws of matrix commands and computed tile operations (17 R314, R315). -/

namespace Sys2Proof.Machine

open Sys2Proof Decode

/-- TE of bits that differ among bits compared. -/
def teOf (b c : Nat) : Nat := if c = 0 then 0 else min 255 (256 * b / c)
/-- One bits of a byte. -/
def ones (b : Byte) : Nat := (List.range 8).foldl (fun (n : Nat) i => if b.getLsbD i then n + 1 else n) 0
/-- The bits that differ between consecutive 32-byte words, and the bits compared. -/
def toggles (bs : List Byte) : Nat × Nat :=
  let d := (bs.zip (bs.drop 32)).foldl (fun (n : Nat) p => n + ones (p.1 ^^^ p.2)) 0
  (d, 8 * (bs.length - 32))

/-- Units a die may still draw. -/
def State.powerLeft (s : State) (d : Nat) : Nat :=
  let drawn := s.sched.draws.foldl (fun (n : Nat) w => if dieOf w.1 = d then n + w.2.2 else n) 0
  vat s.cool.limits d - (vat s.sched.reserved d + drawn)
def State.ttCore (s : State) (n : Nat) : Bool :=
  match (s.coreAt n).task.gang with
  | some g => (s.sched.gangs.find? fun x => x.id == g).any fun x => x.task.tt
  | none => false
/-- A start is granted its draw. -/
def State.grant (s : State) (w : Nat × Nat × Nat × Nat) : State :=
  { s with sched := { s.sched with
      draws := s.sched.draws ++ [(w.1, w.2.1, w.2.2.1)],
      waiting := s.sched.waiting.filter fun x => !(x.1 == w.1 && x.2.1 == w.2.1) } }
/-- A draw ends. -/
def State.endDraw (s : State) (n u : Nat) : State :=
  { s with sched := { s.sched with
      draws := s.sched.draws.filter fun w => !(w.1 == n && w.2.1 == u),
      waiting := s.sched.waiting.filter fun w => !(w.1 == n && w.2.1 == u) } }
/-- A start waits for power; the waiting starts are looked at in this cyc. -/
def State.askPower (s : State) (n u units : Nat) : State :=
  if s.sched.waiting.any fun w => w.1 == n && w.2.1 == u then s
  else
    let s := { s with sched := { s.sched with waiting := s.sched.waiting ++ [(n, u, units, s.cyc)] } }
    s.schedule 0 .drawStart {}

/-- The waiting starts of one gang, or of one core without a gang: their members, sum, key and age. -/
def State.powerGroups (s : State) : List (List (Nat × Nat × Nat × Nat)) :=
  s.sched.waiting.foldl (fun gs w =>
    let g := (s.coreAt w.1).task.gang
    let same (l : List (Nat × Nat × Nat × Nat)) : Bool :=
      l.any fun x => g.isSome && (s.coreAt x.1).task.gang == g
    if gs.any same then gs.map fun l => if same l then l ++ [w] else l else gs ++ [[w]]) []
/-- A request with a start that has waited 1,024 cyc. -/
def agedStart (cyc : Nat) (l : List (Nat × Nat × Nat × Nat)) : Bool := l.any fun x => decide (1024 ≤ cyc - x.2.2.2)
/-- The order of two requests: aged first, then the largest draw, then the lower core. -/
def groupBefore (cyc : Nat) (a b : List (Nat × Nat × Nat × Nat)) : Bool :=
  let aged := agedStart cyc
  let key (l : List (Nat × Nat × Nat × Nat)) : Nat := l.foldl (fun (m : Nat) x => max m x.2.2.1) 0
  let low (l : List (Nat × Nat × Nat × Nat)) : Nat := l.foldl (fun (m : Nat) x => min m x.1) 4096
  if aged a ≠ aged b then aged a
  else if key a ≠ key b then decide (key a < key b) else decide (low a ≤ low b)
def insertBy {α : Type} (le : α → α → Bool) (x : α) : List α → List α
  | [] => [x]
  | y :: l => if le x y then x :: y :: l else y :: insertBy le x l
def sortBy {α : Type} (le : α → α → Bool) (l : List α) : List α := l.foldl (fun acc x => insertBy le x acc) []

/-- The tile operation of a core draws under this number. -/
def tileDraw : Nat := 2 ^ 70

/-- R315: the waiting starts are granted in order, each request whole or not at all; nothing of its die passes one that has waited 1,024
cyc. -/
def State.grantAll (s : State) : State :=
  let r := (sortBy (groupBefore s.cyc) s.powerGroups).foldl (fun (a : State × List Nat) g =>
    let s := a.1
    let need (d : Nat) : Nat := g.foldl (fun (n : Nat) w => if dieOf w.1 = d then n + w.2.2.1 else n) 0
    let dies := [0, 1, 2, 3].filter fun d => need d != 0
    if dies.all fun d => decide (need d ≤ s.powerLeft d) && !a.2.contains d then
      (g.foldl (fun (s : State) w => (s.grant w).schedule 0 .engineCommandBegin { n0 := w.1, n1 := w.2.1 }) s, a.2)
    else (s, if agedStart s.cyc g then a.2 ++ dies else a.2)) (s, [])
  let s := r.1
  if s.sched.waiting.isEmpty || s.agenda.any (fun e => e.op == .drawStart && decide (s.cyc < e.due) && decide (e.arg.n2 = 0)) then s
  else s.schedule 1 .drawStart {}

/-- DRAW_START (R315): `n2` = 1 ends the draw of a tile operation of core `n0`. -/
def execDrawStart (s : State) : Out :=
  .next (if s.ev.n2 = 1 then s.endDraw s.ev.n0 tileDraw else s.grantAll)

/-- R315: another member of the core's gang may start something in this cyc: their starts are one request. -/
def State.gangStarts (s : State) (n : Nat) : Bool :=
  (s.coreAt n).task.gang.isSome && s.cores.any fun c => c.num != n && c.task.gang == (s.coreAt n).task.gang
/-- R315: a computed tile operation, whose end is `fin` of its result, starts with its draw of 2 units, or holds: a member of a gang asks,
and has the answer at the end of the cyc. -/
def powered (fin : State → Nat) (body : State → Res) (s : State) : Res :=
  match body s with
  | .done t =>
    let n := s.core.num
    if fin t ≤ s.cyc + 1 || s.ttCore n then .done t
    else if s.sched.draws.any fun w => w.1 == n && w.2.1 == tileDraw then
      .done (t.schedule (fin t - s.cyc) .drawStart { n0 := n, n2 := 1 })
    else if s.sched.waiting.isEmpty ∧ 2 ≤ s.powerLeft s.die ∧ !s.gangStarts n then
      .done ((t.grant (n, tileDraw, 2, s.cyc)).schedule (fin t - s.cyc) .drawStart { n0 := n, n2 := 1 })
    else .hold (if s.sched.late then s.askPower n tileDraw 2 else (s.askPower n tileDraw 2).modQ fun q => { q with asked := true })
  | r => r

end Sys2Proof.Machine
end

