-- ==== Sys2Proof/Machine/Approx.lean ====
section
/-! DEFINITION. The approximate functions of R142: exact references in fixed point, and the patterns within the error bounds. -/

namespace Sys2Proof.Machine

open Sys2Proof

/-- Fraction bits of the references; their own error lies far below the bounds of R142. -/
def fxBits : Nat := 160
def fxOne : Int := (2 ^ fxBits : Nat)
def fxMul (a b : Int) : Int := (a * b).fdiv fxOne
/-- A finite value in fixed point, rounded toward −∞. -/
def fxOf : FVal → Int
  | .fin s m e => Sem.floor (Sem.scale fxBits (.fin s m e))
  | _ => 0

/-- e^x of a fixed-point x with |x| below 128: the series of x / 2^9, squared nine times. -/
def fxExp (x : Int) : Int :=
  let y := x.fdiv 512
  let sum := (List.range 30).foldl (fun (acc : Int × Int) (n : Nat) =>
    let t := (fxMul acc.2 y).fdiv (n + 1)
    (acc.1 + t, t)) (fxOne, fxOne)
  (List.range 9).foldl (fun r _ => fxMul r r) sum.1

/-- 2 · atanh z = ln ((1 + z) / (1 − z)) of a fixed-point z with |z| at most 1/3. -/
def fxLogOf (z : Int) : Int :=
  let zz := fxMul z z
  let sum := (List.range 50).foldl (fun (acc : Int × Int) (n : Nat) =>
    (acc.1 + acc.2.fdiv (2 * n + 1), fxMul acc.2 zz)) (0, z)
  2 * sum.1

/-- ln (m · 2^e) in fixed point, m > 0. -/
def fxLog (m : Nat) (e : Int) : Int :=
  let l := m.log2 + 1
  let d := 2 ^ l
  fxLogOf (((m : Int) - d) * fxOne / ((m : Int) + d)) + (e + l) * fxLogOf (fxOne / 3)

/-- A nonzero exact result (−1)^neg · r · 2^p, r of many bits, and the pattern silicon gives: that pattern where it is a
normal value within `tol`, in units of 2^p, of the exact one; else the exact result itself. -/
def withinBound (neg : Bool) (r : Nat) (p : Int) (tol : Nat) (pattern : BitVec 32) : FVal :=
  let exact : FVal := .fin neg r p
  match decodeFloat .f32 pattern.toNat with
  | .fin s m e =>
    let diff := Sem.add false (.fin s m e) (Sem.neg exact)
    if 2 ^ 23 ≤ m ∧ (Sem.cmp (Sem.abs diff) (.fin false tol p) != .gt) = true then .fin s m e else exact
  | _ => exact

/-- `n` ulp of F32 of a magnitude r · 2^p, in units of 2^p. -/
def ulps (n r : Nat) : Nat := n * 2 ^ (r.log2 - 23)

/-- e^a of a finite nonzero a (R142), before it is rounded into the destination; below e^−104 it is far below the smallest normal. -/
def expValue (a : FVal) (pat : BitVec 32) : FVal :=
  let x := fxOf a
  if x < -(104 * fxOne) then .fin false 1 (-150)
  else
    let r := (fxExp x).toNat
    withinBound false r (-(fxBits : Int)) (ulps 2 r) (Config.expPattern pat)

/-- ln of m · 2^e, not 1 (R142). -/
def logValue (m : Nat) (e : Int) (pat : BitVec 32) : FVal :=
  let x := fxLog m e
  let a : FVal := .fin false m e
  let near := Sem.cmp a (.fin false 1 (-1)) != .lt && Sem.cmp a (.fin false 2 0) != .gt
  let tol := if near then 2 ^ (fxBits - 21) else ulps 2 x.natAbs
  withinBound (decide (x < 0)) x.natAbs (-(fxBits : Int)) tol (Config.logPattern pat)

/-- Whether a magnitude is a power of two. -/
def isPow2 (m : Nat) : Bool := m == 2 ^ m.log2

/-- 1 / ±m·2^e (R142): exact for a power of two. -/
def rcpValue (s : Bool) (m : Nat) (e : Int) (pat : BitVec 32) : FVal :=
  if isPow2 m then .fin s 1 (-(m.log2 : Int) - e)
  else
    let t := m.log2 + 80
    withinBound s (2 ^ t / m) (-(t : Int) - e) (ulps 1 (2 ^ t / m)) (Config.rcpPattern pat)

/-- 1 / √(m·2^e) (R142): exact for a power of four. -/
def rsqrtValue (m : Nat) (e : Int) (pat : BitVec 32) : FVal :=
  let (m, e) := if e % 2 = 0 then (m, e) else (2 * m, e - 1)
  if isPow2 m && m.log2 % 2 == 0 then .fin false 1 (-(m.log2 : Int) / 2 - e / 2)
  else
    let t := m.log2 + 80
    let r := Nat.sqrt (2 ^ (2 * t) / m)
    withinBound false r (-(t : Int) - e / 2) (ulps 1 r) (Config.rsqrtPattern pat)

end Sys2Proof.Machine
end

