-- ==== Sys2Proof/Machine/Vector.lean ====
section
/-! DEFINITION. Vector instructions (07): lanes, arithmetic, moves, compares, conversions, reductions, permutes, functions, sort,
loads and stores, with their short forms (R83). The block gathers stand with the engine commands. -/

namespace Sys2Proof.Machine

open Sys2Proof Decode

/-! Types (R125). -/

def fv (t : BitVec 4) : Bool := decide (1 ≤ t.toNat ∧ t.toNat ≤ 3)
def iv (t : BitVec 4) : Bool := decide (8 ≤ t.toNat ∧ t ≠ 0xB ∧ t ≠ 0xF)
def f8 (t : BitVec 4) : Bool := decide (t = 4 ∨ t = 5)
def fvIv (t : BitVec 4) : Bool := fv t || iv t
/-- The format of a vector TYPE: 0x0 is 32 raw bits. -/
def vecFmt (t : BitVec 4) : Fmt := if t = 0 then .nat 32 else (tyA t).getD (.nat 32)
/-- R86: MOD of an instruction that rounds. -/
def mdRounds (md : BitVec 4) : Bool := decide (md.toNat % 8 ≤ 4)
/-- MOD of an instruction that rounds floats and saturates integers (R128). -/
def mdArith (f : Fields) : Bool := if fv f.ty then mdRounds f.md else satOnly f.md

/-! Lanes (R126, R127). -/

/-- LaneRd as an exact value. -/
def laneVal (m : Fmt) (x : Lane) : FVal := fvalOf m (x.toNat % 2 ^ m.width)
/-- LaneRd as 32 bits: an In element sign-extended, any other zero-extended. -/
def laneExt (m : Fmt) (x : Nat) : Lane :=
  match m with
  | .int n => (BitVec.ofNat n x).signExtend 32
  | _ => BitVec.ofNat 32 (x % 2 ^ m.width)
def laneRd (m : Fmt) (x : Lane) : Lane := laneExt m x.toNat
/-- The rounding of a MOD; vector results keep subnormals. -/
def rndOf (md : BitVec 4) : Rnd := { mode := rmodeOf md, sat := satOf md }
/-- LaneFit. -/
def laneFit (m : Fmt) (r : Rnd) (v : FVal) (d : Draw) : Lane × Draw :=
  if m.isFloat then let (x, d) := roundF m r v d; (BitVec.ofNat 32 x, d)
  else let (x, d) := fitInt m r.sat (Sem.floor v) d; (laneExt m x, d)

/-- Lanes computed in ascending order where they are enabled (R26, R127). -/
def eachLane (en : BitVec 64) (f : Nat → Draw → Lane × Draw) (d : Draw) : LaneVec × Draw :=
  let r := (List.range 64).foldl (fun (acc : List Lane × Draw) i =>
    if en.getLsbD i then let (x, d) := f i acc.2; (acc.1 ++ [x], d) else (acc.1 ++ [0], acc.2)) ([], d)
  (tab 64 fun i => r.1.getD i 0, r.2)

def State.vecA (s : State) : LaneVec := s.core.q.getV s.core.q.ir.sa.toNat
def State.vecB (s : State) : LaneVec := s.core.q.getV s.core.q.ir.sb.toNat
def State.vecC (s : State) : LaneVec := s.core.q.getV s.core.q.ir.sc.toNat
/-- The lanes enabled (R84). -/
def State.enabled (s : State) : BitVec 64 := enMask s.core.q s.core.q.ir
/-- The low 32 bits of S(SB). -/
def State.scalarB (s : State) : Lane := s.srcB.setWidth 32

/-- R178: a vector instruction waits while a tile operation occupies the Vector Unit. -/
def vecHold (s : State) : Option State := if s.cyc < s.core.q.vecBusy then some s else none
/-- The issue of a vector instruction whose predicate acts on lanes. -/
def vecIssue (sh : Shape) (lat : Option Nat) (body : State → Res) (s : State) : Out := issueWith sh lat vecHold true body s

/-- A vector result of fixed latency, computed lane by lane. -/
def lanesTo (lat : Nat) (f : State → Nat → Draw → Lane × Draw) (s : State) : Res :=
  let (x, d) := eachLane s.enabled (f s) s.core.draw
  .done ({ s with core := s.core.drawn d }.writeV lat s.core.q.ir.dst s.enabled x)
/-- A vector result that fills between `lo` and `hi` cyc after issue (R129, R141). -/
def lanesFill (lo hi : Nat) (f : State → Nat → Draw → Lane × Draw) (s : State) : Res :=
  let (x, d) := eachLane s.enabled (f s) s.core.draw
  if s.enabled = 0 then .done s
  else .done ({ s with core := s.core.drawn d }.fillIn (some (.v (s.core.q.ir.dst.setWidth 5))) (.value (.lanes s.enabled x)) lo hi)
/-- A cross-lane result (R127): every lane is computed, and the predicate gates the lanes written. -/
def crossTo (lat : Nat) (f : State → LaneVec) (s : State) : Res := .done (s.writeV lat s.core.q.ir.dst s.enabled (f s))

/-! Shapes. -/

def shV2 (f : Fields) : Shape := { dst := .v, sa := .v, sb := .v, tyOk := fvIv f.ty, mdOk := mdArith f, immOk := decide (f.imm = 0) }
def shVmul (f : Fields) : Shape := { shV2 f with emp := if iv f.ty then .long else .zero }
def shVmuls (f : Fields) : Shape := { shVmul f with sb := .s }
def shVadds (f : Fields) : Shape := { shV2 f with sb := .s }
def shFma (f : Fields) : Shape := { shV2 f with sc := .v, tyOk := fv f.ty }
def shMinMax (f : Fields) : Shape := { shV2 f with mdOk := decide (f.md = 0) }
def shSign (f : Fields) : Shape := { shV2 f with sb := .unused, mdOk := if fv f.ty then decide (f.md = 0) else satOnly f.md }
def shVraw2 (f : Fields) : Shape := { plainTy f with dst := .v, sa := .v, sb := .v }
def shVraw1 (f : Fields) : Shape := { plainTy f with dst := .v, sa := .v }
def shVaddi (f : Fields) : Shape := { dst := .v, sa := .v, tyOk := iv f.ty, mdOk := satOnly f.md }
def shVandi (f : Fields) : Shape := { shVraw1 f with immOk := true }
def shVshi (f : Fields) : Shape := { shVraw1 f with immOk := decide (f.imm.toNat < 32) }
def anyLaneTy (t : BitVec 4) : Bool := decide (t = 0) || fvIv t || f8 t
def shVsel (f : Fields) : Shape := { shVraw2 f with sa := .m, sc := .v, tyOk := anyLaneTy f.ty }
def shVbcast (f : Fields) : Shape := { plainTy f with dst := .v, sa := .s }
def shVins (f : Fields) : Shape := { plainTy f with dst := .v, sa := .v, sb := .s, sc := .s }
def shVext (f : Fields) : Shape := { plainTy f with dst := .s, sa := .v, sb := .s, tyOk := anyLaneTy f.ty }
def shViota (f : Fields) : Shape := { dst := .v, sa := .s, sb := .s, tyOk := iv f.ty, mdOk := satOnly f.md, immOk := decide (f.imm = 0) }
def shVcmp (f : Fields) : Shape :=
  { dst := .m, sa := .v, sb := .v, tyOk := fvIv f.ty, mdOk := condOk f.md (fv f.ty), immOk := decide (f.imm = 0) }
def shVclass (f : Fields) : Shape := { dst := .m, sa := .v, sb := .s, tyOk := fv f.ty, mdOk := decide (f.md = 0), immOk := decide (f.imm = 0) }
/-- Formats of VCVT (R135). -/
def cvtFmt (c : Nat) : Bool := decide (1 ≤ c ∧ c ≤ 5) || decide (8 ≤ c ∧ c ≤ 14 ∧ c ≠ 11)
def cvtMd (f : Fields) : Bool :=
  let src := (fmtOfCode (immBits f 0 5)).getD .f32
  if (vecFmt f.ty).isInt && src.isInt then satOnly f.md else mdRounds f.md
/-- VCVT (R135). Which MOD a refused source type asks for is open; the model asks for that of R86 (DESIGN CHOICE, log 113): it decides
between details 3 and 4. -/
def shVcvt (f : Fields) : Shape :=
  { dst := .v, sa := .v, tyOk := cvtFmt f.ty.toNat,
    mdOk := if cvtFmt (immBits f 0 5) then cvtMd f else mdRounds f.md,
    immOk := cvtFmt (immBits f 0 5) && decide (f.imm.toNat < 32) }
def shE2 (f : Fields) : Shape := { dst := .v, sa := .v, tyOk := fv f.ty, mdOk := mdRounds f.md, immOk := decide (f.imm = 0) }
def shBn (f : Fields) : Shape :=
  { dst := .v, sa := .v, tyOk := decide (9 ≤ f.ty.toNat), mdOk := mdRounds f.md, immOk := decide (1 ≤ f.imm.toNat ∧ f.imm.toNat ≤ 3) }
def shVradd (f : Fields) : Shape :=
  { dst := .s, sa := .v, tyOk := fvIv f.ty, mdOk := if fv f.ty then mdRounds f.md else decide (f.md = 0), immOk := decide (f.imm = 0) }
def shVrmin (f : Fields) : Shape := { shVradd f with mdOk := decide (f.md = 0) }
def shVperm2 (f : Fields) : Shape := { shVraw2 f with sc := .v }
def narrow (t : BitVec 4) : Bool := (fvIv t || f8 t) && decide ((vecFmt t).width ≤ 16)
def shVpack (f : Fields) : Shape := { shVraw2 f with tyOk := narrow f.ty }
def shVunpk (f : Fields) : Shape := { shVpack f with sb := .s }
def shVrot (f : Fields) : Shape := { shVraw1 f with immOk := decide (f.imm.toNat < 64) }
def shVfun (f : Fields) (md : Bool) : Shape := { dst := .v, sa := .v, tyOk := fv f.ty, mdOk := md, immOk := decide (f.imm = 0) }
def shVlog (f : Fields) : Shape := { shVfun f (decide (f.md = 0)) with emp := .long }
def shVscl (f : Fields) : Shape := { shVfun f (mdRounds f.md) with sb := .v }
def shVsort (f : Fields) : Shape := { dst := .v, sa := .v, tyOk := fvIv f.ty, mdOk := decide (f.md.toNat ≤ 1), immOk := decide (f.imm = 0) }

/-- R129: floating-point arithmetic 4 cyc, integer 2. -/
def arithLat (f : Fields) : Nat := if fv f.ty then 4 else 2

/-! Arithmetic (R128 to R131). -/

/-- A two-source operation on exact values, the second source given. -/
def vecBinary (op : Rnd → FVal → FVal → FVal) (b : State → Nat → Lane) (s : State) (i : Nat) (d : Draw) : Lane × Draw :=
  let f := s.core.q.ir
  let m := vecFmt f.ty
  laneFit m (rndOf f.md) (op (rndOf f.md) (laneVal m (vat s.vecA i)) (laneVal m (b s i))) d
/-- R22: the sign of an exact zero sum follows the rounding mode. -/
def addVal (r : Rnd) (a b : FVal) : FVal := Sem.add (r.mode == .rd) a b
def subVal (r : Rnd) (a b : FVal) : FVal := addVal r a (Sem.neg b)
def mulVal (_ : Rnd) (a b : FVal) : FVal := Sem.mul a b
def laneB (s : State) (i : Nat) : Lane := vat s.vecB i
def laneSB (s : State) (_ : Nat) : Lane := s.scalarB

/-- R128: a fused operation of three sources. -/
def vecFused (op : Rnd → FVal → FVal → FVal → FVal) (s : State) (i : Nat) (d : Draw) : Lane × Draw :=
  let f := s.core.q.ir
  let m := vecFmt f.ty
  let v (x : LaneVec) := laneVal m (vat x i)
  laneFit m (rndOf f.md) (op (rndOf f.md) (v s.vecA) (v s.vecB) (v s.vecC)) d

/-- The order of R130 on values: −0 below +0. -/
def ltV (a b : FVal) : Bool :=
  match Sem.cmp a b with
  | .lt => true
  | .gt => false
  | .eq => Sem.negative a && !Sem.negative b
/-- R130: MinV and MaxV. -/
def minV (a b : FVal) : FVal := if Sem.isNaN a then b else if Sem.isNaN b then a else if ltV b a then b else a
def maxV (a b : FVal) : FVal := if Sem.isNaN a then b else if Sem.isNaN b then a else if ltV a b then b else a

/-- R130: absolute value and negation; the sign of an integer result is arithmetic. -/
def vecUnary (op : FVal → FVal) (s : State) (i : Nat) (d : Draw) : Lane × Draw :=
  let f := s.core.q.ir
  let m := vecFmt f.ty
  laneFit m { sat := satOf f.md } (op (laneVal m (vat s.vecA i))) d

def rawBinary (op : Lane → Lane → Lane) (b : State → Nat → Lane) (s : State) (i : Nat) (d : Draw) : Lane × Draw :=
  (op (vat s.vecA i) (b s i), d)
def immLane (s : State) (_ : Nat) : Lane := s.core.q.ir.imm.signExtend 32
def laneShl (a b : Lane) : Lane := a <<< (b.toNat % 32)
def laneShr (a b : Lane) : Lane := a >>> (b.toNat % 32)
def laneSra (a b : Lane) : Lane := a.sshiftRight (b.toNat % 32)

def vecArith (op : Rnd → FVal → FVal → FVal) (s : State) : Out :=
  vecIssue (shV2 s.core.q.ir) (some (arithLat s.core.q.ir)) (lanesTo (arithLat s.core.q.ir) (vecBinary op laneB)) s
def vecArithS (op : Rnd → FVal → FVal → FVal) (s : State) : Out :=
  vecIssue (shVadds s.core.q.ir) (some (arithLat s.core.q.ir)) (lanesTo (arithLat s.core.q.ir) (vecBinary op laneSB)) s
/-- R129: a product of integers is long-latency. -/
def vecMulWith (sh : Shape) (b : State → Nat → Lane) (s : State) : Out :=
  if iv s.core.q.ir.ty then vecIssue sh none (lanesFill 5 9 (vecBinary mulVal b)) s
  else vecIssue sh (some 4) (lanesTo 4 (vecBinary mulVal b)) s
def vecFma (op : Rnd → FVal → FVal → FVal → FVal) (s : State) : Out :=
  vecIssue (shFma s.core.q.ir) (some 4) (lanesTo 4 (vecFused op)) s
def vecMinMax (op : FVal → FVal → FVal) (s : State) : Out :=
  vecIssue (shMinMax s.core.q.ir) (some (arithLat s.core.q.ir)) (lanesTo (arithLat s.core.q.ir) (vecBinary (fun _ => op) laneB)) s
def vecSign (op : FVal → FVal) (s : State) : Out :=
  vecIssue (shSign s.core.q.ir) (some (arithLat s.core.q.ir)) (lanesTo (arithLat s.core.q.ir) (vecUnary op)) s
def vecRaw (op : Lane → Lane → Lane) (s : State) : Out := vecIssue (shVraw2 s.core.q.ir) (some 2) (lanesTo 2 (rawBinary op laneB)) s
def vecShiftImm (op : Lane → Lane → Lane) (s : State) : Out :=
  vecIssue (shVshi s.core.q.ir) (some 2) (lanesTo 2 (rawBinary op immLane)) s
def vecMove (s : State) : Out := vecIssue (shVraw1 s.core.q.ir) (some 2) (lanesTo 2 fun s i d => (vat s.vecA i, d)) s

/-! Compares (R133, R134). -/

/-- A mask result of latency 2. -/
def maskTo (p : State → Nat → Bool) (s : State) : Res :=
  .done (s.writeM 2 s.core.q.ir.dst s.enabled
    (BitVec.ofNat 64 ((List.range 64).foldl (fun n i => if s.enabled.getLsbD i && p s i then n + 2 ^ i else n) 0)))
def cmpLane (s : State) (i : Nat) : Bool :=
  let f := s.core.q.ir
  let m := vecFmt f.ty
  condFlt f.md (laneVal m (vat s.vecA i)) (laneVal m (vat s.vecB i))
/-- The class number of R134. -/
def classOf (m : Fmt) (v : FVal) : Nat :=
  match v with
  | .nan => 8
  | .inf s => if s then 0 else 7
  | .fin s k _ =>
    if k = 0 then (if s then 3 else 4)
    else if k < 2 ^ m.frac then (if s then 2 else 5)
    else if s then 1 else 6
def classLane (s : State) (i : Nat) : Bool :=
  let m := vecFmt s.core.q.ir.ty
  s.srcB.getLsbD (classOf m (laneVal m (vat s.vecA i)))

/-! Conversions (R135 to R138). -/

def cvtLane (s : State) (i : Nat) (d : Draw) : Lane × Draw :=
  let f := s.core.q.ir
  let m := vecFmt f.ty
  let src := (fmtOfCode (immBits f 0 5)).getD .f32
  let v := laneVal src (vat s.vecA i)
  if src.isFloat && m.isInt then let (x, d) := floatToInt m (rmodeOf f.md) v d; (laneExt m x, d)
  else laneFit m (rndOf f.md) v d

/-- The 256-byte image of a register (R125), and a register from one. -/
def imageOf (v : LaneVec) : List Byte := v.toList.flatMap fun x => leBytes 4 x.toNat
def laneOfImage (bs : List Byte) : LaneVec :=
  let a := bs.toArray
  tab 64 fun i => BitVec.ofNat 32 (leNat ((List.range 4).map fun j => a.getD (4 * i + j) 0))

/-- A cross-lane instruction that rounds: the whole result, its events and its draws (R127). -/
def crossDraw (lat : Nat) (f : State → Draw → LaneVec × Draw) (s : State) : Res :=
  let (x, d) := f s s.core.draw
  .done ({ s with core := s.core.drawn d }.writeV lat s.core.q.ir.dst s.enabled x)

def valuesOf (m : Fmt) (v : LaneVec) : List FVal := v.toList.map (laneVal m)
/-- R136. -/
def e2EncodeLanes (s : State) (d : Draw) : LaneVec × Draw :=
  let f := s.core.q.ir
  let vs := valuesOf (vecFmt f.ty) s.vecA
  let (b0, d) := e2Encode (rndOf f.md) (vs.take 32) d
  let (b1, d) := e2Encode (rndOf f.md) (vs.drop 32) d
  (laneOfImage (e2Bytes b0 ++ e2Bytes b1 ++ leBytes 16 b0.scale ++ leBytes 16 b1.scale), d)
/-- Values fitted to a format, in ascending order of lane. -/
def fitAll (m : Fmt) (r : Rnd) (vs : List FVal) (d : Draw) : LaneVec × Draw :=
  let res := vs.foldl (fun (acc : List Lane × Draw) v => let (x, d) := laneFit m r v acc.2; (acc.1 ++ [x], d)) ([], d)
  (tab 64 fun i => res.1.getD i 0, res.2)
/-- R137: an undecodable escape is one NaN, counted as its element is written. -/
def e2DecodeLanes (s : State) (d : Draw) : LaneVec × Draw :=
  let f := s.core.q.ir
  let im := imageOf s.vecA
  let block (k : Nat) : E2Block := { codes := e2Codes ((im.drop (16 * k)).take 16), scale := leNat ((im.drop (32 + 16 * k)).take 16) }
  let vs := e2Decode (block 0) ++ e2Decode (block 1)
  fitAll (vecFmt f.ty) (rndOf f.md) vs d
/-- The block width n of a column-B TYPE. -/
def bnOf (t : BitVec 4) : Nat := match tyB t with | some (.bfp n) => n | _ => 8
def shortFmt (f : Fields) : Fmt := (fmtOfCode (immBits f 0 5)).getD .f32
/-- R138: VBENC. -/
def bEncodeLanes (s : State) (d : Draw) : LaneVec × Draw :=
  let f := s.core.q.ir
  let n := bnOf f.ty
  let vs := valuesOf (shortFmt f) s.vecA
  let r := (List.range 4).foldl (fun (acc : (List Byte × List Byte) × Draw) k =>
    let (b, d) := bEncode n { rndOf f.md with flush := true } ((vs.drop (16 * k)).take 16) acc.2
    ((acc.1.1 ++ bBytes n b ++ List.replicate (16 - 2 * n) 0, acc.1.2 ++ [BitVec.ofNat 8 b.exp]), d)) (([], []), d)
  (laneOfImage (r.1.1 ++ r.1.2), r.2)
/-- R138: VBDEC. -/
def bDecodeLanes (s : State) (d : Draw) : LaneVec × Draw :=
  let f := s.core.q.ir
  let n := bnOf f.ty
  let im := imageOf s.vecA
  let vs := (List.range 4).flatMap fun k =>
    bDecode n { mants := bMants n ((im.drop (16 * k)).take (2 * n)), exp := (im.getD (64 + k) 0).toNat }
  fitAll (shortFmt f) (rndOf f.md) vs d

/-! Reductions (R139). -/

def combine (comb : FVal → FVal → Draw → FVal × Draw) (a b : Option FVal) (d : Draw) : Option FVal × Draw :=
  match a, b with
  | some x, some y => let (v, d) := comb x y d; (some v, d)
  | some x, none => (some x, d)
  | none, y => (y, d)
/-- One level: element i with element i + h. -/
def reduceLevel (comb : FVal → FVal → Draw → FVal × Draw) (h : Nat) (vs : List (Option FVal)) (d : Draw) :
    List (Option FVal) × Draw :=
  (List.range h).foldl (fun (acc : List (Option FVal) × Draw) i =>
    let (v, d) := combine comb (vs.getD i none) (vs.getD (i + h) none) acc.2
    (acc.1 ++ [v], d)) ([], d)
def reduceTree (comb : FVal → FVal → Draw → FVal × Draw) (vs : List (Option FVal)) (d : Draw) : Option FVal × Draw :=
  let r := [32, 16, 8, 4, 2, 1].foldl (fun (acc : List (Option FVal) × Draw) h => reduceLevel comb h acc.1 acc.2) (vs, d)
  (r.1.headD none, r.2)

/-- The value a reduction starts from when no lane takes part. -/
def largestOf (m : Fmt) (neg : Bool) : FVal :=
  if m.isFloat then .inf neg else let i := if neg then m.range.1 else m.range.2; .fin (decide (i < 0)) i.natAbs 0
/-- R139: each combination rounds; a NaN is counted when the result is written. -/
def sumComb (m : Fmt) (r : Rnd) (x y : FVal) (d : Draw) : FVal × Draw :=
  if m.isFloat then
    let (p, d') := roundF m r (addVal r x y) d
    (decodeFloat m p, { d' with st := { d'.st with nan := d.st.nan } })
  else (Sem.add false x y, d)
/-- The result of a reduction in S(DST). -/
def reduceResult (m : Fmt) (v : FVal) (d : Draw) : Word × Draw :=
  if m.isFloat then let (x, d) := roundF m {} v d; (BitVec.ofNat 64 x, d)
  else (BitVec.ofInt 64 (Sem.floor v), d)
def reduceTo (comb : Fmt → Rnd → FVal → FVal → Draw → FVal × Draw) (none' : Fmt → FVal) (s : State) : Res :=
  let f := s.core.q.ir
  let m := vecFmt f.ty
  let vs := (List.range 64).map fun i => if s.enabled.getLsbD i then some (laneVal m (vat s.vecA i)) else none
  let (v, d) := reduceTree (comb m (rndOf f.md)) vs s.core.draw
  let (w, d) := reduceResult m (v.getD (none' m)) d
  .done ({ s with core := s.core.drawn d }.writeS 6 f.dst w)

/-! Permutes (R140). -/

def packLanes (s : State) : LaneVec :=
  let w := (vecFmt s.core.q.ir.ty).width
  let elem (k : Nat) : Nat := (if k < 64 then (vat s.vecA k).toNat else (vat s.vecB k).toNat) % 2 ^ w
  let per := 32 / w
  tab 64 fun i => BitVec.ofNat 32 ((List.range per).foldl (fun n j =>
    let k := per * i + j
    if k < 128 then n + elem k * 2 ^ (w * j) else n) 0)
def unpackLanes (s : State) : LaneVec :=
  let m := vecFmt s.core.q.ir.ty
  let w := m.width
  let per := 32 / w
  let p := s.srcB.toNat % per
  tab 64 fun i =>
    let k := 64 * p + i
    laneExt m ((vat s.vecA (k / per)).toNat / 2 ^ (w * (k % per)))

/-! Functions (R141, R142). -/

/-- A function of R142: its special inputs answer a value at once. Where it flushes, a zero for a finite input, whose exact result is
never zero, counts one FLUSH. -/
def funLane (g : FVal → BitVec 32 → FVal) (flush : Bool) (s : State) (i : Nat) (d : Draw) : Lane × Draw :=
  let f := s.core.q.ir
  let m := vecFmt f.ty
  let v := laneVal m (vat s.vecA i)
  let r := g v (BitVec.ofNat 32 (roundF .f32 {} v { lfsr := 0 }).1)
  let (x, d') := roundF m { sat := satOf f.md, flush := flush } r d
  let gone := flush && Sem.isFinite v && decide (x % 2 ^ (m.width - 1) = 0) && decide (d'.st.flush = d.st.flush)
  (BitVec.ofNat 32 x, if gone then d'.flush else d')
/-- An overflow beyond every format that rounding treats by R24. -/
def beyond (s : Bool) : FVal := .fin s 1 200
def expFun (v : FVal) (p : BitVec 32) : FVal :=
  match v with
  | .nan => .nan
  | .inf s => if s then .fin false 0 0 else .inf false
  | .fin s m e =>
    if m = 0 then .fin false 1 0
    else if !s && decide (88720 * fxOne < 1000 * fxOf (.fin s m e)) then beyond false
    else expValue (.fin s m e) p
def logFun (v : FVal) (p : BitVec 32) : FVal :=
  match v with
  | .nan => .nan
  | .inf s => if s then .nan else .inf false
  | .fin s m e =>
    if m = 0 then .inf true
    else if s then .nan
    else if Sem.cmp v (.fin false 1 0) == .eq then .fin false 0 0
    else logValue m e p
def rcpFun (v : FVal) (p : BitVec 32) : FVal :=
  match v with
  | .nan => .nan
  | .inf s => .fin s 0 0
  | .fin s m e => if m = 0 then .inf s else rcpValue s m e p
def rsqrtFun (v : FVal) (p : BitVec 32) : FVal :=
  match v with
  | .nan => .nan
  | .inf s => if s then .nan else .fin false 0 0
  | .fin s m e => if m = 0 then .inf s else if s then .nan else rsqrtValue m e p
/-- VRND: an integral value keeps the sign of its source. -/
def rndLane (s : State) (i : Nat) (d : Draw) : Lane × Draw :=
  let f := s.core.q.ir
  let m := vecFmt f.ty
  match laneVal m (vat s.vecA i) with
  | .fin g k e =>
    let (n, _, d) := roundAt (rmodeOf f.md) g k e 0 d
    laneFit m {} (.fin g n 0) d
  | v => laneFit m {} v d
def sclLane (s : State) (i : Nat) (d : Draw) : Lane × Draw :=
  let f := s.core.q.ir
  let m := vecFmt f.ty
  laneFit m (rndOf f.md) (Sem.scale (vat s.vecB i).toInt (laneVal m (vat s.vecA i))) d

/-! Sorting (R143). -/

/-- A key of R143: NaN above everything, −0 below +0. -/
def sortKey (m : Fmt) (v : FVal) (x : Lane) : Int :=
  if m.isFloat then
    let mag : Int := (x.toNat % 2 ^ (m.width - 1) : Nat)
    if Sem.isNaN v then 2 ^ 40 else if Sem.negative v then -1 - mag else mag
  else Sem.floor v
/-- The place of a key among sorted ones. -/
def insertKey (p : Int × Lane) : List (Int × Lane) → List (Int × Lane)
  | [] => [p]
  | y :: ys => if p.1 < y.1 then p :: y :: ys else y :: insertKey p ys
def sortLanes (s : State) (d : Draw) : LaneVec × Draw :=
  let f := s.core.q.ir
  let m := vecFmt f.ty
  let ks := s.vecA.toList.map fun x =>
    let v := laneVal m x
    (sortKey m v x, if Sem.isNaN v then BitVec.ofNat 32 m.nanBits else laneRd m x)
  let d := d.nan (s.vecA.toList.filter fun x => Sem.isNaN (laneVal m x)).length
  let sorted := (ks.foldl (fun acc p => insertKey p acc) []).map (·.2)
  let l := if f.md.getLsbD 0 then sorted.reverse else sorted
  (tab 64 fun i => l.getD i 0, d)

/-! Loads and stores (R144 to R147). -/

def vecMemTy (t : BitVec 4) : Bool := anyLaneTy t
def shVld (f : Fields) : Shape :=
  { dst := .v, sa := .s, sc := memSc f, tyOk := vecMemTy f.ty, mdOk := !f.md.getLsbD 3, emp := loadEmp [2, 3] [0, 4, 5] f }
def shVst (f : Fields) : Shape := { sa := .v, sb := .s, sc := memSc f, tyOk := vecMemTy f.ty, mdOk := !f.md.getLsbD 3 }
/-- Bytes of an element in memory. -/
def laneBytes (t : BitVec 4) : Nat := (vecFmt t).width / 8

def vecLoad (stride : Nat → Nat) (s : State) : Res :=
  let f := s.core.q.ir
  let w := laneBytes f.ty
  let reg : RegRef := .v (f.dst.setWidth 5)
  let l : LoadForm := { base := (effAddr s.srcA f).toNat, width := w, sx := (match vecFmt f.ty with | .int _ => true | _ => false),
                        vec := true, en := s.enabled, stride := stride w }
  if s.enabled = 0 then .done s
  else
    let k : AccessCheck := { vec := true, store := false, space := spaceOf f, ea := effAddr s.srcA f, width := w,
                             extent := l.extent, sc := s.srcC }
    match k.fails with
    | some t => .trap t
    | none => doLoad k l 1 6 reg s

def vecStore (one : Bool) (s : State) : Res :=
  let f := s.core.q.ir
  let w := laneBytes f.ty
  if s.enabled = 0 then .done s
  else
    let k : AccessCheck := { vec := true, store := true, space := spaceOf f, ea := effAddr s.srcB f, width := w,
                             extent := if one then w else 64 * w, sc := s.srcC }
    match k.fails with
    | some t => .trap t
    | none =>
      let on := (List.range 64).filter fun i => s.enabled.getLsbD i
      let bytes (i a : Nat) : List (Nat × Byte) := spanAt a (leBytes w (vat s.vecA i).toNat)
      let bs := if one then bytes (on.headD 0) k.ea.toNat else on.flatMap fun i => bytes i (k.ea.toNat + i * w)
      doStore k bs 1 s

def vecLoadWith (stride : Nat → Nat) (s : State) : Out :=
  vecIssue (shVld s.core.q.ir) (loadLat [2, 3] 6 s.core.q.ir) (vecLoad stride) s
def vecStoreWith (one : Bool) (s : State) : Out := vecIssue (shVst s.core.q.ir) none (vecStore one) s

/-! Meanings. -/

/-- VADD (R128). -/
def execVadd (s : State) : Out := vecArith addVal s
/-- VSUB (R128). -/
def execVsub (s : State) : Out := vecArith subVal s
/-- VMUL (R128, R129). -/
def execVmul (s : State) : Out := vecMulWith (shVmul s.core.q.ir) laneB s
/-- VFMA (R128). -/
def execVfma (s : State) : Out := vecFma (fun r a b c => addVal r (Sem.mul a b) c) s
/-- VFMS (R128). -/
def execVfms (s : State) : Out := vecFma (fun r a b c => subVal r (Sem.mul a b) c) s
/-- VFNMA (R128). -/
def execVfnma (s : State) : Out := vecFma (fun r a b c => subVal r c (Sem.mul a b)) s
/-- VMIN (R130). -/
def execVmin (s : State) : Out := vecMinMax minV s
/-- VMAX (R130). -/
def execVmax (s : State) : Out := vecMinMax maxV s
/-- VABS (R130). -/
def execVabs (s : State) : Out := vecSign Sem.abs s
/-- VNEG (R130). -/
def execVneg (s : State) : Out := vecSign Sem.neg s
/-- VAND (R128). -/
def execVand (s : State) : Out := vecRaw (· &&& ·) s
/-- VOR (R128). -/
def execVor (s : State) : Out := vecRaw (· ||| ·) s
/-- VXOR (R128). -/
def execVxor (s : State) : Out := vecRaw (· ^^^ ·) s
/-- VSHL (R128). -/
def execVshl (s : State) : Out := vecRaw laneShl s
/-- VSHR (R128). -/
def execVshr (s : State) : Out := vecRaw laneShr s
/-- VSRA (R128). -/
def execVsra (s : State) : Out := vecRaw laneSra s
/-- VADDS (R128). -/
def execVadds (s : State) : Out := vecArithS addVal s
/-- VMULS (R128, R129). -/
def execVmuls (s : State) : Out := vecMulWith (shVmuls s.core.q.ir) laneSB s
/-- VADDI (R131). -/
def execVaddi (s : State) : Out :=
  vecIssue (shVaddi s.core.q.ir) (some 2) (lanesTo 2 fun s i d =>
    let f := s.core.q.ir
    let m := vecFmt f.ty
    let k := immS f
    laneFit m (rndOf f.md) (Sem.add false (laneVal m (vat s.vecA i)) (.fin (decide (k < 0)) k.natAbs 0)) d) s
/-- VANDI (R131). -/
def execVandi (s : State) : Out := vecIssue (shVandi s.core.q.ir) (some 2) (lanesTo 2 (rawBinary (· &&& ·) immLane)) s
/-- VSHLI (R131). -/
def execVshli (s : State) : Out := vecShiftImm laneShl s
/-- VSHRI (R131). -/
def execVshri (s : State) : Out := vecShiftImm laneShr s
/-- VSRAI (R131). -/
def execVsrai (s : State) : Out := vecShiftImm laneSra s
/-- VMOV (R132). -/
def execVmov (s : State) : Out := vecMove s
/-- VSEL (R132). -/
def execVsel (s : State) : Out :=
  vecIssue (shVsel s.core.q.ir) (some 2) (lanesTo 2 fun s i d =>
    (if (s.core.q.getM s.core.q.ir.sa.toNat).getLsbD i then vat s.vecB i else vat s.vecC i, d)) s
/-- VBCAST (R132). -/
def execVbcast (s : State) : Out := vecIssue (shVbcast s.core.q.ir) (some 3) (lanesTo 3 fun s _ d => (s.srcA.setWidth 32, d)) s
/-- VINS (R132). -/
def execVins (s : State) : Out :=
  vecIssue (shVins s.core.q.ir) (some 3) (lanesTo 3 fun s i d => (if i = s.srcC.toNat % 64 then s.scalarB else vat s.vecA i, d)) s
/-- VEXT (R132). -/
def execVext (s : State) : Out :=
  issueWith (shVext s.core.q.ir) (some 3) vecHold false (fun s =>
    let f := s.core.q.ir
    let m := vecFmt f.ty
    let x := laneRd m (vat s.vecA (s.srcB.toNat % 64))
    .done (s.writeS 3 f.dst (match m with | .int _ => x.signExtend 64 | _ => x.setWidth 64))) s
/-- VIOTA (R132). -/
def execViota (s : State) : Out :=
  vecIssue (shViota s.core.q.ir) (some 2) (lanesTo 2 fun s i d =>
    let f := s.core.q.ir
    let m := vecFmt f.ty
    let k := intVal m (s.srcA.toNat % 2 ^ m.width) + i * intVal m (s.srcB.toNat % 2 ^ m.width)
    laneFit m (rndOf f.md) (.fin (decide (k < 0)) k.natAbs 0) d) s
/-- VCMP (R133). -/
def execVcmp (s : State) : Out := vecIssue (shVcmp s.core.q.ir) (some 2) (maskTo cmpLane) s
/-- VCLASS (R134). -/
def execVclass (s : State) : Out := vecIssue (shVclass s.core.q.ir) (some 2) (maskTo classLane) s
/-- VCVT (R135). -/
def execVcvt (s : State) : Out := vecIssue (shVcvt s.core.q.ir) (some 4) (lanesTo 4 cvtLane) s
/-- VE2ENC (R136). -/
def execVe2enc (s : State) : Out := vecIssue (shE2 s.core.q.ir) (some 4) (crossDraw 4 e2EncodeLanes) s
/-- VE2DEC (R137). -/
def execVe2dec (s : State) : Out := vecIssue (shE2 s.core.q.ir) (some 4) (crossDraw 4 e2DecodeLanes) s
/-- VBENC (R138). -/
def execVbenc (s : State) : Out := vecIssue (shBn s.core.q.ir) (some 4) (crossDraw 4 bEncodeLanes) s
/-- VBDEC (R138). -/
def execVbdec (s : State) : Out := vecIssue (shBn s.core.q.ir) (some 4) (crossDraw 4 bDecodeLanes) s
/-- VRADD (R139). -/
def execVradd (s : State) : Out := vecIssue (shVradd s.core.q.ir) (some 6) (reduceTo sumComb fun _ => .fin false 0 0) s
/-- VRMIN (R139). -/
def execVrmin (s : State) : Out :=
  vecIssue (shVrmin s.core.q.ir) (some 6) (reduceTo (fun _ _ a b d => (minV a b, d)) fun m => largestOf m false) s
/-- VRMAX (R139). -/
def execVrmax (s : State) : Out :=
  vecIssue (shVrmin s.core.q.ir) (some 6) (reduceTo (fun _ _ a b d => (maxV a b, d)) fun m => largestOf m true) s
/-- VPERM (R140). -/
def execVperm (s : State) : Out :=
  vecIssue (shVraw2 s.core.q.ir) (some 3) (crossTo 3 fun s => tab 64 fun i => vat s.vecA ((vat s.vecB i).toNat % 64)) s
/-- VPERM2 (R140). -/
def execVperm2 (s : State) : Out :=
  vecIssue (shVperm2 s.core.q.ir) (some 3) (crossTo 3 fun s => tab 64 fun i =>
    let j := (vat s.vecC i).toNat % 128
    if j < 64 then vat s.vecA j else vat s.vecB (j - 64)) s
/-- VPACK (R140). -/
def execVpack (s : State) : Out := vecIssue (shVpack s.core.q.ir) (some 3) (crossTo 3 packLanes) s
/-- VUNPK (R140). -/
def execVunpk (s : State) : Out := vecIssue (shVunpk s.core.q.ir) (some 3) (crossTo 3 unpackLanes) s
/-- VROT (R140). -/
def execVrot (s : State) : Out :=
  vecIssue (shVrot s.core.q.ir) (some 3) (crossTo 3 fun s => tab 64 fun i => vat s.vecA (i + s.core.q.ir.imm.toNat % 64)) s
/-- VEXP (R141, R142). -/
def execVexp (s : State) : Out := vecIssue (shVfun s.core.q.ir (satOnly s.core.q.ir.md)) (some 8) (lanesTo 8 (funLane expFun true)) s
/-- VLOG (R141, R142). -/
def execVlog (s : State) : Out := vecIssue (shVlog s.core.q.ir) none (lanesFill 10 14 (funLane logFun false)) s
/-- VRCP (R141, R142). -/
def execVrcp (s : State) : Out := vecIssue (shVfun s.core.q.ir (satOnly s.core.q.ir.md)) (some 8) (lanesTo 8 (funLane rcpFun true)) s
/-- VRSQRT (R141, R142). -/
def execVrsqrt (s : State) : Out :=
  vecIssue (shVfun s.core.q.ir (decide (s.core.q.ir.md = 0))) (some 8) (lanesTo 8 (funLane rsqrtFun true)) s
/-- VRND (R141). -/
def execVrnd (s : State) : Out := vecIssue (shVfun s.core.q.ir (decide (s.core.q.ir.md.toNat ≤ 4))) (some 4) (lanesTo 4 rndLane) s
/-- VSCL (R141). -/
def execVscl (s : State) : Out := vecIssue (shVscl s.core.q.ir) (some 4) (lanesTo 4 sclLane) s
/-- VSORT (R143). -/
def execVsort (s : State) : Out := vecIssue (shVsort s.core.q.ir) (some 12) (crossDraw 12 sortLanes) s
/-- VLD (R144). -/
def execVld (s : State) : Out := vecLoadWith id s
/-- VST (R144). -/
def execVst (s : State) : Out := vecStoreWith false s
/-- VLDS (R144). -/
def execVlds (s : State) : Out := vecLoadWith (fun _ => 0) s
/-- VSTS (R144). -/
def execVsts (s : State) : Out := vecStoreWith true s

/-! Short forms (R83). -/

/-- VADD_F32_SHORT (R83). -/
def execVaddF32Short (s : State) : Out := vecArith addVal s
/-- VSUB_SHORT (R83). -/
def execVsubShort (s : State) : Out := vecArith subVal s
/-- VMUL_SHORT (R83). -/
def execVmulShort (s : State) : Out := vecMulWith (shVmul s.core.q.ir) laneB s
/-- VADD_I32_SHORT (R83). -/
def execVaddI32Short (s : State) : Out := vecArith addVal s
/-- VMOV_SHORT (R83). -/
def execVmovShort (s : State) : Out := vecMove s
/-- VMAX_SHORT (R83). -/
def execVmaxShort (s : State) : Out := vecMinMax maxV s
/-- VLD_SHORT (R83). -/
def execVldShort (s : State) : Out := vecLoadWith id s
/-- VST_SHORT (R83). -/
def execVstShort (s : State) : Out := vecStoreWith false s

end Sys2Proof.Machine
end

