-- ==== Sys2Proof/Machine/Tile.lean ====
section
/-! DEFINITION. Tile registers (03 R49 to R52, 08, 09 R174 to R187): their bytes, classification, configuration, slices, table and
mode instructions, spills and exception pairs. -/

namespace Sys2Proof.Machine

open Sys2Proof Decode

/-! A tile register. -/

def TileReg.format (t : TileReg) : Fmt := (fmtOfCode t.fmt.toNat).getD .f32
def TileReg.nrows (t : TileReg) : Nat := t.rows.toNat + 1
def TileReg.ncols (t : TileReg) : Nat := t.cols.toNat + 1
def TileReg.count (t : TileReg) : Nat := t.nrows * t.ncols
/-- R174: the buffer of TLOC: 1 A, 2 C. -/
def TileReg.buf (t : TileReg) : Nat := t.space.toNat - 1
/-- Element bytes. -/
def TileReg.bytes (t : TileReg) : Nat := t.count * t.format.width / 8
def TileReg.blank (t : TileReg) : Bool := t.entry.kind == .unconf

def CoreSt.reg (c : CoreSt) (n : Nat) : TileReg := vat c.tile.t n
def CoreSt.modReg (c : CoreSt) (n : Nat) (f : TileReg → TileReg) : CoreSt :=
  c.modTile fun t => { t with t := vput t.t n (f (vat t.t n)) }
def State.reg (s : State) (n : Nat) : TileReg := s.core.reg n
def State.modReg (s : State) (n : Nat) (f : TileReg → TileReg) : State := { s with core := s.core.modReg n f }

/-- R175: the stored bytes of a register: element data, and scale data 8 KiB above it. -/
def CoreSt.regBytes (c : CoreSt) (t : TileReg) : List Byte × List Byte :=
  let m := c.tile.buf t.buf
  (Mem.readN m t.offset.toNat t.bytes, Mem.readN m (t.offset.toNat + 8192) (scaleBytes t.format t.count))
def CoreSt.storedElems (c : CoreSt) (t : TileReg) : List Elem :=
  if t.entry.kind = .stored then let b := c.regBytes t; elemsOfBytes t.format t.count b.1 b.2 else []
/-- Synth of every element (R178); none for a REPEAT whose source is refused or breaks R159. -/
def State.synth (s : State) (c : CoreSt) (t : TileReg) : Except HandleErr (List Elem) :=
  s.entryElems c t.format t.nrows t.ncols t.entry (c.storedElems t)
/-- The trap of a refused handle (R156): TILE_HANDLE with the handle, or PAGE_FAULT with the address that failed (R320). -/
def handleTrap (h : Word) (x : HandleErr) : TrapInfo :=
  match x with
  | .tile d => trapOf TILE_HANDLE d h
  | .page d va => trapOf PAGE_FAULT d (BitVec.ofNat 64 va)
/-- The failure of a REPEAT at its use (R156, R180): that of its source's handle. -/
def badRepeat (t : TileReg) (x : HandleErr) : TrapInfo := handleTrap (BitVec.ofNat 64 (plField t.entry 0 51)) x

/-- The new contents of a register: its entry and the bytes written to TLOC. -/
structure TileOut where
  entry : TileEntry
  data : List Byte := []
  scales : List Byte := []
deriving DecidableEq, Repr

/-- A STORED entry of a register, with the summary of its elements. -/
def storedEntry (t : TileReg) (es : List Elem) : TileEntry :=
  withSummary { kind := .stored, payload := plStored t.space.toNat t.offset.toNat } es
/-- Classify (R179): elements with their bytes. -/
def classify (t : TileReg) (es : List Elem) (data scales : List Byte) : TileOut :=
  match detect t.format es with
  | some e => { entry := e, scales := scales }
  | none => { entry := storedEntry t es, data := data, scales := scales }
/-- Classify of elements of a format that is no block format. -/
def classifyElems (t : TileReg) (es : List Elem) : TileOut := classify t es (bytesOfElems t.format es) []
/-- Values encoded into the register's format (R30, R32) and classified. -/
def classifyBlocks (t : TileReg) (r : Rnd) (vs : List FVal) (d : Draw) : TileOut × Draw :=
  let (b, d) := encodeBlocks t.format r vs d
  (classify t (decodeBlocks t.format vs.length b.1 b.2) b.1 b.2, d)
/-- Promote (R178): the elements as bytes, the entry STORED. -/
def promoteOut (t : TileReg) (es : List Elem) : TileOut :=
  if t.format.isBlock then
    let b := (encodeBlocks t.format {} (es.map (·.val)) { lfsr := 0 }).1
    { entry := storedEntry t es, data := b.1, scales := b.2 }
  else { entry := storedEntry t es, data := bytesOfElems t.format es }

/-- The bytes of new contents, by buffer address. -/
def TileOut.spans (o : TileOut) (t : TileReg) : List (Nat × Byte) :=
  spanAt t.offset.toNat o.data ++ spanAt (t.offset.toNat + 8192) o.scales
/-- R178: every write of a register sets DIRTY. -/
def TileReg.take (t : TileReg) (o : TileOut) (whole : Bool) : TileReg :=
  { t with entry := { o.entry with dirty := true }, defined := t.defined || whole }
/-- New contents from an engine: they land at once. -/
def CoreSt.putTile (c : CoreSt) (n : Nat) (o : TileOut) (whole : Bool) : CoreSt :=
  let t := c.reg n
  (c.writeBuf t.buf (o.spans t)).modReg n fun t => t.take o whole

/-- R62, R176, R178: new contents from a Sequencer instruction: the bytes land, and the effect is complete, before cyc `ready`; the
Vector Unit is taken up to cyc `busy`. -/
def State.putTile (s : State) (n : Nat) (o : TileOut) (whole : Bool) (busy ready : Nat) : State :=
  let t := s.reg n
  let bs := o.spans t
  let w : PadWrite := { buf := t.buf, addr := 0, bytes := bs, vec := true, due := ready }
  let c := bs.foldl (fun (c : CoreSt) p => c.pend t.buf p.1 1) s.core
  let c := c.modReg n fun t => { t.take o whole with ready := ready }
  { s with core := c.modQ fun q => { q with pad := (if bs.isEmpty then q.pad else q.pad ++ [w]), vecBusy := max q.vecBusy busy } }

/-- R178: cyc of the Vector Unit for a computed operation. -/
def TileReg.cycs (t : TileReg) : Nat := (t.count + 63) / 64
/-- The result of a tile operation that resolved symbolically or was computed (R178). -/
def State.tileResult (s : State) (n : Nat) (o : TileOut) (sym whole : Bool) : State :=
  let p := (s.reg n).cycs
  if sym then s.putTile n o whole (s.cyc + 1) (s.cyc + 1) else s.putTile n o whole (s.cyc + p) (s.cyc + p + 4)

/-- R387: a read of a tile register that is not defined in the open phase sets LIVE. -/
def State.readTiles (s : State) (ns : List Nat) : State :=
  if s.core.ph.en && ns.any fun n => !(s.reg n).defined then { s with core := s.core.modPh fun p => { p with live := true } } else s

/-- R154: reads that synthesize the elements keep the tensor entries of the sources of REPEATs too. -/
def State.useTiles (s : State) (ns : List Nat) : State :=
  ns.foldl (fun (s : State) n => s.keepSource s.core.num (s.reg n).entry) (s.readTiles ns)
/-- R384: bytes of a register's region, or its entry, hold an uncorrectable error. -/
def CoreSt.spoiledIn (c : CoreSt) (t : TileReg) (off len : Nat) : Bool :=
  t.entry.spoiled || (t.entry.kind == .stored && c.isPoisoned t.buf (t.offset.toNat + off) len)
/-- R384, R390: an uncorrectable error that a tile instruction reads is consumed. -/
def State.spend (s : State) (bad : Bool) : State := if bad then s.consumeError s.core.num 2 else s
/-- Registers read whole. -/
def State.spendTiles (s : State) (ns : List Nat) : State :=
  s.spend (ns.any fun n => let t := s.reg n; s.core.spoiledIn t 0 t.bytes || s.core.spoiledIn t 8192 (scaleBytes t.format t.count))

/-! Holds (R52, R176, R178). -/

/-- The opcode of a command (R92). -/
def Cmd.opc (c : Cmd) : Nat := c.raw.toNat / 2 ^ 118
def Cmd.writesTile (c : Cmd) : Bool := [0x208, 0x209, 0x286, 0x287].contains c.opc
def Cmd.namesTile (c : Cmd) (n : Nat) : Bool := (c.writesTile || c.opc == 0x20A || c.opc == 0x20B) && c.tile == n
/-- R176: an earlier write of Tn is not complete, or, for a write of Tn, a command that names it is not done. -/
def CoreSt.tileBusy (c : CoreSt) (cyc n : Nat) (writes : Bool) : Bool :=
  decide (cyc < (c.reg n).ready) || c.eng.cmds.any fun k => k.namesTile n && (k.writesTile || writes)
/-- The holds of a tile instruction: the registers it reads and writes, and whether it needs the Vector Unit; what the source of a REPEAT
that it reads needs from another module (log 109). -/
def tileHold (reads writes : List Nat) (vu : Bool) (s : State) : Option State :=
  if (reads.any fun n => s.core.tileBusy s.cyc n false) || (writes.any fun n => s.core.tileBusy s.cyc n true)
      || (vu && decide (s.cyc < s.core.q.vecBusy)) then some s
  else s.farHold fun ok => reads.flatMap fun n => s.repWants s.core ok (s.core.reg n).entry

def State.dN (s : State) : Nat := s.core.q.ir.dst.toNat % 16
def State.aN (s : State) : Nat := s.core.q.ir.sa.toNat % 16
def State.bN (s : State) : Nat := s.core.q.ir.sb.toNat % 16

/-- R264: TILE_UNCONF of the first operand found UNCONF. -/
def State.unconf (s : State) (ns : List Nat) : Option TrapInfo :=
  (ns.find? fun n => (s.reg n).blank).map fun n => trapOf TILE_UNCONF n
def tileFormat (d : Nat) : Res := .trap (trapOf TILE_FORMAT d)
/-- A list of checks in order: the first that fails traps. -/
def checked (l : List (Bool × TrapInfo)) (go : Res) : Res :=
  match l.find? fun p => p.1 with
  | some p => .trap p.2
  | none => go
/-- R211, R246: SPAD_EARLY of a read of a register's bytes on the VEC path: `off` and `len` of the element data. -/
def CoreSt.earlyIn (c : CoreSt) (t : TileReg) (off len : Nat) : Option TrapInfo :=
  if t.entry.kind = .stored ∧ c.isPending t.buf (t.offset.toNat + off) len = true then
    some (trapOf SPAD_EARLY (if t.buf = 1 then 2 else 3) (BitVec.ofNat 64 (t.offset.toNat + off)) (BitVec.ofNat 64 (t.buf + 1)))
  else none
/-- R211: SPAD_EARLY of the first register whose bytes hold a pending word. -/
def State.tileEarly (s : State) (ns : List Nat) : Option TrapInfo :=
  ns.findSome? fun n =>
    let t := s.reg n
    (s.core.earlyIn t 0 t.bytes).or (s.core.earlyIn t 8192 (scaleBytes t.format t.count))
def needLanded (s : State) (ns : List Nat) (go : Res) : Res := match s.tileEarly ns with | some t => .trap t | none => go
def needConf (s : State) (ns : List Nat) (go : Res) : Res := match s.unconf ns with | some t => .trap t | none => go

/-! Configuration (R50, R52, R180). -/

/-- The shape check of TCFG and TSHP: reserved fields zero, a format of R51, the column counts and the size of R180. -/
def shapeOk (x : Nat) : Bool :=
  let code := nbits x 16 5
  let cols := nbits x 8 6 + 1
  let rows := nbits x 0 6 + 1
  decide (x < 2 ^ 21) && decide (nbits x 14 2 = 0) && decide (nbits x 6 2 = 0) &&
    (decide (code = 0) || match fmtOfCode code with
      | none => false
      | some m =>
        (match m with
        | .e2m1 => decide (cols = 32 ∨ cols = 64)
        | .bfp _ => decide (cols % 16 = 0)
        | _ => true) && decide (rows * cols * m.width ≤ 8 * 16384))

/-- The contents of a register as a save slot (R186). -/
def CoreSt.slotOf (c : CoreSt) (t : TileReg) : SaveSlot :=
  let b := if t.entry.kind = .stored then c.regBytes t else ([], [])
  { fmt := t.fmt, cols := t.cols, rows := t.rows, entry := { t.entry with dirty := false }, bytes := b.1 ++ b.2 }
/-- R186, R334: the bytes of slot `n` in the save area: the 16 KiB region of the register, its entry, its exception list, and TSHP. -/
def CoreSt.slotImage (c : CoreSt) (n : Nat) : Nat × List Byte :=
  let t := c.reg n
  (0x18000 + 0x4100 * n, Mem.readN (c.tile.buf t.buf) t.offset.toNat 16384 ++ leBytes 16 (entryBits { t.entry with dirty := false }).toNat ++
    (pairBytes t.entry.list ++ List.replicate 128 0).take 128 ++ leBytes 8 (t.fmt.toNat * 2 ^ 16 + t.cols.toNat * 2 ^ 8 + t.rows.toNat))
/-- R186: a register is written to its slot if DIRTY, and recorded as saved. -/
def CoreSt.saveReg (c : CoreSt) (n : Nat) : CoreSt :=
  let t := c.reg n
  let c := if t.entry.dirty then c.modTile fun k => { k with slots := vput k.slots n (c.slotOf t) } else c
  c.modReg n fun t => { t with entry := { t.entry with dirty := false }, saved := true }
/-- R186, R335: registers of the core in focus are written to their slots, which stand in its save area; a save that the lazy marks
cause (`lazy`) sets the area's policy to 2. -/
def State.saveRegs (s : State) (ns : List Nat) (isLazy : Bool) : State :=
  let dirty := ns.filter fun n => (s.core.reg n).entry.dirty
  let area := s.core.trap.csave.toNat
  let imgs := (dirty.map fun n => s.core.slotImage n) ++ (if isLazy && !dirty.isEmpty then [(10, [2])] else [])
  let c := s.core
  let s := imgs.foldl (fun s p => s.saveBytes c (area + p.1) p.2) s
  { s with core := ns.foldl (fun (c : CoreSt) n => c.saveReg n) s.core }

/-- R52, R180, R263: a register takes a new shape; a lazily marked one is first written back. -/
def State.configure (s : State) (n x : Nat) : State :=
  let t := s.reg n
  let back := t.lazyMark && t.entry.dirty
  let b := if back && t.entry.kind == .stored then t.bytes else 0
  let s := if t.lazyMark then s.saveRegs [n] true else s
  s.modReg n fun t => { t with
    fmt := BitVec.ofNat 5 (nbits x 16 5), cols := BitVec.ofNat 6 (nbits x 8 6), rows := BitVec.ofNat 6 (nbits x 0 6),
    entry := { kind := if nbits x 16 5 = 0 then .unconf else .zero, dirty := true },
    lazyMark := false, defined := true,
    ready := if back then s.cyc + 2 + (b + 255) / 256 else s.cyc + 1 }

/-! Shapes of encodings. -/

def shTset (f : Fields) : Shape := { plainTy f with dst := .t }
def shTcfg (f : Fields) : Shape := { shTset f with immOk := shapeOk f.imm.toNat }
def shTconst (f : Fields) : Shape := { shTset f with sa := .s }
def shTramp (f : Fields) : Shape := { shTset f with sa := .s, sb := .s, immOk := decide (f.imm.toNat ≤ 2) }
def shTrepeat (f : Fields) : Shape := { shTset f with sa := .s, immOk := decide (f.imm.toNat < 2 ^ 12) }
def shTwrow (f : Fields) : Shape := { plainTy f with dst := .t, sa := .v, sb := .s }
def shTrrow (f : Fields) : Shape := { plainTy f with dst := .v, sa := .t, sb := .s }
def shTsymx (f : Fields) : Shape := { plainTy f with immOk := decide (f.imm.toNat ≤ 1) }
def shTstatR (f : Fields) : Shape := { plainTy f with dst := .s, immOk := decide (f.imm.toNat < 32) }
def shTstatH (f : Fields) : Shape := { plainTy f with dst := .s, sa := .s, emp := .long }
def shTspill (f : Fields) : Shape := { plainTy f with mdOk := decide (f.md.toNat ≤ 2), immOk := decide (f.imm.toNat < 2 ^ 16) }
def shTmov (f : Fields) : Shape := { plainTy f with dst := .t, sa := .t }
def shTexcset (f : Fields) : Shape := { plainTy f with dst := .t, sa := .s, sb := .s }
def shTexcget (f : Fields) : Shape := { plainTy f with dst := .s, sa := .t, sb := .s }

/-! Setting symbols (R180). -/

/-- A symbol set by an instruction: complete at the end of its issue cyc. -/
def State.setSymbol (s : State) (n : Nat) (e : TileEntry) : State := s.putTile n { entry := e } true s.core.q.vecBusy (s.cyc + 1)
/-- A configured register takes a symbol. -/
def setSymbolBody (e : State → TileReg → TileEntry) (s : State) : Res :=
  needConf s [s.dN] (.done (s.setSymbol s.dN (e s (s.reg s.dN))))

/-- A CONST of a pattern, or ZERO for a zero value, with the summary of the value; block formats take an F32 pattern. -/
def constEntry (m : Fmt) (x : Nat) : TileEntry :=
  if m.isBlock then
    let v := decodeFloat .f32 x
    if Sem.isZero v then { kind := .zero } else withSummary { kind := .const, payload := plConst (f32Pat v) } [elemVal v]
  else
    let e := elemOf m x
    if Sem.isZero e.val then { kind := .zero }
    else withSummary { kind := .const, payload := plConst (if Sem.isNaN e.val then m.nanBits else e.pat) } [e]
/-- TRAMP: a step of 0 gives CONST or ZERO. -/
def rampEntry (t : TileReg) (axis step base : Nat) : TileEntry :=
  let m := t.format
  let zeroStep := if m.isInt then decide (step = 0) else Sem.isZero (decodeFloat .f32 step)
  let e : TileEntry := { kind := .ramp, payload := plRamp axis step base }
  let es := symbolElems m t.nrows t.ncols e
  if zeroStep then constEntry m (if m.isBlock then base else (es.headD { pat := 0, val := .nan }).pat)
  else withSummary e es
def repeatEntry (src pr pc : Nat) : TileEntry :=
  { kind := .rep, hnan := true, hinf := true, maxexp := 254, payload := plRep pr pc src }

/-! Slices (R183, R262). -/

def sliceFmt (m : Fmt) : Bool :=
  match m with
  | .f32 | .f16 | .bf16 | .e4m3 | .e5m2 => true
  | .int n => decide (n ≤ 32)
  | .nat n => decide (n ≤ 32)
  | _ => false

/-- A write of one row or column; each element written as NaN counts (R39). -/
def sliceWrite (row : Bool) (s : State) : Res :=
  let n := s.dN
  let t := s.reg n
  let i := s.srcB.toNat
  if s.enabled = 0 then .done s
  else needConf s [n] (checked [(!sliceFmt t.format, trapOf TILE_FORMAT 3),
      (decide ((if row then t.nrows else t.ncols) ≤ i), trapOf TILE_BOUND 0)] (
    match s.synth s.core t with
    | .error x => .trap (badRepeat t x)
    | .ok es =>
      let sym := symbolic t.entry.kind
      let s := if sym then s.useTiles [n] else s
      let w := t.format.width / 8
      let lanes := (List.range 64).filter fun k => s.enabled.getLsbD k && decide (k < if row then t.ncols else t.nrows)
      let writes := lanes.map fun k => ((if row then i * t.ncols + k else k * t.ncols + i), elemOf t.format (vat s.vecA k).toNat)
      let p := if sym then t.cycs else 0
      let base : TileEntry := if sym then (promoteOut t es).entry else t.entry
      let e := base.merge (writes.map (·.2))
      let bytes := (if sym then bytesOfElems t.format es else []) 
      let own := writes.flatMap fun x => spanAt (t.offset.toNat + w * x.1) (leBytes w x.2.pat)
      let s := s.putTile n { entry := e, data := bytes } false (s.cyc + p + 1) (s.cyc + p + 2)
      let pw : PadWrite := { buf := t.buf, addr := 0, bytes := own, vec := true, due := s.cyc + p + 2 }
      let s := { s with core := s.core.charge { nan := nansOf (writes.map Prod.snd) } }
      .done (s.modQ fun q => { q with pad := q.pad ++ [pw] })))

/-- R211: SPAD_EARLY of the elements of one row or column. -/
def State.sliceEarly (s : State) (row : Bool) (t : TileReg) (i : Nat) : Option TrapInfo :=
  let w := t.format.width / 8
  if row then s.core.earlyIn t (w * (i * t.ncols)) (w * t.ncols)
  else (List.range t.nrows).findSome? fun k => s.core.earlyIn t (w * (k * t.ncols + i)) w

/-- R384: the elements of one row or column hold an uncorrectable error. -/
def State.sliceSpoiled (s : State) (row : Bool) (t : TileReg) (i : Nat) : Bool :=
  let w := t.format.width / 8
  if row then s.core.spoiledIn t (w * (i * t.ncols)) (w * t.ncols)
  else (List.range t.nrows).any fun k => s.core.spoiledIn t (w * (k * t.ncols + i)) w

/-- A read of one row or column. -/
def sliceRead (row : Bool) (s : State) : Res :=
  let n := s.aN
  let t := s.reg n
  let i := s.srcB.toNat
  let f := s.core.q.ir
  if s.enabled = 0 then .done s
  else needConf s [n] (checked [(!sliceFmt t.format, trapOf TILE_FORMAT 3),
      (decide ((if row then t.nrows else t.ncols) ≤ i), trapOf TILE_BOUND 0)] (
    match s.sliceEarly row t i, s.synth s.core t with
    | some x, _ => .trap x
    | none, .error x => .trap (badRepeat t x)
    | none, .ok es =>
      let a := es.toArray
      let lane (k : Nat) : Lane :=
        if k < (if row then t.ncols else t.nrows) then
          laneExt t.format (a.getD (if row then i * t.ncols + k else k * t.ncols + i) { pat := 0, val := .nan }).pat
        else 0
      .done (((((s.useTiles [n]).spend (s.sliceSpoiled row t i))).writeV 4 f.dst s.enabled (tab 64 lane)).modQ fun q => { q with vecBusy := max q.vecBusy (s.cyc + 1) })))

/-! Table and mode instructions (R185 to R187). -/

def statWord (e : TileEntry) : Word := BitVec.ofNat 64 ((entryBits e).toNat / 2 ^ 64) &&& 0xFFFFF80000000000

/-- R216: the addresses that the resolution of a handle translates. -/
def State.handlePages (s : State) (c : CoreSt) (hw : Nat) : List Nat :=
  let h := handleOf hw
  let entry := if c.tile.tensors.any fun p => p.1 == h.tid then [] else [c.tile.ttbase.toNat + 128 * h.tid]
  if !s.tensorHere c h.tid then entry
  else entry ++ match s.tensorWord c h.tid with
    | .ok w => let t := tensorOf w; let m := t.mapIndex h.c; [addrInt (t.map + 16 * m), addrInt (t.slots + t.slotSize * m)]
    | .error _ => []
/-- The first of them that the L1 TLB of the core in focus does not hold and whose walk has not failed: the instruction waits for it. -/
def State.handleMiss (s : State) (hw : Nat) : Option Nat :=
  let t := s.core.task
  (s.handlePages s.core hw).find? fun va => decide (va < 2 ^ 51) && !t.tlb.any (tlbHit t.asn.toNat va) && !t.walkFault.any fun w => w.1 == va / 32768
/-- R156, R185: TSTAT of a handle: the entry is read at the tile's home. -/
def statHandle (s : State) : Res :=
  let h := s.srcA
  match s.handleMiss (h.toNat % 2 ^ 51) with
  | some va => .hold (s.startWalk va)
  | none => match s.farHold fun ok => s.handleWants s.core ok 1 (h.toNat % 2 ^ 51) with
  | some t => .hold t
  | none => match s.resolve s.core (h.toNat % 2 ^ 51) with
  | .error x => .trap (handleTrap h x)
  | .ok r =>
    let s := s.keepTensor s.core.num r.tid
    let near := decide (r.mapAt.die = s.die)
    let p : PagePiece := { va := 0, len := 8, node := r.mapAt.node, die := r.mapAt.die, pa := r.mapAt.pa + 8, pte := r.mapAt.pte }
    .done (s.issueLoad (some (.s s.core.q.ir.dst)) { base := 0, width := 8 } [p] 8 0 0 (if near then 40 else 200) (if near then 120 else 600))

/-- TMATL: Promote. -/
def materialise (s : State) : Res :=
  let n := s.dN
  let t := s.reg n
  needConf s [n] (
    if t.entry.kind = .stored then .done s
    else match s.synth s.core t with
      | .error x => .trap (badRepeat t x)
      | .ok es => .done (((s.useTiles [n]).spendTiles [n]).tileResult n (promoteOut t es) false true))

/-- The registers of a TSPILL mask. -/
def spillMask (f : Fields) : List Nat := (List.range 16).filter fun n => f.imm.getLsbD n
/-- R186, R263: RESTORE of one register. -/
def State.restoreReg (s : State) (n : Nat) : State :=
  let t := s.reg n
  if t.saved then
    let k := vat s.core.tile.slots n
    let t' : TileReg := { t with fmt := k.fmt, cols := k.cols, rows := k.rows }
    let b := if k.entry.kind = .stored then t'.bytes else 0
    let e : TileEntry := if k.entry.kind = .stored then { k.entry with payload := plStored t.space.toNat t.offset.toNat } else k.entry
    let ready := s.cyc + 2 + (b + 255) / 256
    let s := s.modReg n fun _ => t'
    let s := s.putTile n { entry := e, data := k.bytes.take t'.bytes, scales := k.bytes.drop t'.bytes } true s.core.q.vecBusy ready
    s.modReg n fun t => { t with entry := { t.entry with dirty := false }, lazyMark := false, saved := false }
  else s.modReg n fun t => { t with lazyMark := false, saved := false }

/-- TSPILL.SAVE writes complete at the end of the issue cyc. -/
def spillSave (s : State) : Res :=
  let ns := spillMask s.core.q.ir
  .done ((s.readTiles ns).saveRegs ns false)
def spillLazy (s : State) : Res :=
  .done ((spillMask s.core.q.ir).foldl (fun (s : State) n => s.modReg n fun t => { t with lazyMark := true }) s)
def spillRestore (s : State) : Res := .done ((spillMask s.core.q.ir).foldl (fun (s : State) n => s.restoreReg n) s)

/-- TRELEASE. -/
def release (s : State) : Res :=
  .done (s.modReg s.dN fun t => { t with
    fmt := 0, cols := 0, rows := 0, entry := { kind := .unconf, dirty := true }, lazyMark := false, saved := false, ready := s.cyc + 1 })

/-- TMOV. -/
def moveTile (s : State) : Res :=
  let td := s.reg s.dN
  let ta := s.reg s.aN
  needConf s [s.dN, s.aN] (checked [(decide (td.fmt ≠ ta.fmt), trapOf TILE_FORMAT 1),
      (decide (td.rows ≠ ta.rows ∨ td.cols ≠ ta.cols), trapOf TILE_FORMAT 2)] (needLanded s [s.aN] (
    let s := (s.readTiles [s.aN]).spendTiles [s.aN]
    if ta.entry.kind = .stored then
      let b := s.core.regBytes ta
      .done (s.tileResult s.dN { entry := { ta.entry with payload := plStored td.space.toNat td.offset.toNat }, data := b.1, scales := b.2 } false true)
    else .done (s.tileResult s.dN { entry := ta.entry } true true))))

/-- The position of TEXCSET and TEXCGET. -/
def excPos (w : Word) : Nat × Nat := (nbits w.toNat 6 6, nbits w.toNat 0 6)
/-- A value with NaN canonical and −0 as +0. -/
def canonPat (m : Fmt) (x : Nat) : Nat :=
  let e := elemOf m x
  if Sem.isNaN e.val then m.nanBits else if Sem.isZero e.val then 0 else e.pat

/-- The summary of a symbolic entry with a list: of its base, unless every element is listed, and its pairs. -/
def listSummary (m : Fmt) (count : Nat) (e : TileEntry) : TileEntry :=
  withSummary e ((if e.list.length < count then [baseElem m e] else []) ++ e.list.map fun p => elemOf m p.value.toNat)

/-- TEXCSET (R187, R200). -/
def excSet (s : State) : Res :=
  let n := s.dN
  let t := s.reg n
  let m := t.format
  let (r, c) := excPos s.srcB
  needConf s [n] (checked [(!listFmt m, trapOf TILE_FORMAT 3), (decide (t.nrows ≤ r ∨ t.ncols ≤ c), trapOf TILE_BOUND 0)] (
    let v := canonPat m s.srcA.toNat
    let s := (s.useTiles [n]).spendTiles [n]
    let whole (es : List Elem) : Res :=
      let now := (List.range es.length).map fun i => if i = r * t.ncols + c then elemOf m v else es.getD i { pat := 0, val := .nan }
      .done (s.tileResult n { promoteOut t now with entry := (promoteOut t es).entry.merge [elemOf m v] } false false)
    match t.entry.kind with
    | .zero | .const =>
      let p : ExcPair := { row := r, col := c, value := BitVec.ofNat 32 v }
      let take (l : List ExcPair) : Res := .done (s.tileResult n { entry := listSummary m t.count { t.entry with list := l } } true false)
      let l := t.entry.list
      (match l.findIdx? fun p => p.row == r && p.col == c with
      | some i => if v = (baseElem m t.entry).pat then take ((l.set i (l.getLastD p)).dropLast) else take (l.set i p)
      | none => if v = (baseElem m t.entry).pat then take l else if l.length < 16 then take (l ++ [p])
        else whole (symbolElems m t.nrows t.ncols t.entry))
    | .stored =>
      let e := t.entry.merge [elemOf m v]
      let w := m.width / 8
      let s := s.tileResult n { entry := e } true false
      let pw : PadWrite := { buf := t.buf, addr := 0, bytes := spanAt (t.offset.toNat + w * (r * t.ncols + c)) (leBytes w v), vec := true, due := s.cyc + 1 }
      .done (s.modQ fun q => { q with pad := q.pad ++ [pw] })
    | _ => match s.synth s.core t with
      | .error x => .trap (badRepeat t x)
      | .ok es => whole es))

/-- R211: SPAD_EARLY of the bytes that one element is read from: its own, or those of its block. -/
def State.pairEarly (s : State) (t : TileReg) (i : Nat) : Option TrapInfo :=
  let m := t.format
  if m.isBlock then
    let q := i / m.block
    let b := m.width * m.block / 8
    let sc := scaleBytes m m.block
    (s.core.earlyIn t (b * q) b).or (s.core.earlyIn t (8192 + sc * q) sc)
  else s.core.earlyIn t (m.width / 8 * i) (m.width / 8)

/-- R384: the bytes that one element is read from hold an uncorrectable error. -/
def State.pairSpoiled (s : State) (t : TileReg) (i : Nat) : Bool :=
  let m := t.format
  if m.isBlock then
    let q := i / m.block
    let b := m.width * m.block / 8
    let sc := scaleBytes m m.block
    s.core.spoiledIn t (b * q) b || s.core.spoiledIn t (8192 + sc * q) sc
  else s.core.spoiledIn t (m.width / 8 * i) (m.width / 8)

/-- TEXCGET (R185); an undecodable escape counts one NaN (R29). -/
def excGet (s : State) : Res :=
  let n := s.aN
  let t := s.reg n
  let (r, c) := excPos s.srcB
  needConf s [n] (checked [(decide (t.nrows ≤ r ∨ t.ncols ≤ c), trapOf TILE_BOUND 0)] (
    match s.pairEarly t (r * t.ncols + c), s.synth s.core t with
    | some x, _ => .trap x
    | none, .error x => .trap (badRepeat t x)
    | none, .ok es =>
      let e := es.getD (r * t.ncols + c) { pat := 0, val := .nan }
      let s := if e.bad then { s with core := s.core.charge { nan := 1 } } else s
      .done (((s.useTiles [n]).spend (s.pairSpoiled t (r * t.ncols + c))).writeS 2 s.core.q.ir.dst (BitVec.ofNat 64 e.pat))))

/-! Meanings. -/

/-- A tile instruction: `vu` says whether it takes the Vector Unit, where it draws power if it is computed (R315). -/
def tileIssue (sh : Shape) (lat : Option Nat) (reads writes : State → List Nat) (vu lanes : Bool) (body : State → Res) (s : State) : Out :=
  issueWith sh lat (tileHold (reads s) (writes s) vu) lanes (if vu && !lanes then powered (fun t => (t.reg t.dN).ready) body else body) s
def nobody (_ : State) : List Nat := []
def onlyD (s : State) : List Nat := [s.dN]
def onlyA (s : State) : List Nat := [s.aN]

/-- TCFG (R180). -/
def execTcfg (s : State) : Out :=
  tileIssue (shTcfg s.core.q.ir) none nobody onlyD false false (fun s => .done (s.configure s.dN s.core.q.ir.imm.toNat)) s
/-- TZERO (R180). -/
def execTzero (s : State) : Out :=
  tileIssue (shTset s.core.q.ir) none nobody onlyD false false (setSymbolBody fun _ _ => { kind := .zero }) s
/-- TCONST (R180). -/
def execTconst (s : State) : Out :=
  tileIssue (shTconst s.core.q.ir) none nobody onlyD false false (setSymbolBody fun s t => constEntry t.format s.srcA.toNat) s
/-- TRAMP (R180). -/
def execTramp (s : State) : Out :=
  tileIssue (shTramp s.core.q.ir) none nobody onlyD false false
    (setSymbolBody fun s t => rampEntry t (s.core.q.ir.imm.toNat % 4) (s.srcB.toNat % 2 ^ 32) (s.srcA.toNat % 2 ^ 32)) s
/-- TREPEAT (R180). -/
def execTrepeat (s : State) : Out :=
  tileIssue (shTrepeat s.core.q.ir) none nobody onlyD false false
    (setSymbolBody fun s _ => repeatEntry (s.srcA.toNat % 2 ^ 51) (immBits s.core.q.ir 0 6) (immBits s.core.q.ir 6 6)) s
/-- TWROW (R183, R262). -/
def execTwrow (s : State) : Out := tileIssue (shTwrow s.core.q.ir) none onlyD onlyD true true (sliceWrite true) s
/-- TRROW (R183, R262). -/
def execTrrow (s : State) : Out := tileIssue (shTrrow s.core.q.ir) (some 4) onlyA nobody true true (sliceRead true) s
/-- TWCOL (R183, R262). -/
def execTwcol (s : State) : Out := tileIssue (shTwrow s.core.q.ir) none onlyD onlyD true true (sliceWrite false) s
/-- TRCOL (R183, R262). -/
def execTrcol (s : State) : Out := tileIssue (shTrrow s.core.q.ir) (some 4) onlyA nobody true true (sliceRead false) s
/-- TSYMX: the mode of R168. -/
def setMode (fast : Bool) (s : State) : Res := .done { s with core := s.core.modTile fun t => { t with fast := fast } }
/-- TSYMX_STRICT (R185). -/
def execTsymxStrict (s : State) : Out := issue (shTsymx s.core.q.ir) none (setMode false) s
/-- TSYMX_FAST (R185). -/
def execTsymxFast (s : State) : Out := issue (shTsymx s.core.q.ir) none (setMode true) s
/-- TSTAT_REGISTER (R185). -/
def execTstatRegister (s : State) : Out :=
  tileIssue (shTstatR s.core.q.ir) (some 2) (fun s => [s.core.q.ir.imm.toNat % 16]) nobody false false
    (fun s =>
      let n := s.core.q.ir.imm.toNat % 16
      .done ((s.readTiles [n]).writeS 2 s.core.q.ir.dst (statWord (s.reg n).entry))) s
/-- TSTAT_HANDLE (R185). -/
def execTstatHandle (s : State) : Out := issue (shTstatH s.core.q.ir) none statHandle s
/-- TMATL (R185). -/
def execTmatl (s : State) : Out := tileIssue (shTset s.core.q.ir) none onlyD onlyD true false materialise s
/-- TSPILL_SAVE (R186). -/
def execTspillSave (s : State) : Out :=
  tileIssue (shTspill s.core.q.ir) none (fun s => spillMask s.core.q.ir) nobody false false spillSave s
/-- TSPILL_LAZY (R186). -/
def execTspillLazy (s : State) : Out :=
  tileIssue (shTspill s.core.q.ir) none (fun s => spillMask s.core.q.ir) nobody false false spillLazy s
/-- TSPILL_RESTORE (R186). -/
def execTspillRestore (s : State) : Out :=
  tileIssue (shTspill s.core.q.ir) none nobody (fun s => spillMask s.core.q.ir) false false spillRestore s
/-- TRELEASE (R185). -/
def execTrelease (s : State) : Out := tileIssue (shTset s.core.q.ir) none nobody onlyD false false release s
/-- TMOV (R185). -/
def execTmov (s : State) : Out := tileIssue (shTmov s.core.q.ir) none onlyA onlyD true false moveTile s
/-- TEXCSET (R187). -/
def execTexcset (s : State) : Out := tileIssue (shTexcset s.core.q.ir) none onlyD onlyD true false excSet s
/-- TEXCGET (R185). -/
def execTexcget (s : State) : Out := tileIssue (shTexcget s.core.q.ir) (some 2) onlyA nobody false false excGet s

end Sys2Proof.Machine
end

