-- ==== Sys2Proof/Machine/Queue.lean ====
section
/-! DEFINITION. Queues, channels, tokens, positions, the stall report, transfer registers and events of the engines (13, 18 R323,
R325) and the placing of a command. What a command does is in Engine.lean and Matrix.lean. -/

namespace Sys2Proof.Machine

open Sys2Proof Decode

/-! Commands (R92, R93). -/

/-- Bits of the 128-bit command. -/
def Cmd.bits (c : Cmd) (lo n : Nat) : Nat := nbits c.raw.toNat lo n
def Cmd.md (c : Cmd) : Nat := c.bits 114 4
def Cmd.ty (c : Cmd) : Nat := c.bits 110 4
def Cmd.tok (c : Cmd) (bit : Nat) : Bool := c.raw.getLsbD (106 + bit)
def Cmd.posts (c : Cmd) : Bool := c.raw.getLsbD 103
def Cmd.spd (c : Cmd) : Nat := c.bits 99 3
def Cmd.sps (c : Cmd) : Nat := c.bits 96 3
def Cmd.loc (c : Cmd) : Nat := c.bits 64 20
def Cmd.aux (c : Cmd) : Nat := c.bits 52 12
def Cmd.far (c : Cmd) : Nat := c.bits 0 51
/-- The index e of R227. -/
def Cmd.pos (c : Cmd) : Nat := if c.q = 0 then c.ch else if c.q = 1 then 4 else 5 + c.ch
/-- The channel index of R221. -/
def Cmd.chan (c : Cmd) : Nat := if c.q = 2 then 4 + c.ch else c.ch

/-- The command word of R92. -/
def cmdWord (opc md ty tok ch : Nat) (e fol : Bool) (spd sps loc aux far : Nat) : BitVec 128 :=
  BitVec.ofNat 128 (opc % 1024 * 2 ^ 118 + md % 16 * 2 ^ 114 + ty % 16 * 2 ^ 110 + tok % 16 * 2 ^ 106 + ch % 4 * 2 ^ 104
    + (if e then 2 ^ 103 else 0) + (if fol then 2 ^ 102 else 0) + spd % 8 * 2 ^ 99 + sps % 8 * 2 ^ 96
    + loc % 2 ^ 20 * 2 ^ 64 + aux % 2 ^ 12 * 2 ^ 52 + far % 2 ^ 51)

def CoreSt.cmdOf (c : CoreSt) (u : Nat) : Option Cmd := c.eng.cmds.find? fun k => k.uid == u
def CoreSt.modCmd (c : CoreSt) (u : Nat) (f : Cmd → Cmd) : CoreSt :=
  c.modEng fun e => { e with cmds := e.cmds.map fun k => if k.uid = u then f k else k }
def State.modCmd (s : State) (n u : Nat) (f : Cmd → Cmd) : State := s.modCore n fun c => c.modCmd u f
/-- The commands of a channel in queue order. -/
def CoreSt.queue (c : CoreSt) (q ch : Nat) : List Cmd := c.eng.cmds.filter fun k => k.q == q && (q == 1 || k.ch == ch)
def CoreSt.headOf (c : CoreSt) (q ch : Nat) : Option Cmd := (c.queue q ch).head?
/-- Slots of a channel or of MXQ (R220). -/
def slotsOf (q : Nat) : Nat := if q = 1 then 16 else 8
def CoreSt.queueFull (c : CoreSt) (q ch : Nat) : Bool := decide (slotsOf q ≤ (c.queue q ch).length)
/-- The lowest free slot of a channel. -/
def CoreSt.freeSlotOf (c : CoreSt) (q ch : Nat) : Nat :=
  ((List.range (slotsOf q)).find? fun i => !(c.queue q ch).any fun k => k.slot == i).getD 0
/-- The command at the head is tried in this cyc. -/
def State.kick (s : State) (n q ch : Nat) : State :=
  match (s.coreAt n).headOf q ch with
  | some k => s.schedule 0 .engineCommandBegin { n0 := n, n1 := k.uid }
  | none => s

/-! Tokens (R224). FIFOs are numbered 0 LM, 1 MS, 2 ML, 3 SM. -/

def EngSt.fifo (e : EngSt) (i : Nat) : Nat := if i = 0 then e.lm else if i = 1 then e.ms else if i = 2 then e.ml else e.sm
def EngSt.setFifo (e : EngSt) (i n : Nat) : EngSt :=
  if i = 0 then { e with lm := n } else if i = 1 then { e with ms := n } else if i = 2 then { e with ml := n } else { e with sm := n }
/-- R224: the tokens that a pop can take in a cyc: those pushed in it are not among them. -/
def EngSt.poppable (e : EngSt) (i cyc : Nat) : Nat := e.fifo i - (if (vat e.pushed i).1 = cyc then (vat e.pushed i).2 else 0)
/-- A token pushed into a FIFO in a cyc. -/
def EngSt.push (e : EngSt) (i cyc : Nat) : EngSt :=
  { e.setFifo i (e.fifo i + 1) with pushed := vput e.pushed i (cyc, (if (vat e.pushed i).1 = cyc then (vat e.pushed i).2 else 0) + 1) }
/-- R91, R224: the FIFOs a command pops: POPL, POPH. -/
def Cmd.pops (c : Cmd) : List Nat :=
  match c.q with
  | 0 => if c.tok 2 then [2] else []
  | 1 => (if c.tok 3 then [0] else []) ++ (if c.tok 2 then [3] else [])
  | _ => if c.tok 3 then [1] else []
/-- The FIFOs a command pushes: PUSHL, PUSHH. -/
def Cmd.pushes (c : Cmd) : List Nat :=
  match c.q with
  | 0 => if c.tok 0 then [0] else []
  | 1 => (if c.tok 1 then [2] else []) ++ (if c.tok 0 then [1] else [])
  | _ => if c.tok 1 then [3] else []
/-- The engine that pushes a FIFO, and the engine that pops it: 0 LDE, 1 MXE, 2 STE. -/
def fifoPusher (i : Nat) : Nat := if i = 0 then 0 else if i = 3 then 2 else 1
def fifoPopper (i : Nat) : Nat := if i = 1 then 2 else if i = 2 then 0 else 1

/-! Positions (R227). -/

def stateCode : CmdState → Nat
  | .awaitCompare => 1 | .popWait => 2 | .ringWait => 3 | .fetching => 4 | .moving => 5 | .pushWait => 6 | .completing => 7

/-- Rows a stream has completed at the rate of R191. -/
def Cmd.rowsDone (c : Cmd) (cyc : Nat) : Nat :=
  if c.st = .moving ∨ c.st = .pushWait ∨ c.st = .completing then min c.rows ((cyc - c.start) * c.rate / 4096) else 0
def Cmd.isStream (c : Cmd) : Bool := [0x283, 0x284, 0x285, 0x286].contains c.opc

/-- R227: the error bit of a command is set at its end. -/
def Cmd.ends (c : Cmd) : Bool := c.st == .pushWait || c.st == .completing
def Cmd.posl (c : Cmd) : Word :=
  BitVec.ofNat 64 (c.q * 2 ^ 62 + c.ch % 4 * 2 ^ 60 + c.slot % 16 * 2 ^ 56 + c.opc * 2 ^ 46 + stateCode c.st * 2 ^ 43
    + (if c.chain then 2 ^ 42 else 0) + (if c.ends then c.det else 0) % 256 * 2 ^ 32 + (if c.chain then c.seqNo else c.xid).toNat)
def Cmd.posh (c : Cmd) (cyc : Nat) : Word :=
  let idx := if c.isStream then c.rowsDone cyc else c.progress
  let rep := if c.det = 4 ∧ c.ends = true then c.sub
    else if c.opc = 0x283 ∨ c.opc = 0x284 then c.aux + 1 - idx else 0
  BitVec.ofNat 64 (rep % 2 ^ 16 * 2 ^ 48 + idx % 2 ^ 48)

/-- The command of a chain entry that waits on its ring-slot counters, as its channel shows it. -/
def Walker.shown (w : Walker) (q : Nat) : Cmd :=
  { uid := 0, q := q, ch := nbits w.entry.toNat 104 2, raw := w.entry.setWidth 128, wmax := nbits w.entry.toNat 208 16,
    chain := true, seqNo := w.seqNo, st := .ringWait }
def CoreSt.shownAt (c : CoreSt) (e : Nat) : Option Cmd :=
  let q := if e < 4 then 0 else if e = 4 then 1 else 2
  let ch := if e < 4 then e else if e = 4 then 0 else e - 5
  match c.headOf q ch with
  | some k => some k
  | none =>
    let w := vat c.eng.walkers (q / 2)
    if q ≠ 1 && w.waiting.isSome && (w.shown q).ch == ch then some (w.shown q) else none
/-- POSL.e and POSH.e. -/
def CoreSt.poslAt (c : CoreSt) (e : Nat) : Word :=
  match c.shownAt e with
  | some k => k.posl
  | none => BitVec.ofNat 64 (if e < 4 then e * 2 ^ 60 else if e = 4 then 2 ^ 62 else 2 ^ 63 + (e - 5) * 2 ^ 60)
def CoreSt.poshAt (c : CoreSt) (cyc e : Nat) : Word :=
  match c.shownAt e with | some k => k.posh cyc | none => 0

/-! The stall report (R225, R325). -/

/-- TSTALL: POSL and POSH of each channel of an engine. -/
def CoreSt.tstall (c : CoreSt) (cyc owner : Nat) : List Word :=
  if owner = 3 then []
  else if owner = 1 then [c.poslAt 4, c.poshAt cyc 4]
  else (List.range 4).flatMap fun i => let e := (if owner = 0 then 0 else 5) + i; [c.poslAt e, c.poshAt cyc e]
/-- TAUX.0 of a STALL. -/
def stallWord (fifo owner ch slot e kind : Nat) : Word :=
  BitVec.ofNat 64 (fifo * 2 ^ 18 + owner * 2 ^ 16 + ch * 2 ^ 12 + slot * 2 ^ 8 + e * 2 ^ 4 + kind)

/-- R225: the thread takes STALL before it issues its next instruction; `key` names what waits. -/
def State.engineStall (s : State) (n key : Nat) (w a1 a2 : Word) (rest : List Word) : State :=
  s.modCore n fun c => c.modTrap fun r => { r with due := r.due ++ [(key, w, a1, a2, rest)] }
/-- What names a walker's wait among the STALLs that are due: no command has such a number. -/
def walkerKey (w : Nat) : Nat := 2 ^ 70 + w

/-- STALL of a command that waits on a FIFO. -/
def State.stallCmd (s : State) (n : Nat) (k : Cmd) (fifo owner kind : Nat) : State :=
  let c := s.coreAt n
  (s.engineStall n k.uid (stallWord fifo owner k.ch k.slot k.pos kind) k.posl (k.posh s.cyc) (c.tstall s.cyc owner)).modCmd n k.uid
    fun k => { k with stalled := true }

/-- STALL (R225): the watchdog of a command or walker that waits has expired; `u` names the command, `k` the FIFO and the
kind, or the walker and 3. -/
def State.queueStall (s : State) (n u k : Nat) : State :=
  if k % 4 = 3 then
    -- a walker that waits on its ring-slot counters; the device is not told who posts them
    let w := vat (s.coreAt n).eng.walkers (k / 4)
    if w.waiting.isSome then
      let c := w.shown (2 * (k / 4))
      s.engineStall n (walkerKey (k / 4)) (stallWord 0 3 c.ch 0 c.pos 3) c.posl (c.posh s.cyc) []
    else s
  else match (s.coreAt n).cmdOf u with
  | some c =>
    if c.stalled then s
    else if k % 4 = 1 then s.stallCmd n c (k / 4) (fifoPusher (k / 4)) 1 else s.stallCmd n c (k / 4) (fifoPopper (k / 4)) 2
  | none => s

/-- R325: after a TRET the wait of every command and walker whose STALL has been taken counts from 0 again. -/
def CoreSt.rearm (c : CoreSt) (cyc : Nat) : CoreSt :=
  let taken (key : Nat) : Bool := !c.trap.due.any fun d => d.1 == key
  let walker (i : Nat) : Walker :=
    let w := vat c.eng.walkers i
    if w.stalled && taken (walkerKey i) then { w with stalled := false, waiting := w.waiting.map fun _ => cyc + 1 } else w
  c.modEng fun e => { e with
    cmds := e.cmds.map fun k => if k.stalled && taken k.uid then { k with stalled := false, wait := some (cyc + 1) } else k
    walkers := tab 2 walker }

/-! Transfer registers and events (R229, R243). -/

/-- A record is posted; a 65th is discarded and counted. -/
def EngSt.post (e : EngSt) (w : Word) : EngSt :=
  if 64 ≤ e.events.length then { e with drop := min (e.drop + 1) 0xFFFF } else { e with events := e.events ++ [w] }
def eventWord (err : Bool) (src ch det : Nat) (ident : BitVec 32) : Word :=
  BitVec.ofNat 64 (2 ^ 63 + (if err then 2 ^ 62 else 0) + src * 2 ^ 59 + ch % 4 * 2 ^ 57 + det % 256 * 2 ^ 40 + ident.toNat)

/-- XERR after a failing completion (R229). -/
def xerrNext (old : Word) (det : Nat) (ident : BitVec 32) : Word :=
  if !old.getLsbD 63 || passed ident (old.setWidth 32) then BitVec.ofNat 64 (2 ^ 63 + det % 256 * 2 ^ 32 + ident.toNat) else old

/-! Placing a command (R220, R221). -/

/-- A command enters its slot: its identifier, its compare, and its completion register. R236: a matrix command that follows a copy is
bound to it, or finds how the copy has ended. -/
def State.place (s : State) (k : Cmd) (dst : BitVec 6) : State :=
  let c := s.core
  let (u, s) := s.takeUid
  let ph := c.ph
  let xid := if k.q = 1 then 0 else vat c.eng.xnext k.chan
  let named := decide (dst ≠ 0)
  let (f, s) := if named then (let r := s.addFill (some (.s dst)) (if k.opc = 0x288 then .drain else .compare) 0; (some r.1, r.2)) else (none, s)
  let bound : Option (Nat × PC) := if k.q = 1 then c.eng.fol.filter (fun p => p.2 == c.q.pc) else none
  let k : Cmd := { k with
    uid := u, xid := xid, slot := c.freeSlotOf k.q k.ch, fill := f,
    fol := if c.eng.folEnd.isSome then none else bound.map (·.1), folErr := bound.isSome && c.eng.folEnd == some true,
    held := ph.en && decide (k.q = 2), phase := ph.phase.toNat }
  let s := { s with core := s.core.modEng fun e => { e with
    cmds := e.cmds ++ [k],
    xnext := if k.q = 1 then e.xnext else vput e.xnext k.chan (xid + 1),
    fol := if k.raw.getLsbD 102 then some (u, c.q.line.nextPc c.q.pc) else e.fol,
    folEnd := if k.raw.getLsbD 102 then none else e.folEnd } }
  let s := s.scheduleIn (if named && k.q != 1 then 5 else 4) 12 .tasterCompare { n0 := c.num, n1 := u, n2 := 1 }
  if [0x281, 0x284, 0x285, 0x286].contains k.opc then s.scheduleFrom 0 .operandFetch { n0 := c.num, n1 := u } else s

/-- R221, R383: a command has passed its compare, or is discarded. -/
def State.compareCmd (s : State) (n : Nat) (k : Cmd) (equal : Bool) : State :=
  if !equal then (s.modCore n fun c => c.modEng fun e => { e with cmds := e.cmds.filter fun x => x.uid != k.uid }).consumeError n 1
  else
    let s := s.modCmd n k.uid fun k => { k with compared := true, st := .popWait }
    let s := match k.fill with
      | some f => if k.opc = 0x288 then s else
          (s.modCore n fun c => c.modQ fun q => { q with
            fills := q.fills.map fun (x : Fill) => if x.uid = f then { x with src := .value (.word (k.xid.setWidth 64)) } else x }).schedule 1 .longLatencyFill { n0 := n, n1 := f }
      | none => s
    s.schedule 1 .engineCommandBegin { n0 := n, n1 := k.uid }

/-- A list of saturating 64-bit counters with one counted. -/
def bumpAt (l : List Nat) (k : Nat) : List Nat :=
  let l := l ++ List.replicate (k + 1 - l.length) 0
  l.set k (min (l.getD k 0 + 1) (2 ^ 64 - 1))

/-- R384, R394: an error that the environment brings into a storage of core or die `n`; the spec gives it no step of its own (log 133): a
corrected error of structure `i` of R384, a word of a buffer (0 W, 1 A, 2 C, 3 an accumulator of C) made uncorrectable, a line of memory, a
queue slot, an entry of the tile table (a register, or 16 and more a cached entry). -/
def State.softError (s : State) (kind n i buf : Nat) : State :=
  let cached (t : TileSt) : List TileCache := t.cache.zipIdx.map fun (x, k) => if k + 16 = i then { x with entry := { x.entry with spoiled := true } } else x
  match kind with
  | 2 => { s with host := { s.host with relCe := vput s.host.relCe (n % 4) (bumpAt (vat s.host.relCe (n % 4)) (i % 4)) } }
  | 3 => s.modCore n fun c => c.modTile fun t => { t with badWords := (buf, i) :: t.badWords }
  | 4 => { s with mem := { s.mem with badLines := i :: s.mem.badLines } }
  | 5 => s.modCmd n i fun k => { k with spoiled := true }
  | _ => s.modCore n fun c =>
    if i < 16 then c.modReg i fun t => { t with entry := { t.entry with spoiled := true } } else c.modTile fun t => { t with cache := cached t }

/-- TASTER_COMPARE (R221, R383): `n2` = 1 when both copies are equal, 0 when they differ, which is counted (R394); with more it brings an error
into a storage (log 133). -/
def execTasterCompare (s : State) : Out :=
  let n := s.ev.n0
  let u := s.ev.n1
  if 2 ≤ s.ev.n2 then .next (s.softError s.ev.n2 n u (s.ev.w.toNat % 4)) else
  let equal := decide (s.ev.n2 = 1)
  let s' := if equal then s else
    let d := dieOf n
    { s with host := { s.host with relTmis := vput s.host.relTmis d (bumpAt (vat s.host.relTmis d) (n % 256 / 8)) } }
  match s.flight u with
  | some f => .next (s'.compareFlight f equal)
  | none => match (s.coreAt n).cmdOf u with
    | some k => .next (s'.compareCmd n k equal)
    | none => .next s

end Sys2Proof.Machine
end

