-- ==== Sys2Proof/Machine/TileOps.lean ====
section
/-! DEFINITION. Element-wise tile arithmetic with its symbolic resolution (08 R168 to R172, 09 R184). -/

namespace Sys2Proof.Machine

open Sys2Proof Decode

/-- An operation on exact values that rounds into the result's format. -/
abbrev TileFun := FVal → FVal → Draw → Nat × Draw

/-- A value rounded into a format: floats round, integers wrap or saturate. -/
def fitTile (m : Fmt) (r : Rnd) (v : FVal) (d : Draw) : Nat × Draw :=
  if m.isFloat then roundF m r v d else fitInt m r.sat (Sem.floor v) d

/-! Operands as R170 sees them. -/

/-- A ZERO (`zero`) or CONST operand: its base and its pairs with their values; a REPEAT of one counts as it, with copied pairs. -/
structure KView where
  zero : Bool
  base : Elem
  pairs : List (Nat × Nat × Elem)

def pairElems (m : Fmt) (l : List ExcPair) : List (Nat × Nat × Elem) := l.map fun p => (p.row, p.col, elemOf m p.value.toNat)
/-- The base of a ZERO or CONST entry as its elements have it; none where the block of a block format does not decode to one value. -/
def viewBase (m : Fmt) (e : TileEntry) : Option Elem :=
  if m.isBlock then
    match reencode m (List.replicate m.block (baseElem m e).val) with
    | [] => none
    | x :: xs => if xs.all fun y => y.pat == x.pat then some x else none
  else some (baseElem m e)

def State.kview (s : State) (t : TileReg) : Option KView :=
  let m := t.format
  match t.entry.kind with
  | .zero | .const =>
    (viewBase m t.entry).map fun b => { zero := t.entry.kind == .zero, base := b, pairs := pairElems m t.entry.list }
  | .rep =>
    match s.repSource s.core m t.entry with
    | .ok r =>
      if r.entry.kind = .zero ∨ r.entry.kind = .const then
        let pr := plField t.entry 51 6 + 1
        let pc := plField t.entry 57 6 + 1
        (viewBase m r.entry).map fun b =>
          { zero := r.entry.kind == .zero, base := b,
            pairs := (positions t.nrows t.ncols).filterMap fun (x, y) =>
              (r.entry.list.find? fun p => p.row == x % pr && p.col == y % pc).map fun p => (x, y, elemOf m p.value.toNat) }
      else none
    | .error _ => none
  | _ => none

/-- Z of R170: ZERO without a list. -/
def KView.isZ (k : KView) : Bool := k.zero && k.pairs.isEmpty
def wild (v : FVal) : Bool := Sem.isNaN v || Sem.isInf v
/-- R170: an entry of a format and shape is clean: symbolic with no NaN or infinity in its value or list, or STORED with clear flags. -/
def cleanEntry (m : Fmt) (rows cols : Nat) (e : TileEntry) : Bool :=
  match e.kind with
  | .zero | .const => !wild (baseElem m e).val && e.list.all fun p => !wild (elemOf m p.value.toNat).val
  | .ramp => (symbolElems m rows cols e).all fun x => !wild x.val
  | _ => !e.hnan && !e.hinf
/-- R170: a register is clean; a REPEAT counts as the ZERO or CONST it repeats, and any other is computed. -/
def State.clean (s : State) (t : TileReg) : Bool :=
  if t.entry.kind = .rep then
    (match s.repSource s.core t.format t.entry with
    | .ok r => (r.entry.kind == .zero || r.entry.kind == .const) && cleanEntry t.format t.nrows t.ncols r.entry
    | .error _ => false)
  else cleanEntry t.format t.nrows t.ncols t.entry
/-- R170: a REPEAT of a STORED or RAMP source: every operation on it is computed. -/
def State.repComputed (s : State) (t : TileReg) : Bool := t.entry.kind == .rep && (s.kview t).isNone
/-- R172: the NaN and infinite elements known from a skipped operand's entry. -/
def State.wildCount (s : State) (t : TileReg) : Nat :=
  match s.kview t with
  | some k =>
    (k.pairs.filter fun p => wild p.2.2.val).length + (if wild k.base.val then t.count - k.pairs.length else 0)
  | none =>
    if t.entry.kind = .ramp then ((symbolElems t.format t.nrows t.ncols t.entry).filter fun e => wild e.val).length
    else if s.clean t then 0 else 1

/-! Resolution (R170, R171). -/

/-- An element of a result: −0 is +0 after a symbolic resolution (R164). -/
def resolved (m : Fmt) (x : Nat) : Elem :=
  let e := elemOf m x
  if Sem.isZero e.val then { pat := 0, val := .fin false 0 0 } else e
def entryOfBase (m : Fmt) (b : Elem) : TileEntry :=
  if Sem.isZero b.val then { kind := .zero } else { kind := .const, payload := plConst b.pat }
/-- Events counted `n` times. -/
def times (n : Nat) (a : Stats) : Stats := { sat := n * a.sat, flush := n * a.flush, nan := n * a.nan, esc := n * a.esc, skip := n * a.skip }

def KView.at (k : KView) (x y : Nat) : Elem := ((k.pairs.find? fun p => p.1 == x && p.2.1 == y).map (·.2.2)).getD k.base

/-- R171: base := op(base, base), the list over the positions of both lists; none when the operation must be computed. -/
def resolveK (m : Fmt) (rows cols : Nat) (f : TileFun) (a b : KView) (d : Draw) : Option (TileEntry × Draw) :=
  let (b0, d0) := f a.base.val b.base.val { lfsr := d.lfsr }
  if d0.lfsr ≠ d.lfsr then none
  else
    let base := resolved m b0
    let ps := (positions rows cols).filter fun p => (a.pairs ++ b.pairs).any fun q => q.1 == p.1 && q.2.1 == p.2
    let d := { d with st := d.st.add (times (rows * cols - ps.length) d0.st) }
    let res := ps.foldl (fun (acc : List (Nat × Nat × Elem) × Draw) p =>
      let (x, d) := f (a.at p.1 p.2).val (b.at p.1 p.2).val acc.2
      (acc.1 ++ [(p.1, p.2, resolved m x)], d)) ([], d)
    let kept := res.1.filter fun p => p.2.2.pat != base.pat
    let list := kept.map fun p => ({ row := p.1, col := p.2.1, value := BitVec.ofNat 32 p.2.2.pat } : ExcPair)
    match kept with
    | [] => some (withSummary (entryOfBase m base) [base], res.2)
    | p :: _ =>
      if kept.length = rows * cols ∧ kept.all (fun q => q.2.2.pat == p.2.2.pat) = true then
        some (withSummary (entryOfBase m p.2.2) [p.2.2], res.2)
      else if kept.length ≤ 16 ∧ listFmt m = true then
        some (listSummary m (rows * cols) { entryOfBase m base with list := list }, res.2)
      else none

/-! Computing (R169). -/

/-- Elements computed row-major. -/
def computeElems (m : Fmt) (f : TileFun) (as bs : List Elem) (d : Draw) : List Elem × Draw :=
  (as.zip bs).foldl (fun (acc : List Elem × Draw) p =>
    let (x, d) := f p.1.val p.2.val acc.2
    (acc.1 ++ [elemOf m x], d)) ([], d)

/-- Formats of the arithmetic (R184). -/
def arithFmt (m : Fmt) : Bool :=
  match m with
  | .f32 | .f16 | .bf16 => true
  | .int n => decide (n ≤ 32)
  | .nat n => decide (n ≤ 32)
  | _ => false

inductive TileOp where
  | add | sub | mul | min | max
deriving DecidableEq, Repr

/-- The element result of an operation (R184). -/
def TileOp.fn (o : TileOp) (m : Fmt) (r : Rnd) : TileFun := fun a b d =>
  match o with
  | .add => fitTile m r (addVal r a b) d
  | .sub => fitTile m r (subVal r a b) d
  | .mul => fitTile m r (Sem.mul a b) d
  | .min => fitTile m {} (minV a b) d
  | .max => fitTile m {} (maxV a b) d

/-- R164, R170: a RAMP as a symbolic result: it stays that RAMP, and its elements of −0 are reported as +0 (log 115). -/
def rampResult (t : TileReg) : TileEntry :=
  { t.entry with plus := t.entry.plus || (symbolElems t.format t.nrows t.ncols t.entry).any fun x => Sem.isZero x.val && x.pat != 0 }
/-- R169, R170: the addition of Z to a RAMP, with the events of its NaN elements. -/
def rampPlusZero (t : TileReg) (d : Draw) : TileEntry × Draw :=
  (rampResult t, d.nan (nansOf (symbolElems t.format t.nrows t.ncols t.entry)))

/-- R170 for a two-source operation: the resulting entry, or none when it is computed. -/
def State.resolve2 (s : State) (o : TileOp) (m : Fmt) (f : TileFun) (ta tb : TileReg) (d : Draw) : Option (TileEntry × Draw) :=
  let ka := s.kview ta
  let kb := s.kview tb
  let za := (ka.map KView.isZ).getD false
  let zb := (kb.map KView.isZ).getD false
  let zero : TileEntry := { kind := .zero }
  if za && zb then some (zero, d)
  else if s.repComputed ta || s.repComputed tb then none
  else if o = .mul ∧ (za || zb) = true ∧ s.clean (if za then tb else ta) = true then some (zero, d)
  else if o = .mul ∧ (za || zb) = true ∧ s.core.tile.fast = true then
    some (zero, { d with st := { d.st with skip := d.st.skip + s.wildCount (if za then tb else ta) } })
  else if o = .add ∧ za = true ∧ tb.entry.kind = .ramp then some (rampPlusZero tb d)
  else if o = .add ∧ zb = true ∧ ta.entry.kind = .ramp then some (rampPlusZero ta d)
  else match ka, kb with
    | some a, some b => resolveK m ta.nrows ta.ncols f a b d
    | _, _ => none

/-- The result of an operation, its events charged to the default counters (R179). -/
def State.tileDrawn (s : State) (n : Nat) (o : TileOut) (sym : Bool) (d : Draw) : Res :=
  .done (({ s with core := s.core.drawn d }).tileResult n o sym true)

/-- R177: the format checks of an operation on registers whose formats must agree with TYPE. -/
def tyOf (f : Fields) : Option Fmt := tyA f.ty
def tyDiffers (f : Fields) (ts : List TileReg) : Bool :=
  match ts with
  | [] => false
  | t :: rest => rest.any (fun u => u.fmt != t.fmt) || (match tyOf f with | some m => decide (m ≠ t.format) | none => false)
def sameShape (a b : TileReg) : Bool := a.rows == b.rows && a.cols == b.cols

def tileBinary (o : TileOp) (s : State) : Res :=
  let f := s.core.q.ir
  let td := s.reg s.dN
  let ta := s.reg s.aN
  let tb := s.reg s.bN
  let m := td.format
  let r := rndOf f.md
  needConf s [s.dN, s.aN, s.bN] (checked [
      (tyDiffers f [td, ta, tb], trapOf TILE_FORMAT 1),
      (!(sameShape td ta && sameShape td tb), trapOf TILE_FORMAT 2),
      (!arithFmt m, trapOf TILE_FORMAT 3)] (needLanded s [s.aN, s.bN] (
    match s.synth s.core ta, s.synth s.core tb with
    | .error x, _ => .trap (badRepeat ta x)
    | _, .error x => .trap (badRepeat tb x)
    | .ok as, .ok bs =>
      let s := (s.useTiles [s.aN, s.bN]).spendTiles [s.aN, s.bN]
      match s.resolve2 o m (o.fn m r) ta tb s.core.draw with
      | some (e, d) => s.tileDrawn s.dN { entry := e } true d
      | none =>
        let (es, d) := computeElems m (o.fn m r) as bs s.core.draw
        s.tileDrawn s.dN (classifyElems td es) false d)))

/-- TSCALE. -/
def scaleTile (s : State) : Res :=
  let f := s.core.q.ir
  let td := s.reg s.dN
  let ta := s.reg s.aN
  let m := td.format
  let k := (s.srcB.setWidth 32).toInt
  let fn : TileFun := fun a _ d => fitTile m (rndOf f.md) (Sem.scale k a) d
  needConf s [s.dN, s.aN] (checked [
      (tyDiffers f [td, ta], trapOf TILE_FORMAT 1), (!sameShape td ta, trapOf TILE_FORMAT 2),
      (!(arithFmt m && m.isFloat), trapOf TILE_FORMAT 3)] (needLanded s [s.aN] (
    match s.synth s.core ta with
    | .error x => .trap (badRepeat ta x)
    | .ok as =>
      let s := (s.useTiles [s.aN]).spendTiles [s.aN]
      match (s.kview ta).bind fun k => resolveK m ta.nrows ta.ncols fn k k s.core.draw with
      | some (e, d) => s.tileDrawn s.dN { entry := e } true d
      | none =>
        let (es, d) := computeElems m fn as as s.core.draw
        s.tileDrawn s.dN (classifyElems td es) false d)))

/-- R135, R184: one element converted. -/
def cvtFun (src dst : Fmt) (r : Rnd) : TileFun := fun a _ d =>
  if dst.isInt && !src.isInt then floatToInt dst r.mode a d else fitTile dst r a d
/-- The formats TCVT converts. -/
def cvtTileFmt (m : Fmt) : Bool := match m with | .int n => decide (n ≤ 32) | .nat n => decide (n ≤ 32) | _ => true

/-- R29, R184: undecodable escapes whose conversion is no NaN: each counts one. -/
def lostEscapes (as es : List Elem) : Nat := ((as.zip es).filter fun p => p.1.bad && !Sem.isNaN p.2.val).length

/-- TCVT: a block destination is encoded block by block; an unlisted ZERO or CONST resolves to what its blocks decode to. -/
def convertTile (s : State) : Res :=
  let f := s.core.q.ir
  let td := s.reg s.dN
  let ta := s.reg s.aN
  let r := rndOf f.md
  let fn := cvtFun ta.format td.format r
  needConf s [s.dN, s.aN] (checked [
      (!sameShape td ta, trapOf TILE_FORMAT 2), (!(cvtTileFmt td.format && cvtTileFmt ta.format), trapOf TILE_FORMAT 3)] (needLanded s [s.aN] (
    match s.synth s.core ta with
    | .error x => .trap (badRepeat ta x)
    | .ok as =>
      let s := (s.useTiles [s.aN]).spendTiles [s.aN]
      let k := s.kview ta
      let d := s.core.draw
      if td.format.isBlock then
        let (b, d') := encodeBlocks td.format r (as.map (·.val)) d
        let es := decodeBlocks td.format as.length b.1 b.2
        let o := classify td es b.1 b.2
        let d' := d'.nan (lostEscapes as es)
        let sym := (match k with | some v => v.pairs.isEmpty | none => false) && decide (d'.lfsr = d.lfsr) && o.data.isEmpty
        s.tileDrawn s.dN o sym d'
      else match k.bind fun k => resolveK td.format ta.nrows ta.ncols fn k k d with
        | some (e, d) => s.tileDrawn s.dN { entry := e } true d
        | none =>
          let (es, d) := computeElems td.format fn as as d
          s.tileDrawn s.dN (classifyElems td es) false (d.nan (lostEscapes as es)))))

/-- TTRANS. -/
def transposeTile (s : State) : Res :=
  let td := s.reg s.dN
  let ta := s.reg s.aN
  let m := td.format
  needConf s [s.dN, s.aN] (checked [
      (decide (td.fmt ≠ ta.fmt), trapOf TILE_FORMAT 1),
      (decide (td.rows ≠ ta.cols ∨ td.cols ≠ ta.rows), trapOf TILE_FORMAT 2), (m.isBlock, trapOf TILE_FORMAT 3)] (needLanded s [s.aN] (
    match s.synth s.core ta with
    | .error x => .trap (badRepeat ta x)
    | .ok as =>
      let s := (s.useTiles [s.aN]).spendTiles [s.aN]
      let a := as.toArray
      let flip : List Elem := (positions td.nrows td.ncols).map fun (x, y) => a.getD (y * ta.ncols + x) { pat := 0, val := .nan }
      let computed := s.tileDrawn s.dN (classifyElems td flip) false
        ({ lfsr := s.core.q.lfsr } |> Draw.nan (n := (flip.filter fun e => Sem.isNaN e.val).length))
      match s.kview ta with
      | some k =>
        let nans := (k.pairs.filter fun p => Sem.isNaN p.2.2.val).length + (if Sem.isNaN k.base.val then ta.count - k.pairs.length else 0)
        if k.pairs.length ≤ 16 then
          let e : TileEntry := { entryOfBase m (resolved m k.base.pat) with
            list := k.pairs.map fun p => { row := p.2.1, col := p.1, value := BitVec.ofNat 32 (resolved m p.2.2.pat).pat } }
          s.tileDrawn s.dN { entry := listSummary m td.count e } true (Draw.nan { lfsr := s.core.q.lfsr } nans)
        else computed
      | none =>
        let ax := plField ta.entry 64 2
        if ta.entry.kind = .ramp ∧ ax < 2 then
          let e := rampResult ta
          s.tileDrawn s.dN { entry := { e with payload := plRamp (1 - ax) (plField e 32 32) (plField e 0 32) } } true
            (Draw.nan { lfsr := s.core.q.lfsr } (nansOf flip))
        else computed)))

/-- TREDROW: the sums of the rows, by the tree of R139 over the columns. -/
def rowSums (s : State) : Res :=
  let f := s.core.q.ir
  let ta := s.reg s.aN
  let m := ta.format
  needConf s [s.aN] (checked [(tyDiffers f [ta], trapOf TILE_FORMAT 1), (!arithFmt m, trapOf TILE_FORMAT 3)] (needLanded s [s.aN] (
    match s.synth s.core ta with
    | .error x => .trap (badRepeat ta x)
    | .ok as =>
      let s := (s.useTiles [s.aN]).spendTiles [s.aN]
      let a := as.toArray
      let res := (List.range ta.nrows).foldl (fun (acc : List Lane × Draw) row =>
        let vs : List (Option FVal) := (List.range 64).map fun c =>
          if c < ta.ncols then some (a.getD (row * ta.ncols + c) { pat := 0, val := .nan }).val else none
        let (v, d) := reduceTree (sumComb m (rndOf f.md)) vs acc.2
        let (w, d) := reduceResult m (v.getD (.fin false 0 0)) d
        (acc.1 ++ [w.setWidth 32], d)) ([], s.core.draw)
      let p := ta.cycs
      let z := ((s.kview ta).map KView.isZ).getD false
      let s : State := { s with core := s.core.drawn res.2 }
      let s := s.modQ fun q => { q with vecBusy := max q.vecBusy (s.cyc + if z then 1 else p) }
      .done (s.fillIn (some (.v (f.dst.setWidth 5)))
        (.value (.lanes (BitVec.allOnes 64) (tab 64 fun i => res.1.getD i 0))) (8 + p) (8 + p)))))

/-! Shapes and meanings. -/

/-- R184: TYPE names the operands' format. -/
def tileTy (t : BitVec 4) : Bool := fvIv t
def shTbin (f : Fields) : Shape := { dst := .t, sa := .t, sb := .t, tyOk := tileTy f.ty, mdOk := if iv f.ty then satOnly f.md else mdRounds f.md, immOk := decide (f.imm = 0) }
def shTmin (f : Fields) : Shape := { shTbin f with mdOk := decide (f.md = 0) }
def shTscale (f : Fields) : Shape := { shTbin f with sb := .s, tyOk := fv f.ty, mdOk := mdRounds f.md }
def shTcvt (f : Fields) : Shape := { plainTy f with dst := .t, sa := .t, mdOk := mdRounds f.md }
def shTredrow (f : Fields) : Shape :=
  { dst := .v, sa := .t, tyOk := tileTy f.ty, mdOk := if iv f.ty then decide (f.md = 0) else mdRounds f.md, immOk := decide (f.imm = 0), emp := .long }
def sources2 (s : State) : List Nat := [s.aN, s.bN]

def tileArith (o : TileOp) (s : State) : Out := tileIssue (shTbin s.core.q.ir) none sources2 onlyD true false (tileBinary o) s
def tileMinMax (o : TileOp) (s : State) : Out := tileIssue (shTmin s.core.q.ir) none sources2 onlyD true false (tileBinary o) s

/-- TADD (R184). -/
def execTadd (s : State) : Out := tileArith .add s
/-- TSUB (R184). -/
def execTsub (s : State) : Out := tileArith .sub s
/-- TMUL (R184). -/
def execTmul (s : State) : Out := tileArith .mul s
/-- TMIN (R184). -/
def execTmin (s : State) : Out := tileMinMax .min s
/-- TMAX (R184). -/
def execTmax (s : State) : Out := tileMinMax .max s
/-- TSCALE (R184). -/
def execTscale (s : State) : Out := tileIssue (shTscale s.core.q.ir) none onlyA onlyD true false scaleTile s
/-- TCVT (R184). -/
def execTcvt (s : State) : Out := tileIssue (shTcvt s.core.q.ir) none onlyA onlyD true false convertTile s
/-- TTRANS (R184). -/
def execTtrans (s : State) : Out := tileIssue (shTmov s.core.q.ir) none onlyA onlyD true false transposeTile s
/-- TREDROW (R184). -/
def execTredrow (s : State) : Out :=
  let zero := ((s.kview (s.reg s.aN)).map KView.isZ).getD false
  issueWith (shTredrow s.core.q.ir) none (tileHold [s.aN] [] true) false
    (powered (fun _ => if zero then 0 else s.cyc + (s.reg s.aN).cycs + 8) rowSums) s

end Sys2Proof.Machine
end

