-- ==== Sys2Proof/Machine/Engine.lean ====
section
/-! DEFINITION. What the Load and Store Engine commands do (09 R181, R182, 13 R231 to R235, 07 R150): the bytes they read and
write, their failures, and the commits of tiles. -/

namespace Sys2Proof.Machine

open Sys2Proof Decode

/-- What a command comes to: the state with the effects that come in one step, the bytes that have still to land, its
failure (R223) with the PAGE_FAULT detail, the remote pieces it has still to read, the least cyc it takes, whether it may
take more (R435), its position, the bits of its operands (R314), the tensors of the pages it has read (R154), where its elements
go, and the addresses it has translated (R218). -/
structure EngRes where
  s : State
  lands : List Landing := []
  det : Nat := 0
  sub : Nat := 0
  need : List PagePiece := []
  lo : Nat := 0
  more : Bool := false
  te : Nat := 0
  rows : Nat := 0
  rate : Nat := 0
  tids : List Nat := []
  elems : List (Nat × Nat × Nat × Nat) := []
  pages : List Nat := []

/-- A failure that leaves everything unchanged; when it comes is not architectural (R435). -/
def engFail (s : State) (det : Nat) (sub : Nat := 0) : EngRes := { s := s, det := det, sub := sub, more := true }

/-! Reading space G (R165, R234). -/

structure GRead where
  bytes : List Byte := []
  need : List PagePiece := []
  fail : Option (Nat × Nat) := none
  tids : List Nat := []
  pages : List Nat := []

def GRead.append (a b : GRead) : GRead :=
  match a.fail with
  | some _ => a
  | none => { bytes := a.bytes ++ b.bytes, need := a.need ++ b.need, fail := b.fail, tids := a.tids ++ b.tids, pages := a.pages ++ b.pages }

/-- One piece of an extent within a page: `got` holds the remote bytes that have come, `failed` those that will not. -/
def State.engPiece (s : State) (n : Nat) (got : List (Nat × Byte)) (failed : List (Nat × Nat × Nat)) (va len : Nat) : GRead :=
  let c := s.coreAt n
  match s.translate c.task (dieOf n) va .read with
  | .error d => { fail := some (4, d) }
  | .ok p =>
    let pc : PagePiece := { va := va, len := len, node := p.node, die := p.die, pa := p.pa, pte := p.pte }
    if p.node ≠ s.fab.node.toNat then
      if (List.range len).all fun i => got.any fun g => g.1 == va + i then
        { bytes := (List.range len).map fun i => ((got.find? fun g => g.1 == va + i).map (·.2)).getD 0 }
      else match failed.find? fun x => decide (x.1 < va + len ∧ va < x.1 + x.2.1) with
        | some x => { fail := some (x.2.2, if x.2.2 = 10 then 3 else 0) }
        | none => { bytes := List.replicate len 0, need := [pc] }
    else if !paExists p.pa || s.badPiece pc then { fail := some (10, 3) }
    else { bytes := s.plainBytes c (dieOf n) p va len, tids := if pteTm p.pte then [pteTid p.pte] else [] }
def State.engRead (s : State) (n : Nat) (got : List (Nat × Byte)) (failed : List (Nat × Nat × Nat)) (va len : Nat) : GRead :=
  let r : GRead := (extentPieces va len).foldl (fun (a : GRead) (x, k) => a.append (s.engPiece n got failed x k)) {}
  { r with pages := (extentPieces va len).map (·.1) }

/-- Bytes of a buffer of a core as an engine reads them (R211, R384); a failure of DET 10 carries the cause of R386: 2 scratchpad, 3 memory
or link, 4 a residue of an accumulator of the C-buffer. -/
def State.padRead (s : State) (core buf off len : Nat) : GRead :=
  let c := s.coreAt core
  if c.isPending buf off len then { fail := some (12, 0) }
  else if c.isPoisoned buf off len then { fail := some (10, 2) }
  else if buf = 2 ∧ c.isPoisoned 3 off len = true then { fail := some (10, 4) }
  else { bytes := Mem.readN (c.tile.buf buf) off len }

/-- Adjacent pieces of a page joined. -/
def mergePieces (ps : List PagePiece) : List PagePiece :=
  ps.foldl (fun (acc : List PagePiece) p =>
    match acc.getLast? with
    | some q => if p.va = q.va + q.len ∧ p.pa = q.pa + q.len ∧ p.node = q.node ∧ p.die = q.die ∧ p.va / 32768 = q.va / 32768 then
        acc.dropLast ++ [{ q with len := q.len + p.len }] else acc ++ [p]
    | none => [p]) []

/-! What has still to land (R210). -/

/-- Bytes grouped by the 32-byte word they fall into, in order. -/
def wordGroups (bs : List (Nat × Byte)) : List (List (Nat × Byte)) :=
  bs.foldl (fun (acc : List (List (Nat × Byte))) b =>
    match acc.getLast? with
    | some g => if (g.headD b).1 / 32 = b.1 / 32 && (g.getLastD b).1 + 1 == b.1 then acc.dropLast ++ [g ++ [b]] else acc ++ [[b]]
    | none => [[b]]) []
def padLands (core buf : Nat) (bs : List (Nat × Byte)) : List Landing := (wordGroups bs).map fun g => .pad core buf g

/-- The landings of bytes at a virtual address, or DET with the detail of R219; what goes to a tile-mapped page takes its tensor entry
with it (R165). -/
def State.memLands (s : State) (n va : Nat) (bs : List Byte) : Except (Nat × Nat) (List Landing) :=
  let c := s.coreAt n
  (extentPieces va bs.length).foldl (fun acc (a, k) =>
    match acc with
    | .error d => .error d
    | .ok ls =>
      match s.translate c.task (dieOf n) a .write with
      | .error d => .error (4, d)
      | .ok p =>
        if p.node = s.fab.node.toNat ∧ !paExists p.pa then .error (10, 3)
        else
          let pc := s.viewed n { va := a, len := k, node := p.node, die := p.die, pa := p.pa, pte := p.pte }
          .ok (ls ++ (wordGroups (spanAt a ((bs.drop (a - va)).take k))).map fun g => .mem pc g)) (.ok [])

def Landing.addrs : Landing → List (Nat × Nat × Nat)
  | .pad c b bs => bs.map fun p => (c, b, p.1)
  | .mem _ bs => bs.map fun p => (4096, 4, p.1)
def Landing.overlaps (a b : Landing) : Bool := a.addrs.any fun x => b.addrs.contains x
/-- What lands on another module than `own`. -/
def Landing.away (own : Nat) : Landing → Bool
  | .pad _ _ _ => false
  | .mem p _ => p.node != own
/-- The access path of a command (R246). -/
def Cmd.path (k : Cmd) : Nat := if k.q = 1 then 3 else if k.q = 2 then 5 else if k.opc = 0x2C2 ∨ k.opc = 0x2C3 then 4 else 2

/-- R251: the writes emitted since a number are those of a command. -/
def State.ofCmd (s : State) (since u : Nat) : State :=
  { s with mem := { s.mem with emitted := s.mem.emitted.map fun w => if since ≤ w.uid then { w with who := some u } else w } }
/-- Bytes land; bytes of another module leave as WRITE packets whose acknowledgement the command waits for. The answer is none
while no flow slot is free. -/
def State.land (s : State) (n : Nat) (k : Cmd) (l : Landing) : Option State :=
  match l with
  | .pad c b bs => some (s.modCore c fun x => x.writeBuf b bs)
  | .mem p bs =>
    if p.node = s.fab.node.toNat then some ((s.applyPlain n k.path p bs).ofCmd s.uid k.uid)
    else
      let t := (s.coreAt n).task
      let items := (runs bs).flatMap fun (a, l) =>
        let base := p.pa + (a - p.va)
        (s.writeItems (dieOf n) { p.place with pa := base } (pathOrdered t k.path) l (.cmd n k.uid)).map fun it =>
          { it with va := a + (it.p.pa.toNat - base) }
      (s.flowSend t.ctx (dieOf n) p.node (pathOrdered t k.path) items).map fun s =>
        s.modCmd n k.uid fun k => { k with packets := k.packets + items.length }

/-- R210: some of what has to land lands, by free choice, never before an older landing of the same bytes; with `all`,
everything does. What goes to another module leaves in its order (R420). -/
def State.landSome (all : Bool) (n : Nat) (k : Cmd) : List Landing → List Landing → State → State × List Landing
  | [], kept, s => (s, kept)
  | l :: ls, kept, s =>
    let (b, s) := if all then (true, s) else s.freeBool
    if b && !kept.any (fun x => l.overlaps x || (l.away s.fab.node.toNat && x.away s.fab.node.toNat)) then
      match s.land n k l with
      | some s => State.landSome all n k ls kept s
      | none => State.landSome all n k ls (kept ++ [l]) s
    else State.landSome all n k ls (kept ++ [l]) s

/-! Copies (R231 to R235). -/

/-- A copy of `len` bytes, or bytes of its own, to a destination. -/
structure Move where
  src : Option Nat
  dst : Nat
  len : Nat
  own : List Byte := []

/-- R232: the signed value of a 48-bit stride. -/
def stride48 (x : Nat) : Int := (BitVec.ofNat 48 x).toInt

/-- All index vectors of a nest, counter 0 innermost. -/
def nest : List Nat → List (List Nat)
  | [] => [[]]
  | c :: cs => (nest cs).flatMap fun rest => (List.range c).map fun i => i :: rest

/-- A geometry: the checks passed and the moves in order, or the failure. -/
abbrev Geometry := Except Nat (List Move)

/-- The lowest and highest byte of a nest from a base. -/
def extLow (base : Int) (st : List Int) (cnt : List Nat) : Int :=
  (st.zip cnt).foldl (fun a (d, c) => a + min 0 (d * ((c : Int) - 1))) base
def extHigh (base : Int) (st : List Int) (cnt : List Nat) (s : Nat) : Int :=
  (st.zip cnt).foldl (fun a (d, c) => a + max 0 (d * ((c : Int) - 1))) base + s - 1

/-- Whether a lowest and a highest byte leave a space: 1 W, 2 A, 3 C, 0 G; the failure of R223. -/
def leaves (space : Nat) (lo hi : Int) : Option Nat :=
  if space = 0 then (if lo < 0 ∨ 2 ^ 51 ≤ hi then some 3 else none)
  else if lo < 0 ∨ (bufSize (space - 1) : Int) ≤ hi then some 2 else none

/-- R233: the moves of a CPY. -/
def cpyGeometry (d : List Byte) (spd sps dbase sbase : Nat) : Geometry :=
  let f (lo n : Nat) : Nat := leNat ((d.drop lo).take n)
  let esz := f 0 1 % 8
  let ks := List.range 6
  let cnt := ks.map fun k => f (16 + 16 * k) 4
  let ss := ks.map fun k => stride48 (f (20 + 16 * k) 6)
  let ds := ks.map fun k => stride48 (f (26 + 16 * k) 6)
  let s : Nat := 2 ^ esz
  let prod := cnt.foldl (· * ·) 1
  let off (x : Int) : Bool := x % (s : Int) != 0
  if 5 < esz ∨ f 0 1 / 8 ≠ 0 ∨ f 2 14 ≠ 0 ∨ 2 ^ 48 ≤ prod then .error 11
  else if prod = 0 then .ok []
  else if off dbase || off sbase || (ss ++ ds).any off then .error 5
  else match leaves spd (extLow dbase ds cnt) (extHigh dbase ds cnt s) with
    | some e => .error e
    | none => match leaves sps (extLow sbase ss cnt) (extHigh sbase ss cnt s) with
      | some e => .error e
      | none =>
        let at_ (b : Int) (st : List Int) (ix : List Nat) : Nat := ((st.zip ix).foldl (fun a (x, i) => a + x * (i : Int)) b).toNat
        .ok ((nest cnt).map fun ix => { src := some (at_ sbase ss ix), dst := at_ dbase ds ix, len := s })
/-- R232: the window of a CPY descriptor: the core whose buffer is the scratchpad side. -/
def cpyWindow (d : List Byte) : Option Nat :=
  let w := leNat (d.take 2)
  if w / 2 ^ 15 % 2 = 1 then some (w / 2 ^ 8 % 128) else none

/-- R235: the moves of a CPYW. -/
def cpywGeometry (d : List Byte) (spd sps dbase sbase : Nat) : Geometry :=
  let f (lo n : Nat) : Nat := leNat ((d.drop lo).take n)
  let sg (w lo n : Nat) : Int := (BitVec.ofNat w (f lo n)).toInt
  let esz := f 0 1
  let kw := f 1 1
  let strx := f 2 1
  let dil := f 3 1
  let cg := f 4 2
  let width := f 8 4
  let x0 := sg 32 12 4
  let npos := f 16 4
  let cstr := sg 64 24 8
  let drow := sg 64 32 8
  let s : Nat := 2 ^ esz
  let len := cg * s
  let pad := (List.range cg).flatMap fun _ => (d.drop 20).take s
  let off (x : Int) : Bool := x % (s : Int) != 0
  let bad (x hi : Nat) : Bool := decide (x < 1 ∨ hi < x)
  if 2 < esz ∨ bad kw 16 ∨ bad strx 16 ∨ bad dil 16 ∨ bad cg 4096 ∨ f 6 2 % 256 ≠ 0 ∨ bad width (2 ^ 31 - 1) ∨ bad npos (2 ^ 31 - 1)
      ∨ f 40 8 ≠ 0 then .error 11
  else if off dbase || off sbase || off cstr || off drow then .error 5
  else
    let taps := (List.range npos).flatMap fun p => (List.range kw).map fun t => (p, t)
    let col (p t : Nat) : Int := x0 + (p * strx + t * dil : Nat)
    let dst (p t : Nat) : Int := dbase + (p : Int) * drow + (t * len : Nat)
    let src (p t : Nat) : Option Int := if 0 ≤ col p t ∧ col p t < width then some (sbase + col p t * cstr) else none
    let ds := taps.map fun (p, t) => dst p t
    let ss := taps.filterMap fun (p, t) => src p t
    let out (sp : Nat) (l : List Int) : Option Nat := l.findSome? fun a => leaves sp a (a + len - 1)
    match out spd ds with
    | some e => .error e
    | none => match out sps ss with
      | some e => .error e
      | none => .ok (taps.map fun (p, t) =>
          { src := (src p t).map Int.toNat, dst := (dst p t).toNat, len := len, own := if (src p t).isNone then pad else [] })
def cpywWindow (d : List Byte) : Option Nat :=
  let w := leNat ((d.drop 6).take 2)
  if w / 2 ^ 15 % 2 = 1 then some (w / 2 ^ 8 % 128) else none

/-- Moves performed in order up to the first that fails (R234). -/
structure Moved where
  lands : List Landing := []
  bytes : List Byte := []
  need : List PagePiece := []
  count : Nat := 0
  fail : Option (Nat × Nat) := none
  tids : List Nat := []
  elems : List (Nat × Nat × Nat × Nat) := []
  pages : List Nat := []

/-- R233, R234: each move reads and then writes; nothing after a failing one is written. -/
def State.runMoves (s : State) (n : Nat) (k : Cmd) (lde : Bool) (padCore buf : Nat) (ms : List Move) : Moved :=
  ms.foldl (fun (a : Moved) m =>
    match a.fail with
    | some _ => a
    | none =>
      let r : GRead := match m.src with
        | none => { bytes := m.own }
        | some x => if lde then s.engRead n k.got k.failed x m.len else s.padRead padCore buf x m.len
      match r.fail with
      | some e => { a with fail := some e }
      | none =>
        let w : Except (Nat × Nat) (List Landing) :=
          if lde then .ok (padLands padCore buf (spanAt m.dst r.bytes)) else s.memLands n m.dst r.bytes
        match w with
        | .error e => { a with fail := some e }
        | .ok ls => { lands := a.lands ++ ls, bytes := a.bytes ++ (if m.src.isSome then r.bytes else []), need := a.need ++ r.need,
                      count := a.count + 1, tids := a.tids ++ r.tids, pages := a.pages ++ r.pages ++ (if lde then [] else (extentPieces m.dst m.len).map (·.1)),
                      elems := a.elems ++ [if lde then (padCore, buf, m.dst, m.len) else (4096, 4, m.dst, m.len)] }) {}

/-- Neighbouring words of a buffer written by one command land together, and neighbouring bytes of another module that cross no 2 KiB
boundary leave in one packet (R420). -/
def joinLands (own : Nat) (ls : List Landing) : List Landing :=
  ls.foldl (fun (acc : List Landing) l =>
    match acc.getLast?, l with
    | some (.pad c b x), .pad c' b' y =>
      if c = c' ∧ b = b' ∧ (x.headD (0, 0)).1 / 32 = (y.headD (0, 0)).1 / 32 ∧ (x.getLastD (0, 0)).1 + 1 = (y.headD (0, 0)).1 then
        acc.dropLast ++ [.pad c b (x ++ y)] else acc ++ [l]
    | some (.mem p x), .mem q y =>
      let place (r : PagePiece) (a : Nat) : Nat := r.pa + (a - r.va)
      let x0 := (x.headD (0, 0)).1
      let y0 := (y.headD (0, 0)).1
      if p.node ≠ own ∧ p.node = q.node ∧ p.die = q.die ∧ (x.getLastD (0, 0)).1 + 1 = y0 ∧ place p y0 = place q y0 ∧
          place p x0 / 2048 = place q y0 / 2048 then
        acc.dropLast ++ [.mem p (x ++ y)] else acc ++ [l]
    | _, _ => acc ++ [l]) []

def movedRes (s : State) (m : Moved) (bytes : Nat) : EngRes :=
  let t := toggles m.bytes
  { s := s, lands := joinLands s.fab.node.toNat m.lands, need := mergePieces m.need, lo := (bytes + 255) / 256, more := true,
    tids := m.tids, elems := m.elems, pages := m.pages.eraseDups,
    det := (m.fail.getD (0, 0)).1, sub := (m.fail.getD (0, 0)).2, te := teOf t.1 t.2 }

/-- R231: the failure before the descriptor is looked at: 7 and 3 stand in the command from its issue, then 9, then 1. -/
def cpyRefused (k : Cmd) : Option Nat :=
  if k.pre ≠ 0 then some k.pre
  else if k.spd = 7 then some 9
  else if (k.q = 0 ∧ k.sps = 0 ∧ (k.spd = 1 ∨ k.spd = 2)) ∨ (k.q = 2 ∧ k.spd = 0 ∧ (k.sps = 2 ∨ k.sps = 3)) then none
  else some 1

/-- CPY and CPYW (R231 to R235), with the descriptor read when the command began, from the element at which a checkpoint left it (R245). -/
def State.runCopy (s : State) (n : Nat) (k : Cmd) : EngRes :=
  match cpyRefused k with
  | some d => engFail s d
  | none =>
    let w := k.opc = 0x2C1
    if k.aux * 256 + (if w then 48 else 112) > Config.sizeA then engFail s 2
    else if k.descDet ≠ 0 then engFail s k.descDet
    else
      let lde := k.q = 0
      let pad := if lde then k.spd else k.sps
      let db := if lde then k.loc else k.far
      let sb := if lde then k.far else k.loc
      let core := match (if w then cpywWindow k.desc else cpyWindow k.desc) with | some c => n / 128 * 128 + c | none => n
      match (if w then cpywGeometry k.desc k.spd k.sps db sb else cpyGeometry k.desc k.spd k.sps db sb) with
      | .error d => engFail s d
      | .ok ms =>
        let ms := ms.drop k.resumed
        movedRes s (s.runMoves n k (decide lde) core (pad - 1) ms) (ms.foldl (fun (t : Nat) m => t + m.len) 0)

/-! Gathers (R150). -/

/-- The moves of the lanes that pass, the failure of the lowest lane that does not, for the first reason that holds (log 53), and the
lanes done. -/
def State.runGather (s : State) (n : Nat) (k : Cmd) : EngRes :=
  let size := k.aux * 32
  let buf := k.spd - 1
  let base := k.b.toNat
  if size = 0 then engFail s 11
  else
    let lanes := (List.range 64).filter fun i => k.en.getLsbD i
    let r := (((List.range lanes.length).zip lanes).drop k.resumed).foldl (fun (acc : Moved) (j, i) =>
      let a := acc
      let dst := k.loc + j * size
      let ix := (vat k.idx i).toNat
      let note (e : Nat × Nat) : Moved := { a with fail := some (a.fail.getD e) }
      let a := { a with elems := a.elems ++ [(n, buf, dst, size)] }
      let a' : Moved :=
        if bufSize buf < dst + size then note (2, 0)
        else if k.opc = 0x2C3 ∧ k.bound ≤ ix then
          { a with lands := a.lands ++ padLands n buf (spanAt dst (List.replicate size 0)) }
        else if 2 ^ 51 < base + (ix + 1) * size then note (3, 0)
        else
          let g := s.engRead n k.got k.failed (base + ix * size) size
          match g.fail with
          | some e => note e
          | none => { a with lands := a.lands ++ padLands n buf (spanAt dst g.bytes), bytes := a.bytes ++ g.bytes,
                             need := a.need ++ g.need, tids := a.tids ++ g.tids, pages := a.pages ++ g.pages }
      a') {}
    movedRes s r ((lanes.length - k.resumed) * size)

/-! Tiles (R161, R181, R182). -/

/-- R161: the core keeps a map entry it has read, the most recently used first; an entry that is pinned stays. -/
def CoreSt.useEntry (c : CoreSt) (r : TileRef) : Option CoreSt :=
  let i := r.m
  let rest := c.tile.cache.filter fun e => !(e.tid == r.tid && e.index == i)
  let now : TileCache := { tid := r.tid, index := i, key := paKey r.mapAt.die r.mapAt.pa, entry := r.entry }
  if rest.length < 240 then some (c.modTile fun t => { t with cache := now :: rest })
  else match rest.reverse.find? fun e => !e.entry.pin with
    | none => none
    | some old => some (c.modTile fun t => { t with cache := now :: rest.erase old })

/-- R156: the failure of a refused handle, as DET and its detail (R223). -/
def handleDet (x : HandleErr) : Nat × Nat := match x with | .tile _ => (6, 0) | .page d _ => (4, d)

/-- A handle resolved by an engine: the reference, or DET and its detail; the tensor entry is kept either way (R154), and the map entry
of a handle that is not refused (R161; DET 6 where all are pinned, log 53). -/
def State.engResolve (s : State) (n h : Nat) : Except (Nat × Nat) TileRef × State :=
  let s := s.keepTensor n (handleOf h).tid
  match s.resolve (s.coreAt n) h with
  | .error x => (.error (handleDet x), s)
  | .ok r =>
    if r.entry.spoiled then (.error (10, 2), s)
    else match (s.coreAt n).useEntry r with
    | none => (.error (6, 0), s)
    | some c =>
      (.ok r, s.modCore n fun _ => c)

/-- R384: the slot of a tile holds a poisoned line. -/
def State.badSlot (s : State) (r : TileRef) : Bool :=
  s.badPiece { va := 0, len := max 1 r.t.tileBytes, node := r.slotAt.node, die := r.slotAt.die, pa := r.slotAt.pa, pte := r.slotAt.pte }

/-- R85 column B: the format of a nonzero TYPE. -/
def Cmd.fmt (k : Cmd) : Option Fmt := tyB (BitVec.ofNat 4 k.ty)
def Cmd.typeFits (k : Cmd) (m : Fmt) : Bool := decide (k.ty = 0) || decide (k.fmt = some m)

/-- R177: the tensor of a handle, where its entry is well formed, has another format or tile shape than a register. -/
def State.tensorDiffers (s : State) (c : CoreSt) (h : Nat) (t : TileReg) : Bool :=
  match s.tensorWord c (handleOf h).tid with
  | .ok w => let x := tensorOf w; x.rank ≠ 0 && x.ok && (x.fmt != t.format || x.rows != t.nrows || x.cols != t.ncols)
  | .error _ => false
/-- New contents of a register from an engine: its entry now, its bytes as they land (R210). -/
def State.tileLands (s : State) (n tn : Nat) (o : TileOut) (r : EngRes) : EngRes :=
  let t := (s.coreAt n).reg tn
  { r with s := s.modCore n fun c => c.modReg tn fun t => t.take o true, lands := padLands n t.buf (o.spans t) }

/-- TLD: the checks of R177 on the register, then the handle. -/
def State.runTld (s : State) (n : Nat) (k : Cmd) : EngRes :=
  let t := (s.coreAt n).reg k.tile
  let s := s.keepTensor n (handleOf k.far).tid
  if t.blank || !k.typeFits t.format || s.tensorDiffers (s.coreAt n) k.far t || t.space ≠ 2 then engFail s 8
  else match s.engResolve n k.far with
    | (.error (d, u), s) => engFail s d u
    | (.ok r, s) =>
      let s := s.keepSource n r.entry
      let c := s.coreAt n
      if r.entry.kind = .unconf then engFail s 6
      else if r.entry.kind = .stored then
        if s.badSlot r then engFail s 10 3
        else match s.slotBytes c r with
          | .error x => engFail s (handleDet x).1 (handleDet x).2
          | .ok b =>
            let o := classify t (elemsOfBytes t.format t.count b.1 b.2) b.1 b.2
            let g := toggles b.1
            s.tileLands n k.tile o { s := s, lo := (b.1.length + 255) / 256, more := true, te := teOf g.1 g.2 }
      else match (if r.entry.kind = .rep then (s.repSource c t.format r.entry).map (fun _ => ()) else .ok ()) with
        | .error (.page d _) => engFail s 4 d
        | .error _ => engFail s 6
        | .ok _ => s.tileLands n k.tile { entry := r.entry } { s := s, more := true }

/-- TLDA: each element written as NaN counts (R39). -/
def State.runTlda (s : State) (n : Nat) (k : Cmd) : EngRes :=
  let t := (s.coreAt n).reg k.tile
  let w := t.format.width / 8
  if k.pre ≠ 0 then engFail s k.pre
  else if t.blank || !k.typeFits t.format || t.space ≠ 2 || t.format.isBlock then engFail s 8
  else if k.far % w ≠ 0 then engFail s 5
  else if 2 ^ 51 < k.far + t.bytes then engFail s 3
  else
    let g := s.engRead n k.got k.failed k.far t.bytes
    match g.fail with
    | some (d, u) => engFail s d u
    | none =>
      let es := elemsOfBytes t.format t.count g.bytes []
      let o := classifyElems t es
      let b := toggles g.bytes
      (s.modCore n fun c => c.charge { nan := nansOf es }).tileLands n k.tile { o with data := if o.data.isEmpty then [] else g.bytes }
        { s := s, need := mergePieces g.need, lo := (t.bytes + 255) / 256, more := true, te := teOf b.1 b.2, tids := g.tids, pages := g.pages }

/-- The stored bytes of a register as STE reads them. -/
def State.regRead (s : State) (n : Nat) (t : TileReg) : Option (Nat × Nat) :=
  if t.entry.kind = .stored then
    (s.padRead n t.buf t.offset.toNat t.bytes).fail.or (s.padRead n t.buf (t.offset.toNat + 8192) (scaleBytes t.format t.count)).fail
  else none

/-- R182: bytes of a tile beside its slot, a list or scale data, page by page: those of this module, and those that leave as WRITEs
(log 109); or the failure. -/
def State.besidePlan (s : State) (n va : Nat) (bs : List Byte) : Except (Nat × Nat) (List (Nat × Byte) × List Landing) :=
  if bs.isEmpty then .ok ([], [])
  else
    let c := s.coreAt n
    (extentPieces va bs.length).foldl (fun acc (a, k) =>
      match acc with
      | .error e => .error e
      | .ok (near, far) =>
        let x := (bs.drop (a - va)).take k
        match s.placeVa c.task (dieOf n) a .write with
        | .ok p => .ok (near ++ spanAt (paKey p.die p.pa) x, far)
        | .error (.remote p) => .ok (near, far ++ [.mem { va := a, len := k, node := p.node, die := p.die, pa := p.pa, pte := p.pte } (spanAt a x)])
        | .error (.page d) => .error (4, d)
        | .error (.absent _ _) => .error (10, 3)) (.ok ([], []))

/-- R163, R167, R200: a tile is on its way to its home, where it is committed in one step: its entry, its list, its bytes and
scale data; the command waits for the commit. -/
def State.sendCommit (s : State) (n u : Nat) (r : TileRef) (e : TileEntry) (data scales : List Byte) : EngRes :=
  match s.besidePlan n (r.t.recordVa r.m) (pairBytes e.list), s.besidePlan n (r.t.scaleVa r.m) scales with
  | .error (d, x), _ => engFail s d x
  | _, .error (d, x) => engFail s d x
  | .ok a, .ok b =>
    let bs := spanAt (paKey r.slotAt.die r.slotAt.pa) data ++ a.1 ++ b.1
    let (v, s) := s.takeUid
    let f : InFlight := { uid := v, core := n, path := 5, cmd := some u, what := .commit r.mapAt.die r.mapAt.pa e bs r.tid r.m }
    let s := { s with mem := { s.mem with flying := s.mem.flying ++ [f] } }
    { s := (s.modCmd n u fun k => { k with packets := k.packets + 1 }).scheduleFrom 0 .tileCommit { n0 := v },
      lands := a.2 ++ b.2, lo := (data.length + 255) / 256, more := true }
/-- R163, R182: elements of a register committed as what the scan of them finds. -/
def State.commitElems (s : State) (n u : Nat) (r : TileRef) (t : TileReg) (es : List Elem) : EngRes :=
  let c := s.coreAt n
  let b := if t.entry.kind = .stored then c.regBytes t
    else if t.format.isBlock then (encodeBlocks t.format {} (es.map (·.val)) { lfsr := 0 }).1 else (bytesOfElems t.format es, [])
  let o := classify t es b.1 b.2
  s.sendCommit n u r (if o.entry.kind = .stored then { o.entry with payload := 0 } else o.entry) o.data o.scales

/-- R182: whether a register is committed as its symbol: its list fits the tensor, and a REPEAT names another tile of the same tensor
that it may repeat; or the failure of its source's handle. -/
def State.commitsSymbol (s : State) (n : Nat) (r : TileRef) (t : TileReg) : Except HandleErr Bool :=
  match t.entry.kind with
  | .zero | .const | .ramp => .ok (t.entry.list.isEmpty || (r.t.scale ≠ 0 && listFmt t.format))
  | .rep =>
    if plField t.entry 41 10 = r.tid then (s.repSource (s.coreAt n) t.format t.entry).map fun x => x.m != r.m else .ok false
  | _ => .ok false

/-- TST: the checks of R177 on the register, then the handle; the scale records of a symbolic block tile are written too (R163). -/
def State.runTst (s : State) (n : Nat) (k : Cmd) : EngRes :=
  let t := (s.coreAt n).reg k.tile
  let s := s.keepTensor n (handleOf k.far).tid
  if t.blank || !k.typeFits t.format || s.tensorDiffers (s.coreAt n) k.far t then engFail s 8
  else match s.engResolve n k.far with
    | (.error (d, u), s) => engFail s d u
    | (.ok r, s) =>
      let s := s.keepSource n t.entry
      if !pteW r.slotAt.pte then engFail s 4 4
      else match s.commitsSymbol n r t with
        | .error x => engFail s (handleDet x).1 (handleDet x).2
        | .ok true =>
          let scales := if t.format.isBlock && (t.entry.kind == .zero || t.entry.kind == .const) then
              (encodeBlocks t.format {} (List.replicate t.count (baseElem t.format t.entry).val) { lfsr := 0 }).1.2 else []
          s.sendCommit n k.uid r t.entry [] scales
        | .ok false => match s.regRead n t with
          | some (d, u) => engFail s d u
          | none =>
            match s.synth (s.coreAt n) t with
            | .error x => engFail s (handleDet x).1 (handleDet x).2
            | .ok es => s.commitElems n k.uid r t es

/-- R163: the tile that a copy-out by address writes whole: the address is that of a tile of the register's format and shape (DEDUCED,
log 116). -/
def State.wholeTile (s : State) (n va : Nat) (t : TileReg) : Option TileRef :=
  let c := s.coreAt n
  match s.placeVa c.task (dieOf n) va .write with
  | .ok p =>
    if !pteTm p.pte then none
    else match s.pageTile c p va with
      | some r => if r.slotAt.pa = p.pa ∧ r.t.fmt = t.format ∧ r.t.rows = t.nrows ∧ r.t.cols = t.ncols then some r else none
      | none => none
  | .error _ => none
/-- R39: the events of elements of a command written to an address: charged to the tensor that the first byte's page names, else to
the default counters (log 15). -/
def State.chargeAt (s : State) (n : Nat) (k : Cmd) (va : Nat) (st : Stats) : State :=
  let c := s.coreAt n
  match s.placeVa c.task (dieOf n) va .write with
  | .ok p =>
    if pteTm p.pte then s.chargeTensor n { thread := c.task.thread, gang := c.task.gang } (pteTid p.pte) st (c.ofEarlierPhase k)
    else s.modCore n fun c => c.chargeFor k st
  | .error _ => s.modCore n fun c => c.chargeFor k st
/-- R39: the NaN elements that a command writes from an address on, each charged by the page it lies in. -/
def State.chargeSpan (s : State) (n : Nat) (k : Cmd) (va w : Nat) (es : List Elem) : State :=
  (extentPieces va (w * es.length)).foldl (fun (s : State) (a, len) =>
    s.chargeAt n k a { nan := nansOf ((es.drop ((a - va) / w)).take (len / w)) }) s

/-- TSTA: each element written as NaN counts (R39); a tile written whole is scanned (R163). -/
def State.runTsta (s : State) (n : Nat) (k : Cmd) : EngRes :=
  let c := s.coreAt n
  let t := c.reg k.tile
  if k.pre ≠ 0 then engFail s k.pre
  else if t.blank || !k.typeFits t.format || t.format.isBlock then engFail s 8
  else if k.far % (t.format.width / 8) ≠ 0 then engFail s 5
  else if 2 ^ 51 < k.far + t.bytes then engFail s 3
  else match s.regRead n t with
    | some (d, u) => engFail s d u
    | none =>
      match s.synth c t with
      | .error x => engFail s (handleDet x).1 (handleDet x).2
      | .ok es =>
        match s.memLands n k.far (bytesOfElems t.format es) with
        | .error (d, u) => engFail s d u
        | .ok ls =>
          let s := (s.keepSource n t.entry).chargeSpan n k k.far (t.format.width / 8) es
          match s.wholeTile n k.far t with
          | some r => { s.commitElems n k.uid r t es with tids := [r.tid] }
          | none => { s := s, lands := ls, lo := (t.bytes + 255) / 256, more := true, pages := (extentPieces k.far t.bytes).map (·.1) }

/-- A tile is committed at its home: one step among the accesses of the tile. -/
def State.commitNow (s : State) (u : Nat) : State :=
  match s.flight u with
  | none => s
  | some f =>
    match f.what with
    | .commit d pa e bs _ _ =>
      let home : Place := { node := 0, die := d, pa := pa, pte := 0 }
      let since := s.uid
      let s := (s.dropFlight u).emitWrite d (bs ++ entrySpan home e) (some (f.core, f.path))
      match f.cmd with
      | some k => (s.ofCmd since k).modCmd f.core k fun k => { k with packets := k.packets - 1 }
      | none => s
    | _ => s

/-- TILE_COMMIT (R167). -/
def execTileCommit (s : State) : Out := .next (s.commitNow s.ev.n0)

end Sys2Proof.Machine
end

