-- ==== Sys2Proof/Machine/Matrix.lean ====
section
/-! DEFINITION. The Matrix Engine (02 R35, 09 R188 to R197): weight planes, images, streams with their symbolic resolution, the
epilogue, the accumulator moves and the operand fetcher (13 R237). -/

namespace Sys2Proof.Machine

open Sys2Proof Decode

/-! Operand families (R191). -/

/-- MAC per cyc and group size of a pairing; none when it is refused. -/
def pairing (a w : Fmt) : Option (Nat × Nat) :=
  let small : Fmt → Bool := fun m => m == .e4m3 || m == .e5m2 || m == .e2m1
  match a with
  | .f32 => if w = .f32 then some (512, 1) else none
  | .f16 | .bf16 => if w = .f16 ∨ w = .bf16 ∨ small w = true then some (2048, 4) else none
  | .e4m3 | .e5m2 => if small w then some (4096, 4) else none
  | .bfp n => (match w with
    | .bfp _ => some (if n = 2 then 16384 else if n ≤ 4 then 8192 else 4096, 16)
    | _ => none)
  | _ => none

/-- R191: formats of weights, and of activations. -/
def weightFmt (m : Fmt) : Bool := match m with | .int _ => false | .nat _ => false | _ => true
def actFmt (m : Fmt) : Bool := weightFmt m && m != .e2m1

/-! Images (R189, R190). -/

/-- Bytes of a weight image, and of `rows` activation rows. -/
def weightBytes (m : Fmt) : Nat := match m with | .e2m1 => 4096 | .bfp n => 512 * n + 256 | _ => 512 * m.width
def actBytes (m : Fmt) (rows : Nat) : Nat := match m with | .bfp n => 8 * n * rows + 4 * rows | _ => 64 * rows * m.width / 8

/-- The elements of an image in their order. -/
def imageElems (m : Fmt) (count : Nat) (bs : List Byte) : List Elem :=
  match m with
  | .e2m1 => decodeBlocks m count (bs.take (16 * (count / 32))) (bs.drop 2048)
  | .bfp n => decodeBlocks m count (bs.take (2 * n * (count / 16))) (bs.drop (2 * n * (count / 16)))
  | _ => elemsOfBytes m count bs []

def planeOf (m : Fmt) (stored : Bool) (kp np : Nat) (w : List FVal) : Plane :=
  { fmt := fmtCode m, stored := stored, hnan := w.any Sem.isNaN, hinf := w.any Sem.isInf, kp := kp, np := np, w := w, defined := true }

/-! The operand fetcher (R237). -/

/-- R172: the count of a skipped tile operand. -/
def State.opndWild (s : State) (t : TileReg) : Nat := s.wildCount t

/-- A tile as the fetcher reads it. -/
def State.fetchOne (s : State) (n h : Nat) : Opnd × State :=
  let fails (x : Nat × Nat) : Opnd := { det := x.1, sub := x.2 }
  match s.engResolve n h with
  | (.error x, s) => (fails x, s)
  | (.ok r, s) =>
    let s := s.keepSource n r.entry
    let c := s.coreAt n
    let t : TileReg := { fmt := BitVec.ofNat 5 r.t.fmtCode, rows := BitVec.ofNat 6 (r.t.rows - 1), cols := BitVec.ofNat 6 (r.t.cols - 1), entry := r.entry }
    let z := { s with core := c }
    if r.entry.kind = .unconf then (fails (6, 0), s)
    else if r.entry.kind = .stored ∧ s.badSlot r = true then (fails (10, 3), s)
    else match (if r.entry.kind = .stored then s.slotBytes c r else .ok ([], [])) with
      | .error x => (fails (handleDet x), s)
      | .ok b =>
        match s.entryElems c r.t.fmt r.t.rows r.t.cols r.entry (if r.entry.kind = .stored then elemsOfBytes r.t.fmt t.count b.1 b.2 else []) with
        | .error x => (fails (handleDet x), s)
        | .ok es =>
          let zero := (z.kview t).any KView.isZ
          let g := toggles b.1
          ({ fmt := r.t.fmtCode, rows := r.t.rows, cols := r.t.cols, zero := zero, comp := z.repComputed t, clean := z.clean t,
             wild := z.opndWild t, escapes := escapesOf es, vals := es.map (·.val), differ := g.1, compared := g.2,
             bytes := if zero then 0 else r.t.tileBytes + scaleBytes r.t.fmt (r.t.rows * r.t.cols) }, s)

/-- The handles of a matrix command, in the order they are used: weights first. The weight handle of MMAC and MMACH, for which the
128-bit command of R92 has no field, stays beside it as a register operand read at issue (DESIGN CHOICE, log 117). -/
def Cmd.handles (k : Cmd) : List Nat :=
  match k.opc with
  | 0x281 => [k.far]
  | 0x284 => [k.far]
  | 0x285 => [k.c.toNat % 2 ^ 51, k.far]
  | 0x286 => [k.c.toNat % 2 ^ 51, k.far]
  | _ => []

/-- OPERAND_FETCH: at most four commands ahead of the executing one. -/
def State.fetchStep (s : State) (n u : Nat) : State :=
  let c := s.coreAt n
  match c.cmdOf u with
  | none => s
  | some k =>
    let ahead := ((c.queue 1 0).takeWhile fun x => x.uid != u).length
    let pages := k.handles.flatMap fun h => s.handlePages c h
    if k.fetched then s
    else if 4 < ahead then s.schedule 1 .operandFetch { n0 := n, n1 := u }
    else match s.pagesFor n k.walks pages with
    | some (left, s) => (s.modCmd n u fun k => { k with walks := some left }).schedule 1 .operandFetch { n0 := n, n1 := u }
    | none =>
      let who : Nat × Nat := (n, 16 + u)
      let ws := k.handles.flatMap fun h => s.handleWants c (s.farAnswered who 0) 2 h
      if !s.farAnswered who 0 ws then
        (s.askFar who 0 c.task.ctx (dieOf n) (pathOrdered c.task 3) ws).schedule 1 .operandFetch { n0 := n, n1 := u }
      else
      let lost := s.farBad who 0 ws
      let r := k.handles.foldl (fun (a : List Opnd × State) h => let (o, s) := a.2.fetchOne n h; (a.1 ++ [o], s)) ([], s)
      let r := if lost then (k.handles.map fun _ => ({ det := 15 } : Opnd), s) else r
      let r := (r.1, r.2.farDone who)
      let te := teOf (r.1.foldl (fun (t : Nat) o => t + o.differ) 0) (r.1.foldl (fun (t : Nat) o => t + o.compared) 0)
      let s := r.2.modCmd n u fun k => { k with fetched := true, opnds := r.1, te := te, walks := none }
      (s.modCore n fun c => c.modEng fun e => { e with telast := te }).schedule 0 .engineCommandBegin { n0 := n, n1 := u }

/-- OPERAND_FETCH (R237). -/
def execOperandFetch (s : State) : Out := .next (s.fetchStep s.ev.n0 s.ev.n1)

/-! Streams (R35, R193, R194). -/

/-- R35: one accumulator updated by the groups of a row and a column; an exact sum starts at +0, so that a group of −0 products adds +0
(DESIGN CHOICE, log 118). -/
def macElem (g : Nat) (a w : List FVal) (c : FVal) : FVal :=
  (chunks (a.length + 1) g (a.zip w)).foldl (fun c ps =>
    let sum := ps.foldl (fun (x : FVal) p => Sem.add false x (Sem.mul p.1 p.2)) (.fin false 0 0)
    decodeFloat .f32 (roundF .f32 {} (Sem.add false c sum) { lfsr := 0 }).1) c

/-- The weights of column `n`. -/
def Plane.col (p : Plane) (n k : Nat) : List FVal := if p.stored then (p.w.drop (64 * n)).take k else List.replicate k (.fin false 0 0)

/-- What a stream reads: its rows, whether its tile is ZERO without a list, whether it is a REPEAT that is always computed, whether it
is clean, and the count of a skip. -/
structure Acts where
  fmt : Fmt
  k : Nat
  rows : List (List FVal)
  zero : Bool := false
  comp : Bool := false
  clean : Bool := true
  wild : Nat := 0

/-- R170, R194: whether the stream resolves without computing: the SYMSKIP it counts. -/
def symbolicStream (p : Plane) (a : Acts) (fast : Bool) : Option Nat :=
  let clean := !p.hnan && !p.hinf
  if a.comp then none
  else if !p.stored && a.clean then some 0
  else if a.zero && clean then some 0
  else if fast && !p.stored then some a.wild
  else if fast && a.zero then some 1
  else none

/-- The accumulators that are NaN. -/
def nanAccs (accs : List (List Nat)) : Nat :=
  accs.foldl (fun (n : Nat) r => r.foldl (fun (n : Nat) x => if Sem.isNaN (decodeFloat .f32 x) then n + 1 else n) n) 0

/-- Accumulator patterns after a stream, the events, whether it resolved: a resolved stream counts the NaN accumulators that computing it
would write (R169), a FAST skip SYMSKIP only. -/
def streamAccs (p : Plane) (g : Nat) (a : Acts) (z fast : Bool) (accs : List (List Nat)) : List (List Nat) × Stats × Bool :=
  match symbolicStream p a fast with
  | some k =>
    ((if z then accs.map fun r => r.map fun _ => 0 else accs), { skip := k, nan := if z || k ≠ 0 then 0 else nanAccs accs }, true)
  | none =>
    let cols := (List.range p.np).map fun n => p.col n a.k
    let out := (a.rows.zip accs).map fun (r, acc) => (cols.zip acc).map fun (w, x) =>
      f32Pat (macElem g r w (if z then .fin false 0 0 else decodeFloat .f32 x))
    (out, { nan := nanAccs out }, false)

/-- Accumulator rows of the C-buffer (R188). -/
def readAccs (m : Mem) (c0 rows np : Nat) : List (List Nat) :=
  (List.range rows).map fun r => (List.range np).map fun n => Mem.readLE m (c0 + 256 * r + 4 * n) 4
/-- Their bytes, by address. -/
def accSpans (c0 : Nat) (accs : List (List Nat)) : List (Nat × Byte) :=
  ((List.range accs.length).zip accs).flatMap fun (r, row) => spanAt (c0 + 256 * r) (row.flatMap fun x => leBytes 4 x)

/-- A plane from a fetched weight tile (R189, R193): tile row n is output column n. -/
def planeOfOpnd (o : Opnd) : Plane :=
  let m := (fmtOfCode o.fmt).getD .f32
  if o.zero then { planeOf m false o.cols o.rows [] with stored := false }
  else
    let w := (List.range 64).flatMap fun n => (List.range 64).map fun k =>
      if n < o.rows ∧ k < o.cols then o.vals.getD (n * o.cols + k) (.fin false 0 0) else .fin false 0 0
    planeOf m true o.cols o.rows w
def actsOfOpnd (o : Opnd) (rows : Nat) : Acts :=
  { fmt := (fmtOfCode o.fmt).getD .f32, k := o.cols, zero := o.zero, comp := o.comp, clean := o.clean, wild := o.wild,
    rows := (List.range rows).map fun r => (o.vals.drop (r * o.cols)).take o.cols }

/-- R387: a read of a plane that is not defined in the open phase sets LIVE. -/
def CoreSt.readPlane (c : CoreSt) (p : Plane) : CoreSt := if c.ph.en && !p.defined then c.modPh fun x => { x with live := true } else c

/-- A stream against a plane into accumulators at `c0`, or into a tile register. -/
def State.streamOn (s : State) (n : Nat) (k : Cmd) (p : Plane) (a : Acts) (readCyc before : Nat) (tile : Option Nat) (c0 : Nat)
    (after : CoreSt → CoreSt) : EngRes :=
  let c := (s.coreAt n).readPlane p
  let rows := a.rows.length
  match (fmtOfCode p.fmt).bind fun w => pairing a.fmt w with
  | none => engFail s 8
  | some (rate, g) =>
    if a.k ≠ p.kp then engFail s 8
    else
      let z := k.md % 2 = 1
      let done (accs : List (List Nat)) : (List (List Nat) × Stats) × Nat :=
        let r := streamAccs p g a (decide z) k.fast accs
        ((r.1, r.2.1), before + if r.2.2 then readCyc else (rows * 4096 + rate - 1) / rate)
      match tile with
      | some tn =>
        let t := c.reg tn
        if t.blank ∨ t.format ≠ Fmt.f32 ∨ t.space ≠ 3 ∨ t.nrows ≠ rows ∨ t.ncols ≠ p.np then engFail s 8
        else match (if !decide z && (symbolicStream p a k.fast).isNone then s.regRead n t else none), s.synth c t with
          | some (d, u), _ => engFail s d u
          | none, .error x => engFail s (handleDet x).1 (handleDet x).2
          | none, .ok es =>
            let old := chunks (rows + 1) t.ncols (es.map (·.pat))
            let r := done old
            let o := classifyElems t (r.1.1.flatten.map fun x => elemOf .f32 x)
            ((s.modCore n fun _ => after (c.charge r.1.2)).keepSource n t.entry).tileLands n tn o { s := s, lo := r.2, rows := rows, rate := rate }
      | none =>
        let reads := !decide z && (symbolicStream p a k.fast).isNone
        if Config.sizeC < c0 + 256 * rows then engFail s 2
        else match (if reads then (s.padRead n 2 c0 (256 * (rows - 1) + 4 * p.np)).fail else none) with
        | some (d, u) => engFail s d u
        | none =>
          let r := done (readAccs c.tile.bufC c0 rows p.np)
          { s := s.modCore n fun _ => after (c.charge r.1.2), lands := padLands n 2 (accSpans c0 r.1.1), lo := r.2, rows := rows, rate := rate }

/-- MSTREAM. -/
def State.runMstream (s : State) (n : Nat) (k : Cmd) : EngRes :=
  let c := s.coreAt n
  match k.fmt with
  | none => engFail s 8
  | some m =>
    let rows := k.aux + 1
    let size := actBytes m rows
    if k.pre ≠ 0 then engFail s k.pre
    else if Config.sizeA < k.loc + size then engFail s 2
    else
      let g := s.padRead n 1 k.loc size
      match g.fail with
      | some (d, u) => engFail s d u
      | none =>
        let v := (imageElems m (64 * rows) g.bytes).map (·.val)
        let rs := chunks (rows + 1) 64 v
        let wild := (v.filter fun x => !Sem.isFinite x).length
        s.streamOn n k c.tile.active { fmt := m, k := 64, rows := rs, clean := decide (wild = 0), wild := wild }
          ((size + 511) / 512) 0 none (k.far % 2 ^ 20) id

/-- MSTREAMH, MMAC, MMACH: a plane `p` in `before` cyc, and the activation operand. -/
def State.streamHandle (s : State) (n : Nat) (k : Cmd) (p : Plane) (o : Opnd) (rows before : Nat) (tile : Option Nat)
    (after : CoreSt → CoreSt) : EngRes :=
  if o.det ≠ 0 then engFail s o.det o.sub
  else if !k.typeFits ((fmtOfCode o.fmt).getD .f32) ∨ o.rows < rows then engFail s 8
  else s.streamOn n k p (actsOfOpnd o rows) 0 before tile k.loc after

/-- The exchange of the planes, with their bits (R387). -/
def CoreSt.swapPlanes (c : CoreSt) : CoreSt := c.modTile fun t => { t with active := t.shadow, shadow := t.active }
def CoreSt.loadPlane (c : CoreSt) (p : Plane) : CoreSt := c.modTile fun t => { t with shadow := p }

/-- MMAC and MMACH: the weights are loaded and the planes exchanged before the stream, also where the stream fails (R193). -/
def State.runMmac (s : State) (n : Nat) (k : Cmd) (tile : Option Nat) : EngRes :=
  let w := k.opnds.getD 0 {}
  let a := k.opnds.getD 1 {}
  if k.pre ≠ 0 then engFail s k.pre
  else if w.det ≠ 0 then engFail s w.det w.sub
  else
    let p := planeOfOpnd w
    let load (c : CoreSt) : CoreSt := (c.charge { nan := w.escapes }).loadPlane p |>.swapPlanes
    let r := s.streamHandle n k p a a.rows ((w.bytes + 511) / 512) tile load
    if r.det ≠ 0 ∧ a.det = 0 then { r with s := r.s.modCore n load } else r

/-- MLOADW and MLOADWH. -/
def State.runMload (s : State) (n : Nat) (k : Cmd) : EngRes :=
  if k.pre ≠ 0 then engFail s k.pre
  else if k.opc = 0x281 then
    let o := k.opnds.getD 0 {}
    if o.det ≠ 0 then engFail s o.det o.sub
    else if !k.typeFits ((fmtOfCode o.fmt).getD .f32) then engFail s 8
    else { s := s.modCore n fun c => (c.charge { nan := o.escapes }).loadPlane (planeOfOpnd o), lo := (o.bytes + 511) / 512 }
  else match k.fmt with
    | none => engFail s 8
    | some m =>
      let size := weightBytes m
      if Config.sizeA < k.loc + size then engFail s 2
      else
        let g := s.padRead n 0 k.loc size
        match g.fail with
        | some (d, u) => engFail s d u
        | none =>
          let es := imageElems m 4096 g.bytes
          { s := s.modCore n fun c => (c.charge { nan := escapesOf es }).loadPlane (planeOf m true 64 64 (es.map (·.val))), lo := (size + 511) / 512 }

/-! The epilogue (R195). -/

/-- The value of an accumulator after scale, bias and function. -/
def epiVal (hdr : Nat) (lo hi scale bias x : FVal) : FVal :=
  let x := if nbits hdr 4 1 = 1 then Sem.mul x scale else x
  let x := if nbits hdr 5 1 = 1 then Sem.add false x bias else x
  if Sem.isNaN x then .nan
  else match hdr % 4 with
    | 1 => maxV x (.fin false 0 0)
    | 2 => minV (maxV x lo) hi
    | _ => x

/-- MEPI. -/
def State.runMepi (s : State) (n : Nat) (k : Cmd) : EngRes :=
  let c := s.coreAt n
  let t := c.reg k.tile
  let c0 := k.far % 2 ^ 20
  if k.pre ≠ 0 then engFail s k.pre
  else if t.blank || !k.typeFits t.format || t.space ≠ 3 then engFail s 8
  else if Config.sizeC < c0 + 256 * (t.nrows - 1) + 4 * t.ncols ∨ Config.sizeA < k.loc + 528 then engFail s 2
  else if k.loc % 16 ≠ 0 then engFail s 5
  else
    let g := s.padRead n 1 k.loc 528
    match g.fail, (s.padRead n 2 c0 (256 * (t.nrows - 1) + 4 * t.ncols)).fail with
    | some (d, u), _ => engFail s d u
    | _, some (d, u) => engFail s d u
    | none, none =>
      let w (o : Nat) : Nat := leNat ((g.bytes.drop o).take 4)
      let f (o : Nat) : FVal := decodeFloat .f32 (w o)
      let hdr := w 0
      let lo := f 4
      let hi := f 8
      let clamp := hdr % 4 = 2
      if hdr / 64 ≠ 0 ∨ nbits hdr 2 2 ≠ 0 ∨ w 12 ≠ 0 ∨ hdr % 4 = 3 then engFail s 11
      else if clamp ∧ (Sem.isNaN lo = true ∨ Sem.isNaN hi = true ∨ Sem.lt hi lo = true) then engFail s 11
      else
        let accs := readAccs c.tile.bufC c0 t.nrows t.ncols
        let xs := accs.flatMap fun row => ((List.range row.length).zip row).map fun (j, x) =>
          epiVal hdr lo hi (f (16 + 4 * j)) (f (272 + 4 * j)) (decodeFloat .f32 x)
        let md := BitVec.ofNat 4 k.md
        let r := rndOf md
        let m := t.format
        let (o, d) := if m.isBlock then classifyBlocks t r xs c.draw
          else
            let (es, d) := xs.foldl (fun (acc : List Elem × Draw) x => let (p, d) := roundTo m r x acc.2; (acc.1 ++ [elemOf m p], d)) ([], c.draw)
            (classifyElems t es, d)
        (s.modCore n fun _ => c.drawn d).tileLands n k.tile o { s := s, lo := 3 + t.nrows + 4 }

/-! Accumulator moves (R196). -/

def State.runAcc (s : State) (n : Nat) (k : Cmd) : EngRes :=
  let c := s.coreAt n
  let cnt := k.aux + 1
  let c0 := if k.opc = 0x289 then k.loc else k.far % 2 ^ 20
  if k.pre ≠ 0 then engFail s k.pre
  else if k.opc = 0x28B then
    match k.fmt with
    | none => engFail s 8
    | some m =>
      let w := m.width
      let dn := 8 * w * cnt
      let sn := 256 * cnt
      if Config.sizeC < c0 + dn ∨ Config.sizeC < k.loc + sn then engFail s 2
      else if c0 < k.loc + sn ∧ k.loc < c0 + dn ∧ ¬(c0 = k.loc ∧ dn = sn) then engFail s 16
      else
        let g := s.padRead n 2 k.loc sn
        match g.fail with
        | some (d, u) => engFail s d u
        | none =>
          let r := rndOf (BitVec.ofNat 4 k.md)
          let (out, d) := (List.range (64 * cnt)).foldl (fun (acc : List Byte × Draw) i =>
            let (p, d) := roundF m r (decodeFloat .f32 (leNat ((g.bytes.drop (4 * i)).take 4))) acc.2
            (acc.1 ++ leBytes (w / 8) p, d)) ([], c.draw)
          { s := s.modCore n fun _ => c.drawn d, lands := padLands n 2 (spanAt c0 out), lo := cnt + 4 }
  else if Config.sizeC < c0 + 256 * cnt then engFail s 2
  else if k.opc = 0x289 then { s := s, lands := padLands n 2 (spanAt c0 (List.replicate (256 * cnt) 0)), lo := cnt + 4 }
  else if Config.sizeA < k.loc + 256 * cnt then engFail s 2
  else
    let g := s.padRead n 1 k.loc (256 * cnt)
    match g.fail with
    | some (d, u) => engFail s d u
    | none => { s := s, lands := padLands n 2 (spanAt c0 g.bytes), lo := cnt + 4 }

/-! Every command. -/

/-- What a command does, from the state it reads. -/
def State.runCmd (s : State) (n : Nat) (k : Cmd) : EngRes :=
  let c := s.coreAt n
  if k.folErr then engFail s 14
  else if k.spoiled || (k.namesTile k.tile && (c.reg k.tile).entry.spoiled && !k.writesTile) then engFail s 10 2
  else match k.opc with
    | 0x208 => s.runTld n k
    | 0x209 => s.runTlda n k
    | 0x20A => s.runTst n k
    | 0x20B => s.runTsta n k
    | 0x280 => s.runMload n k
    | 0x281 => s.runMload n k
    | 0x282 => { s := s.modCore n fun _ => c.swapPlanes, lo := 1 }
    | 0x283 => s.runMstream n k
    | 0x284 => if k.pre ≠ 0 then engFail s k.pre else s.streamHandle n k c.tile.active (k.opnds.getD 0 {}) (k.aux + 1) 0 none id
    | 0x285 => s.runMmac n k none
    | 0x286 => s.runMmac n k (some k.tile)
    | 0x287 => s.runMepi n k
    | 0x288 => { s := s }
    | 0x2C0 => s.runCopy n k
    | 0x2C1 => s.runCopy n k
    | 0x2C2 => s.runGather n k
    | 0x2C3 => s.runGather n k
    | _ => s.runAcc n k

end Sys2Proof.Machine
end

