-- ==== Sys2Proof/Machine/Engines.lean ====
section
/-! DEFINITION. The life of an engine command: its begin with pops, fetches and power, what lands while it runs, its completion
with pushes, identifiers, records and follow-on (13 R221 to R226, R236, 17 R315, 18 R323, 24 R387 to R391). -/

namespace Sys2Proof.Machine

open Sys2Proof Decode

/-- The units a matrix command draws (R314, R315). -/
def CoreSt.unitsOf (c : CoreSt) (k : Cmd) : Nat := 2 + ((if k.handles.isEmpty then c.eng.telast else k.te) + 63) / 64

/-- R225: a command that waits has waited longer than its watchdog allows. -/
def waitedOut (cyc : Nat) (k : Cmd) (wmax : Nat) : Bool := !k.stalled && decide (64 * wmax ≤ cyc - k.wait.getD cyc)

/-- A command waits in a state, and is tried again in the next cyc. -/
def State.waitCmd (s : State) (n : Nat) (k : Cmd) (st : CmdState) (fifo kind wmax : Nat) (op : Instr) : State :=
  let k' := { k with st := st, wait := some (k.wait.getD s.cyc) }
  let s := s.modCmd n k.uid fun _ => k'
  let s := if waitedOut s.cyc k' wmax then s.schedule 0 .stall { n0 := n, n1 := k.uid, n2 := 4 * fifo + kind } else s
  s.schedule 1 op { n0 := n, n1 := k.uid }

/-- R237, R376: READ packets for the remote bytes of a command. -/
def State.sendReads (s : State) (n : Nat) (k : Cmd) (ps : List PagePiece) : State :=
  let t := (s.coreAt n).task
  let ord := pathOrdered t k.path
  let s := ps.foldl (fun (s : State) p =>
    let items := s.readItems (dieOf n) p.place ord p.va p.len (.cmd n k.uid)
    match s.flowSend t.ctx (dieOf n) p.node ord items with
    | some s => s.modCmd n k.uid fun k => { k with packets := k.packets + items.length }
    | none => s) s
  s.modCmd n k.uid fun k => { k with st := .fetching }

/-- R390, R391: an uncorrectable error consumed by a command calls for a rollback while a phase is open, unless the command
was released from an earlier phase. -/
def CoreSt.rollsBack (c : CoreSt) (k : Cmd) (det : Nat) : Bool := det == 10 && c.ph.en && !(k.q == 2 && !k.held)

/-- The words of buffers that landings write, as (core, buffer, word). -/
def padWords (ls : List Landing) : List (Nat × Nat × Nat) :=
  ls.flatMap fun l => match l with
    | .pad c b bs => (bs.map fun p => (c, b, p.1 / 32)).eraseDups
    | .mem _ _ => []
/-- R211: the words that a command will write are pending from its begin, under PEND of the core that holds them. -/
def State.pendLands (s : State) (ls : List Landing) : State :=
  (padWords ls).foldl (fun (s : State) w => s.modCore w.1 fun x => x.pend w.2.1 (32 * w.2.2) 1) s
/-- A command reads beside its own pending words. -/
def State.unpend (s : State) (ws : List (Nat × Nat × Nat)) : State :=
  ws.foldl (fun (s : State) w => s.modCore w.1 fun x => x.modTile fun t => { t with pending := t.pending.filter fun p => p != w.2 }) s

/-- Bytes of a geometry descriptor, read when the command begins (R232), and the failure of the read (R211, R384). -/
def State.takeDesc (s : State) (n : Nat) (k : Cmd) : Cmd :=
  let len := if k.opc = 0x2C0 then 112 else if k.opc = 0x2C1 then 48 else 0
  if len = 0 ∨ !k.desc.isEmpty then k
  else { k with desc := Mem.readN (s.coreAt n).tile.bufA (k.aux * 256) len, descDet := ((s.padRead n 1 (k.aux * 256) len).fail.map (·.1)).getD 0 }

/-- R197: the fill of an MDRAIN. R236: bound to a copy that has failed it does nothing, and its register stays empty (log 128). -/
def State.drainFill (s : State) (n : Nat) (k : Cmd) (failed : Bool) : State :=
  match k.fill, failed with
  | none, _ => s
  | some f, true => s.modCore n fun c => c.modQ fun q => { q with fills := q.fills.filter fun x => x.uid != f }
  | some f, false =>
    let e := (s.coreAt n).eng
    let v : Word := BitVec.ofNat 64 ((if e.mxErr then 2 ^ 63 else 0) + e.mxDone % 2 ^ 32)
    let s := s.modCore n fun c => (c.modEng fun e => { e with mxDone := 0, mxErr := false }).modQ fun q => { q with
      fills := q.fills.map fun (x : Fill) => if x.uid = f then { x with src := .value (.word v) } else x }
    s.schedule 1 .longLatencyFill { n0 := n, n1 := f }

/-- R232: an earlier window or multicast store of the thread to its own A-buffer has not landed: the descriptor is not read yet. -/
def State.descWaits (s : State) (n : Nat) (k : Cmd) : Bool :=
  (k.opc == 0x2C0 || k.opc == 0x2C1) && k.desc.isEmpty && s.mem.flying.any fun f => f.core == n && decide (f.uid < k.uid) &&
    (match f.what with
    | .window b c _ => b == 1 && c == n
    | .multicast mask _ => mask.getLsbD (coreInCluster n)
    | _ => false)
/-- R206, R401: the class of a command's accesses to the banks. -/
def Cmd.bankClass (k : Cmd) : Nat := if k.q = 1 then 2 else if k.q = 2 then 3 else if k.opc = 0x2C2 ∨ k.opc = 0x2C3 then 5 else 4
/-- The tensors whose entries a command has read (R154): those of its handle and of the pages it accesses. -/
def EngRes.tensors (r : EngRes) (k : Cmd) : List Nat :=
  (if k.opc = 0x208 ∨ k.opc = 0x20A then [(handleOf k.far).tid] else []) ++ r.tids ++
    r.lands.filterMap fun l => match l with | .mem p _ => if pteTm p.pte then some (pteTid p.pte) else none | _ => none
/-- The bytes of a command that have left for another module and are not acknowledged: first address and length. -/
def State.unacked (s : State) (n u : Nat) : List (Nat × Nat) :=
  s.fab.srcs.flatMap fun x => ((x.unacked ++ x.queue).filter fun it => it.use == .cmd n u && it.p.kind == kWRITE).map fun it => (it.va, it.p.payload.length)
/-- R227, R420: the elements of a command that have landed whole, in order, on another module those that FACKs cover, beside those before a
checkpoint. -/
def State.elemsDone (s : State) (n : Nat) (k : Cmd) (kept : List Landing) : Nat :=
  let left := kept.flatMap Landing.addrs
  let gone := s.unacked n k.uid
  (k.elems.takeWhile fun e => !(left.any fun a => a.1 == e.1 && a.2.1 == e.2.1 && decide (e.2.2.1 ≤ a.2.2 ∧ a.2.2 < e.2.2.1 + e.2.2.2)) &&
    !(e.1 == 4096 && gone.any fun g => decide (g.1 < e.2.2.1 + e.2.2.2 ∧ e.2.2.1 < g.1 + g.2))).length + k.resumed
/-- R227: the position of a command with its elements done so far. -/
def State.noteElems (s : State) (n u : Nat) : State :=
  match (s.coreAt n).cmdOf u with
  | none => s
  | some k => if k.elems.isEmpty then s else s.modCmd n u fun x => { x with progress := max x.progress (s.elemsDone n k k.lands) }

/-! A checkpoint stops a command at the end of an element (R245). -/

/-- An element has a byte that has still to land. -/
def touches (ls : List Landing) (e : Nat × Nat × Nat × Nat) : Bool :=
  (ls.flatMap Landing.addrs).any fun a => a.1 == e.1 && a.2.1 == e.2.1 && decide (e.2.2.1 ≤ a.2.2 ∧ a.2.2 < e.2.2.1 + e.2.2.2)
/-- Every byte of an element has still to land. -/
def untouched (ls : List Landing) (e : Nat × Nat × Nat × Nat) : Bool :=
  let as := ls.flatMap Landing.addrs
  (List.range e.2.2.2).all fun i => as.contains (e.1, e.2.1, e.2.2.1 + i)
/-- The elements that have begun: every one up to the last of which a byte has landed. -/
def Cmd.begun (k : Cmd) : List (Nat × Nat × Nat × Nat) := (k.elems.reverse.dropWhile (untouched k.lands)).reverse
/-- What has still to land before the command stands at the end of an element. -/
def Cmd.current (k : Cmd) : List Landing := k.lands.filter fun l => k.begun.any fun e => touches [l] e
/-- A copy or gather that has begun to move. -/
def Cmd.underWay (k : Cmd) : Bool := k.early && !k.elems.isEmpty && (k.st == .moving || k.st == .completing)
/-- A command as a checkpoint saves it: a copy or gather goes on at its next element, with what a lane before it failed by. -/
def Cmd.left (k : Cmd) : Cmd :=
  if k.elems.isEmpty ∨ k.q = 1 ∨ ¬(k.st = .moving ∨ k.st = .completing) then k
  else
    let gather := k.opc == 0x2C2 || k.opc == 0x2C3
    { k with st := .fetching, early := false, lands := [], elems := [], got := [], failed := [], pends := [], walks := none,
             resumed := k.progress, det := if gather && k.early then k.det else 0, sub := if gather && k.early then k.sub else 0 }

/-- R191: while a stream runs from the active plane, the weight load behind it runs into the shadow plane, and a stream behind a
running load starts. -/
def CoreSt.overlaps (c : CoreSt) (u : Nat) : Bool :=
  match c.queue 1 0 with
  | a :: b :: _ =>
    let load (k : Cmd) : Bool := k.opc == 0x280 || k.opc == 0x281
    let stream (k : Cmd) : Bool := k.opc == 0x283 || k.opc == 0x284
    b.uid == u && a.st == .moving && ((load a && stream b) || (stream a && load b))
  | _ => false

/-- R210: the buffers as a command reads them that has been under way since the mark `m`: each word as it stood at a time of its own, before
the replacements that a pick names. -/
def TileSt.readAt (t : TileSt) (m : Nat) (pick : Nat → Nat) : TileSt :=
  let past := t.past.drop m
  let words := (past.map fun x => (x.1, x.2.1 / 32)).eraseDups
  words.zipIdx.foldl (fun (u : TileSt) (w, i) =>
    let mine := past.filter fun x => x.1 == w.1 && x.2.1 / 32 == w.2
    let later := mine.drop (pick i % (mine.length + 1))
    u.setBuf w.1 (Mem.writeAll (u.buf w.1) (later.reverse.map fun x => (x.2.1, x.2.2)))) t
/-- R210: the effect of a command as it completes. FREE VALUE: when it has read each word that has been replaced since it began. -/
def State.runLate (s : State) (n : Nat) (k : Cmd) : EngRes :=
  let t := (s.coreAt n).tile
  if (t.past.drop k.mark).isEmpty then s.runCmd n k
  else
    let f := s.fresh
    let s := { s with fresh := f + (t.past.drop k.mark).length }
    let r := (s.modCore n fun c => c.modTile fun t => t.readAt k.mark fun i => Config.freeDelay (f + i)).runCmd n k
    { r with s := r.s.modCore n fun c => c.modTile fun x => { x with bufW := t.bufW, bufA := t.bufA, bufC := t.bufC } }

/-- A command with its pops, operands and power begins (R222, R210). Cyc lost at the banks delay what it moves (R196, R206, log 43). -/
def State.startCmd (s : State) (n : Nat) (k : Cmd) : State :=
  let k := s.takeDesc n k
  let s := s.modCmd n k.uid fun _ => k
  let (early, s) := s.freeBool
  let (extra, s) := s.freeFrom 0
  let (bank, s) := s.freeCyc 0 31
  let c := s.coreAt n
  let who : Nat × Nat := (n, 16 + k.uid)
  let handle := k.opc == 0x208 || k.opc == 0x20A
  let ws := (if handle then s.handleWants c (s.farAnswered who 0) 2 k.far else []) ++
    (if k.opc = 0x20A ∨ k.opc = 0x20B then s.repWants c (s.farAnswered who 0) (c.reg k.tile).entry else [])
  let r := s.runCmd n k
  let ws := ws ++ r.pages.flatMap fun va => match s.placeVa c.task (dieOf n) va .read with
    | .ok p => if pteTm p.pte then s.tensorWants c (pteTid p.pte) else []
    | .error _ => []
  let r := if s.farBad who 0 ws then engFail s 15 else r
  let pages := r.pages ++ if handle then s.handlePages c k.far else []
  match s.pagesFor n k.walks pages with
  | some (left, s) => (s.modCmd n k.uid fun k => { k with st := .fetching, walks := some left }).schedule 1 .engineCommandBegin { n0 := n, n1 := k.uid }
  | none =>
  if !s.farAnswered who 0 ws then
    ((s.modCmd n k.uid fun k => { k with st := .fetching }).askFar who 0 c.task.ctx (dieOf n) (pathOrdered c.task k.path) ws).schedule 1
      .engineCommandBegin { n0 := n, n1 := k.uid }
  else if !r.need.isEmpty then s.sendReads n k r.need
  else if (s.coreAt n).rollsBack k r.det then s.consumeError n (if r.sub = 0 then 3 else r.sub)
  else
    let s := (if early then r.s else s).farDone who
    let s := if k.opc = 0x288 then s.drainFill n k (decide (r.det ≠ 0)) else s
    let s := (r.tensors k).foldl (fun (s : State) x => s.keepTensor n x) (s.pendLands r.lands)
    let moves := !r.lands.isEmpty || k.opc == 0x280 || k.opc == 0x283 || k.q == 2
    let (lost, s) := if moves then s.lostCyc n k.bankClass bank none else (0, s)
    let stream := if r.rate = 0 then 0 else (r.rows * 4096 + r.rate - 1) / r.rate
    let kept := if (s.coreAt n).eng.reading then (s.coreAt n).tile.past else []
    let s := s.modCore n fun c => c.modTile fun t => { t with past := kept }
    let s := s.modCmd n k.uid fun k => { k with
      mark := kept.length, st := .moving, early := early, start := s.cyc + 1 + (r.lo - stream), rows := r.rows, rate := r.rate, wait := none, stalled := false,
      te := if r.te = 0 then k.te else r.te, det := if k.det ≠ 0 then k.det else r.det, sub := if k.det ≠ 0 then k.sub else r.sub,
      elems := r.elems, pends := padWords r.lands, walks := none }
    let (s, kept) := if early then State.landSome false n k r.lands [] s else (s, [])
    let s := s.modCmd n k.uid fun k => { k with lands := kept }
    let s := if early then s.noteElems n k.uid else s
    let s := if kept.isEmpty then s else s.scheduleFrom 1 .engineCommandBegin { n0 := n, n1 := k.uid }
    let s := match (s.coreAt n).queue 1 0 with
      | _ :: b :: _ => if (s.coreAt n).overlaps b.uid then s.schedule 0 .engineCommandBegin { n0 := n, n1 := b.uid } else s
      | _ => s
    s.schedule (1 + r.lo + lost + (if r.more then extra else 0)) .engineCommandComplete { n0 := n, n1 := k.uid }

/-- R224: a pop is applied before a push of the same cyc: the commands that wait to push into the FIFOs are tried again. -/
def State.roomFor (s : State) (n : Nat) (is : List Nat) : State :=
  let waiting := (s.coreAt n).eng.cmds.filter fun x => x.st == .pushWait && x.pushes.any fun i => is.contains i
  waiting.foldl (fun (s : State) x => s.schedule 0 .engineCommandComplete { n0 := n, n1 := x.uid }) s

/-- The head of a channel is tried: compare, follow-on, pops, fetch, power (R221, R224, R236, R237, R315). -/
def State.tryBegin (s : State) (n : Nat) (k : Cmd) : State :=
  let c := s.coreAt n
  let k := if k.popped then k else
    if k.pops.all fun i => decide (1 ≤ c.eng.poppable i s.cyc) then { k with popped := true } else k
  if !k.popped then
    s.waitCmd n k .popWait ((k.pops.find? fun i => c.eng.poppable i s.cyc == 0).getD 0) 1 k.wmax .engineCommandBegin
  else
    let s := if (c.cmdOf k.uid).any Cmd.popped then s
      else (s.modCore n fun c => c.modEng fun e => k.pops.foldl (fun (e : EngSt) i => e.setFifo i (e.fifo i - 1)) e).roomFor n k.pops
    let k := { k with st := .fetching, wait := none, stalled := false }
    let s := s.modCmd n k.uid fun _ => k
    if !k.handles.isEmpty && !k.fetched then s
    else if s.descWaits n k then s.schedule 1 .engineCommandBegin { n0 := n, n1 := k.uid }
    else if 0 < k.packets then s
    else if k.q ≠ 1 || k.powered || s.ttCore n then s.startCmd n k
    else if s.sched.draws.any fun w => w.1 == n && w.2.1 == k.uid then
      let k := { k with powered := true }
      (s.modCmd n k.uid fun _ => k).startCmd n k
    else s.askPower n k.uid (c.unitsOf k)

/-- A command is tried, or goes on moving its bytes. -/
def State.engineStep (s : State) (n u : Nat) : State :=
  let c := s.coreAt n
  match c.cmdOf u with
  | none => s
  | some k =>
    match k.st with
    | .moving =>
      if !k.early then s
      else
        let now := if c.eng.halt && k.underWay then k.current else k.lands
        let (s, kept) := State.landSome c.eng.halt n k now [] s
        let s := (s.modCmd n u fun k => { k with lands := kept ++ k.lands.filter fun l => !now.contains l }).noteElems n u
        if kept.isEmpty && (now.length == k.lands.length || c.eng.halt) then s else s.scheduleFrom 1 .engineCommandBegin { n0 := n, n1 := u }
    | .pushWait => s
    | .completing => s
    | _ =>
      if c.eng.halt || !k.compared || k.held || (((c.headOf k.q k.ch).map Cmd.uid) ≠ some u && !c.overlaps u) || k.fol.isSome then s else s.tryBegin n k

/-- ENGINE_COMMAND_BEGIN (R221). -/
def execEngineCommandBegin (s : State) : Out := .next (s.engineStep s.ev.n0 s.ev.n1)

/-- R222, R229, R243, R323: the transfer registers and event records of a completion; an entry of Record that is run again
takes no identifier and posts nothing (R390). -/
def EngSt.recordEnd (e : EngSt) (k : Cmd) : EngSt :=
  let err := decide (k.det ≠ 0)
  if k.rerun then e
  else if k.chain then (if k.posts then e.post (eventWord err (if k.q = 0 then 2 else 3) k.ch k.det k.seqNo) else e)
  else if k.q = 1 then
    if k.opc = 0x288 ∧ k.det = 0 then e
    else
      let e := { e with mxDone := e.mxDone + 1, mxErr := e.mxErr || err }
      if err then e.post (eventWord true 4 0 k.det (BitVec.ofNat 32 e.mxDone)) else e
  else
    let e := { e with
      xdone := vput e.xdone k.chan (k.xid + 1),
      xerr := if err then vput e.xerr k.chan (xerrNext (vat e.xerr k.chan) k.det k.xid) else e.xerr }
    if k.posts then e.post (eventWord err (if k.q = 0 then 0 else 1) k.ch k.det k.xid) else e

/-- A completion: the command leaves its slot, a follow-on is released (R236), and the phase keeps what it needs (R389, R390). R402: it is
counted. -/
def CoreSt.completed (c : CoreSt) (k : Cmd) : CoreSt :=
  let err := decide (k.det ≠ 0)
  let e := c.eng
  let free (y : Cmd) : Cmd := if y.fol = some k.uid then { y with fol := none, folErr := err } else y
  let e : EngSt := { e with cmds := (e.cmds.filter fun (x : Cmd) => x.uid != k.uid).map free,
                            folEnd := if (e.fol.map (·.1)) = some k.uid then some err else e.folEnd }
  let e := if k.q = 0 then { e with telast := k.te } else e
  let e := if k.q = 2 then { e with unseen := e.unseen ++ [(k.uid, k.chain, k.ch, if k.chain then k.seqNo else k.xid)] } else e
  let e' := e.recordEnd k
  let news := e'.events.drop e.events.length
  let c := { c with eng := e' }.count 4
  if c.ph.en && k.q != 2 && !k.chain then
    c.modPh fun p => { p with
      copies := if k.q = 0 ∧ !k.rerun ∧ (k.opc = 0x2C0 ∨ k.opc = 0x2C1) then p.copies ++ [k] else p.copies,
      gathered := p.gathered || k.opc == 0x2C2 || k.opc == 0x2C3,
      posted := p.posted ++ news }
  else c

/-- R390: issue goes on once the copies that a rollback runs again have ended. -/
def CoreSt.rerunEnds (c : CoreSt) (cyc : Nat) : CoreSt :=
  if c.q.rerun && !(c.eng.cmds.any fun k => k.rerun) then c.modQ fun q => { q with rerun := false, nextIssue := max q.nextIssue (cyc + 1) } else c

/-- The end of a command: what it records, its draw, the commands that waited for it. -/
def State.finishCmd (s : State) (n : Nat) (k : Cmd) : State :=
  let waiters := ((s.coreAt n).eng.cmds.filter fun x => x.fol == some k.uid).map Cmd.uid
  let s := (s.modCore n fun c => (c.completed k).rerunEnds s.cyc).endDraw n k.uid
  let s := if k.det = 10 then s.countUe (dieOf n) else s
  let s := waiters.foldl (fun (s : State) u => s.schedule 0 .engineCommandBegin { n0 := n, n1 := u }) s
  let s := if k.chain then s.schedule 0 .chainEntryDone { n0 := n, n1 := k.q / 2, n2 := if k.det = 0 then 0 else 1 } else s
  s.kick n k.q k.ch

/-- R224: the pushes, as the last step of a completion; a full FIFO makes them wait. -/
def State.pushCmd (s : State) (n : Nat) (k : Cmd) : State :=
  let e := (s.coreAt n).eng
  match k.pushes.find? fun i => decide (8 ≤ e.fifo i) with
  | some i => s.waitCmd n k .pushWait i 2 (if k.wmax = 0 then 65535 else k.wmax) .engineCommandComplete
  | none =>
    let s := s.modCore n fun c =>
      let c := c.modEng fun e => k.pushes.foldl (fun (e : EngSt) i => e.push i s.cyc) e
      if c.ph.en && k.q == 2 && !k.pushes.isEmpty then c.modPh fun p => { p with snap := p.snap.map fun x => { x with pushSm := x.pushSm + 1 } } else c
    s.finishCmd n k

/-- Everything that has still to land lands, and the pushes follow once nothing is outstanding. -/
def State.landAll (s : State) (n u : Nat) : State :=
  match (s.coreAt n).cmdOf u with
  | none => s
  | some k =>
    let (s, kept) := State.landSome true n k k.lands [] s
    let s := (s.modCmd n u fun k => { k with lands := kept, st := .completing }).noteElems n u
    match (s.coreAt n).cmdOf u with
    | none => s
    | some k =>
      if !kept.isEmpty || 0 < k.packets then s.schedule 1 .engineCommandComplete { n0 := n, n1 := u } else s.pushCmd n k

/-- What remains of a command at its end: its effect, if it is still to come, and every byte. -/
def State.completeCmd (s : State) (n u : Nat) : State :=
  match (s.coreAt n).cmdOf u with
  | none => s
  | some k =>
    let again (s : State) : State := s.schedule 1 .engineCommandComplete { n0 := n, n1 := u }
    if k.st = .pushWait then s.pushCmd n k
    else if (s.coreAt n).eng.halt && k.q ≠ 1 then s
    else if 0 < k.packets then again (s.modCmd n u fun k => { k with st := .completing })
    else if !k.early then
      let s := s.unpend k.pends
      let r := s.runLate n k
      if !r.need.isEmpty then again (s.sendReads n k r.need)
      else if (s.coreAt n).rollsBack k r.det then s.consumeError n (if r.sub = 0 then 3 else r.sub)
      else
        (r.s.modCmd n u fun k => { k with
          early := true, lands := r.lands, elems := r.elems, det := if k.det ≠ 0 then k.det else r.det, sub := if k.det ≠ 0 then k.sub else r.sub,
          te := if r.te = 0 then k.te else r.te }).landAll n u
    else s.landAll n u

/-- ENGINE_COMMAND_COMPLETE (R222). -/
def execEngineCommandComplete (s : State) : Out := .next (s.completeCmd s.ev.n0 s.ev.n1)

end Sys2Proof.Machine
end

