-- ==== Sys2Proof/Machine/EngineIssue.lean ====
section
/-! DEFINITION. Issuing the engine instructions (05 R89, R91, R92, 07 R148, R149, 09 R181, R192, 13 R231, R235): their shapes, holds
and the commands they place. -/

namespace Sys2Proof.Machine

open Sys2Proof Decode

/-! Shapes. -/

/-- R89: WMAX and TOK of class ENG. -/
def engWmax (f : Fields) : Nat := immBits f 8 16
def engTok (f : Fields) : Nat := immBits f 4 4
/-- R91: token bits of a queue, and a WMAX with a pop bit only. -/
def tokOk (q : Nat) (f : Fields) : Bool :=
  let t := BitVec.ofNat 4 (engTok f)
  let wrong := if q = 0 then t.getLsbD 3 || t.getLsbD 1 else if q = 2 then t.getLsbD 2 || t.getLsbD 0 else false
  !wrong && (t.getLsbD 3 || t.getLsbD 2) == decide (engWmax f ≠ 0)
def low4 (f : Fields) : Nat := immBits f 0 4
def engPlain (q : Nat) (f : Fields) : Shape :=
  { tyOk := decide (f.ty = 0), mdOk := decide (f.md = 0), immOk := decide (low4 f = 0), tokOk := tokOk q f }

def shTld (f : Fields) : Shape := { engPlain 0 f with dst := .s, emp := .long, sa := .s, tyOk := decide (f.ty ≠ 7), immOk := true }
def shTst (f : Fields) : Shape := { engPlain 2 f with dst := .s, emp := .long, sa := .t, sb := .s, tyOk := decide (f.ty ≠ 7) }
/-- R192: column B without I8; `zero` says whether 0x0 is accepted. -/
def matTy (zero : Bool) (f : Fields) : Bool := decide (f.ty ≠ 7 ∧ f.ty ≠ 8) && (zero || decide (f.ty ≠ 0))
def matActTy (zero : Bool) (f : Fields) : Bool := matTy zero f && decide (f.ty ≠ 6)
def shMloadw (f : Fields) : Shape := { engPlain 1 f with sa := .s, tyOk := matTy false f }
def shMloadwh (f : Fields) : Shape := { engPlain 1 f with sa := .s, tyOk := matTy true f }
def shMstream (zero : Bool) (f : Fields) : Shape :=
  { engPlain 1 f with sa := .s, sb := .s, sc := .imm, tyOk := matActTy zero f, mdOk := decide (f.md.toNat ≤ 1), immOk := true }
def shMmac (f : Fields) : Shape := { engPlain 1 f with sa := .s, sb := .s, sc := .s, tyOk := matActTy true f, mdOk := decide (f.md.toNat ≤ 1) }
def shMmach (f : Fields) : Shape := { shMmac f with sa := .unused, immOk := true }
def shMepi (f : Fields) : Shape := { engPlain 1 f with sa := .s, sb := .s, tyOk := matTy true f, mdOk := mdRounds f.md, immOk := true }
def shMdrain (f : Fields) : Shape := { engPlain 1 f with dst := .s, emp := .must }
def shMzacc (f : Fields) : Shape := { engPlain 1 f with sa := .s, sc := .s }
def shMaccld (f : Fields) : Shape := { shMzacc f with sb := .s }
def shMaccst (f : Fields) : Shape := { shMaccld f with tyOk := fltTy f.ty, mdOk := mdRounds f.md }

/-- R92: the spaces of a CPY. -/
def cpySpd (f : Fields) : Nat := f.ty.toNat % 8
def cpySps (f : Fields) : Nat := f.md.toNat % 8
def cpyQueue (f : Fields) : Nat := if 1 ≤ cpySpd f ∧ cpySpd f ≤ 3 then 0 else 2
/-- R91: the instruction after a CPY.FOL: of the matrix group, in the same line, without pop:LD; and the CPY ends no loop body. -/
def folFits (q : SeqSt) : Bool :=
  let next := q.line.nextPc q.pc
  let w := (q.line.slot (pcSlot next)).toNat
  let opc := w % 1024
  decide (pcLine next = pcLine q.pc) && decide (0x280 ≤ opc ∧ opc ≤ 0x28B) && decide (w % 256 < 0xE0)
    && !(q.line.slot (pcSlot next + 1)).getLsbD 23 && (q.endingAt q.pc).isEmpty
def shCpy (q : SeqSt) : Shape :=
  let f := q.ir
  { dst := .s, emp := .long, sa := .s, sb := .s, sc := .s,
    tyOk := decide (f.ty.toNat < 8) && !(decide (4 ≤ cpySpd f ∧ cpySpd f ≤ 6)) && !(decide (cpySpd f = 0 ∧ cpySps f = 0)),
    mdOk := decide (cpySps f ≤ 3), immOk := decide (immBits f 2 1 = 0), tokOk := tokOk (cpyQueue f) f,
    folOk := !f.md.getLsbD 3 || (decide (cpyQueue f = 0) && folFits q) }
def shGather (bounded : Bool) (f : Fields) : Shape :=
  { dst := .s, emp := .long, sa := .s, sb := .s, sc := .v, tyOk := decide (f.ty = 0),
    mdOk := decide (f.md.toNat % 8 = 1 ∨ f.md.toNat % 8 = 2) && (bounded || !f.md.getLsbD 3),
    immOk := decide (immBits f 2 1 = 0), tokOk := tokOk 0 f }

/-! Placing. -/

/-- R220, R176: the hold of a full queue, and of the tile register a command reads or writes. -/
def queueHold (q : Nat) (ch : State → Nat) (tile : State → Option (Nat × Bool)) (s : State) : Option State :=
  if s.core.queueFull q (ch s) || (match tile s with | some (n, w) => s.core.tileBusy s.cyc n w | none => false) then some s else none
def chan0 (_ : State) : Nat := 0
def noTile (_ : State) : Option (Nat × Bool) := none
def immTile (s : State) : Option (Nat × Bool) := some (low4 s.core.q.ir, true)

/-- The failure of register values fixed at issue: the first that does not hold (R92, R231). -/
def firstDet (l : List (Bool × Nat)) : Nat := ((l.find? fun p => p.1).map (·.2)).getD 0
def tooLoc (w : Word) : Bool := decide (786431 < w.toNat)
def tooFar20 (w : Word) : Bool := decide (2 ^ 20 - 1 < w.toNat)
def tooG (w : Word) : Bool := decide (2 ^ 51 ≤ w.toNat)

/-- A command of an instruction that issues now. -/
def State.cmd (s : State) (q ch opc spd sps loc aux far : Nat) : Cmd :=
  let f := s.core.q.ir
  { uid := 0, q := q, ch := ch, wmax := engWmax f, b := s.srcB, c := s.srcC, fast := s.core.tile.fast,
    raw := cmdWord opc f.md.toNat f.ty.toNat (engTok f) ch false false spd sps loc aux far }

/-- TLD and TLDA. -/
def placeTld (opc : Nat) (s : State) : Res :=
  let f := s.core.q.ir
  let n := low4 f
  let k := s.cmd 0 0 opc 2 0 (s.reg n).offset.toNat 0 (s.srcA.toNat % 2 ^ 51)
  .done (s.place { k with tile := n, pre := if opc = 0x209 then firstDet [(tooG s.srcA, 3)] else 0 } f.dst)
/-- TST and TSTA. -/
def placeTst (opc : Nat) (s : State) : Res :=
  let f := s.core.q.ir
  let n := s.aN
  let s := s.readTiles [n]
  let t := s.reg n
  let k := s.cmd 2 0 opc 0 t.space.toNat t.offset.toNat 0 (s.srcB.toNat % 2 ^ 51)
  .done (s.place { k with tile := n, pre := if opc = 0x20B then firstDet [(tooG s.srcB, 3)] else 0 } f.dst)

/-- A matrix command; an operand without a space has the code 0 (log 138). -/
def State.placeMx (s : State) (opc spd sps loc aux far : Nat) (pre : List (Bool × Nat)) (tile : Nat := 0) : Res :=
  .done (s.place { s.cmd 1 0 opc spd sps loc aux far with pre := firstDet pre, tile := tile } (if opc = 0x288 then s.core.q.ir.dst else 0))
/-- R89: rows minus one of a stream. -/
def streamRows (f : Fields) : Nat := f.sc.toNat * 16 + low4 f

def placeMloadw (s : State) : Res := s.placeMx 0x280 0 1 s.srcA.toNat 0 0 [(tooLoc s.srcA, 7)]
def placeMloadwh (s : State) : Res := s.placeMx 0x281 0 0 0 0 s.srcA.toNat []
def placeMswap (s : State) : Res := s.placeMx 0x282 0 0 0 0 0 []
def placeMstream (s : State) : Res :=
  s.placeMx 0x283 3 2 s.srcB.toNat (streamRows s.core.q.ir) (s.srcA.toNat % 2 ^ 20) [(tooLoc s.srcB || tooFar20 s.srcA, 7)]
def placeMstreamh (s : State) : Res :=
  s.placeMx 0x284 3 0 s.srcA.toNat (streamRows s.core.q.ir) s.srcB.toNat [(tooLoc s.srcA, 7)]
def placeMmac (s : State) : Res := s.placeMx 0x285 3 0 s.srcA.toNat 0 s.srcB.toNat [(tooLoc s.srcA, 7)]
def placeMmach (s : State) : Res := s.placeMx 0x286 3 0 0 0 s.srcB.toNat [] (low4 s.core.q.ir)
def placeMepi (s : State) : Res :=
  s.placeMx 0x287 3 2 s.srcB.toNat 0 (s.srcA.toNat % 2 ^ 20) [(tooLoc s.srcB || tooFar20 s.srcA, 7)] (low4 s.core.q.ir)
def placeMdrain (s : State) : Res := s.placeMx 0x288 0 0 0 0 0 []
/-- R192: the row count of an accumulator move. -/
def badCount (w : Word) : Bool := decide (w.toNat < 1 ∨ 1024 < w.toNat)
def placeMzacc (s : State) : Res := s.placeMx 0x289 3 0 s.srcA.toNat (s.srcC.toNat - 1) 0 [(tooLoc s.srcA || badCount s.srcC, 7)]
def placeAcc (opc sps : Nat) (s : State) : Res :=
  s.placeMx opc 3 sps s.srcB.toNat (s.srcC.toNat - 1) (s.srcA.toNat % 2 ^ 20) [(tooLoc s.srcB || tooFar20 s.srcA || badCount s.srcC, 7)]

/-- CPY and CPYW (R231). -/
def placeCopy (opc : Nat) (s : State) : Res :=
  let f := s.core.q.ir
  let q := cpyQueue f
  let spd := cpySpd f
  let sps := cpySps f
  let isPad (x : Nat) : Bool := decide (1 ≤ x ∧ x ≤ 3)
  let loc := if spd = 0 ∨ spd = 7 then s.srcB else if sps = 0 then s.srcA else s.srcB
  let far := if spd = 0 ∨ spd = 7 then s.srcA else if sps = 0 then s.srcB else s.srcA &&& 0xFFFFF
  let sc := s.srcC.toNat
  let pre := firstDet [
    (decide (sc % 256 ≠ 0 ∨ 2 ^ 20 ≤ sc) || (isPad spd && tooLoc s.srcA) || (isPad sps && tooLoc s.srcB), 7),
    ((decide (spd = 0) && tooG s.srcA) || (decide (sps = 0) && tooG s.srcB), 3)]
  let raw := cmdWord opc 0 0 (engTok f) (immBits f 0 2) (immBits f 3 1 == 1) (f.md.getLsbD 3) spd sps loc.toNat (sc / 256) far.toNat
  let k := s.cmd q (immBits f 0 2) opc spd sps 0 0 0
  .done (s.place { k with raw := raw ||| (f.md.setWidth 128 <<< 114) ||| (f.ty.setWidth 128 <<< 110), pre := pre } f.dst)

/-- GATHER and GATHERB (R148, R149). -/
def placeGather (bounded : Bool) (s : State) : Res :=
  let f := s.core.q.ir
  let en := s.enabled
  let a := s.srcA.toNat
  let bound := a / 2 ^ 32
  let ix := s.vecC
  let out := if bounded then (List.range 64).filter fun i => en.getLsbD i && decide (bound ≤ (vat ix i).toNat) else []
  if en = 0 then .done s
  else match (if f.md.getLsbD 3 then out.head? else none) with
    | some i => .trap (trapOf GATHER_BOUND i ((vat ix i).setWidth 64) (BitVec.ofNat 64 bound))
    | none =>
      let opc := if bounded then 0x2C3 else 0x2C2
      let k := s.cmd 0 (immBits f 0 2) opc (f.md.toNat % 8) 0 (a % 2 ^ 20) (nbits a 20 12) (s.srcB.toNat % 2 ^ 51)
      let k := { k with raw := k.raw ||| (if immBits f 3 1 = 1 then BitVec.ofNat 128 (2 ^ 103) else 0),
                        idx := ix, en := en, bound := if bounded then bound else 0 }
      let s := { s with core := s.core.modCnt fun c => { c with gboob := satAdd c.gboob out.length } }
      .done (s.place k f.dst)

/-! Meanings. -/

def engIssue (sh : Shape) (q : Nat) (ch : State → Nat) (tile : State → Option (Nat × Bool)) (lanes : Bool) (body : State → Res)
    (s : State) : Out := issueWith sh none (queueHold q ch tile) lanes body s
def mxIssue (sh : Shape) (tile : State → Option (Nat × Bool)) (body : State → Res) (s : State) : Out :=
  engIssue sh 1 chan0 tile false body s
def chanOf (s : State) : Nat := immBits s.core.q.ir 0 2

/-- TLD (R181, R182). -/
def execTld (s : State) : Out := engIssue (shTld s.core.q.ir) 0 chan0 immTile false (placeTld 0x208) s
/-- TLDA (R181, R182). -/
def execTlda (s : State) : Out := engIssue (shTld s.core.q.ir) 0 chan0 immTile false (placeTld 0x209) s
/-- TST (R181, R182). -/
def execTst (s : State) : Out := engIssue (shTst s.core.q.ir) 2 chan0 (fun s => some (s.aN, false)) false (placeTst 0x20A) s
/-- TSTA (R181, R182). -/
def execTsta (s : State) : Out := engIssue (shTst s.core.q.ir) 2 chan0 (fun s => some (s.aN, false)) false (placeTst 0x20B) s
/-- MLOADW (R192, R193). -/
def execMloadw (s : State) : Out := mxIssue (shMloadw s.core.q.ir) noTile placeMloadw s
/-- MLOADWH (R192, R193). -/
def execMloadwh (s : State) : Out := mxIssue (shMloadwh s.core.q.ir) noTile placeMloadwh s
/-- MSWAP (R193). -/
def execMswap (s : State) : Out := mxIssue (engPlain 1 s.core.q.ir) noTile placeMswap s
/-- MSTREAM (R192, R193). -/
def execMstream (s : State) : Out := mxIssue (shMstream false s.core.q.ir) noTile placeMstream s
/-- MSTREAMH (R192, R193). -/
def execMstreamh (s : State) : Out := mxIssue (shMstream true s.core.q.ir) noTile placeMstreamh s
/-- MMAC (R192, R193). -/
def execMmac (s : State) : Out := mxIssue (shMmac s.core.q.ir) noTile placeMmac s
/-- MMACH (R192, R193). -/
def execMmach (s : State) : Out := mxIssue (shMmach s.core.q.ir) immTile placeMmach s
/-- MEPI (R195). -/
def execMepi (s : State) : Out := mxIssue (shMepi s.core.q.ir) immTile placeMepi s
/-- MDRAIN (R197). -/
def execMdrain (s : State) : Out := mxIssue (shMdrain s.core.q.ir) noTile placeMdrain s
/-- MZACC (R196). -/
def execMzacc (s : State) : Out := mxIssue (shMzacc s.core.q.ir) noTile placeMzacc s
/-- MACCLD (R196). -/
def execMaccld (s : State) : Out := mxIssue (shMaccld s.core.q.ir) noTile (placeAcc 0x28A 2) s
/-- MACCST (R196). -/
def execMaccst (s : State) : Out := mxIssue (shMaccst s.core.q.ir) noTile (placeAcc 0x28B 3) s
/-- CPY (R231). -/
def execCpy (s : State) : Out := engIssue (shCpy s.core.q) (cpyQueue s.core.q.ir) chanOf noTile false (placeCopy 0x2C0) s
/-- CPYW (R235). -/
def execCpyw (s : State) : Out := engIssue (shCpy s.core.q) (cpyQueue s.core.q.ir) chanOf noTile false (placeCopy 0x2C1) s
/-- GATHER (R148). -/
def execGather (s : State) : Out := engIssue (shGather false s.core.q.ir) 0 chanOf noTile true (placeGather false) s
/-- GATHERB (R148, R149). -/
def execGatherb (s : State) : Out := engIssue (shGather true s.core.q.ir) 0 chanOf noTile true (placeGather true) s

end Sys2Proof.Machine
end

