-- ==== Sys2Proof/Machine/Chain.lean ====
section
/-! DEFINITION. Chain walkers, waits on transfers and the event queue (05 R93, R94, 13 R238 to R243, 18 R324). -/

namespace Sys2Proof.Machine

open Sys2Proof Decode

/-! Chain entries (R93, R94). -/

/-- R94: an entry that a walker refuses: `q` is 0 for the LDE, 2 for the STE. -/
def badEntry (q : Nat) (e : BitVec 256) : Bool :=
  let w := e.toNat
  let opc := nbits w 118 10
  let own := if q = 0 then [0x208, 0x209, 0x2C0, 0x2C1, 0x2C2, 0x2C3] else [0x20A, 0x20B, 0x2C0, 0x2C1]
  !own.contains opc || nbits w 224 2 != 0 || nbits w 179 13 != 0 || nbits w 84 12 != 0 || nbits w 51 1 != 0
    || nbits w 106 4 != 0 || nbits w 102 1 != 0 || decide (52 < nbits w 226 6)
    || (nbits w 244 12 != 0 && nbits w 208 16 == 0) || nbits w 128 5 != 0
def entryLink (e : BitVec 256) : Nat := nbits e.toNat 128 51
/-- The counters of a mask: CBASE + j for each bit j. -/
def maskCounters (e : BitVec 256) (lo : Nat) : List Nat :=
  ((List.range 12).filter fun j => nbits e.toNat (lo + j) 1 == 1).map fun j => nbits e.toNat 226 6 + j
/-- Reached(v, w) of R239. -/
def reached (v w : BitVec 16) : Bool := decide ((v - w).toNat < 2 ^ 15)

def CoreSt.modWalker (c : CoreSt) (w : Nat) (f : Walker → Walker) : CoreSt :=
  c.modEng fun e => { e with walkers := vput e.walkers w (f (vat e.walkers w)) }

/-- The command of an entry at the tail of its channel. -/
def State.appendChain (s : State) (n w : Nat) : State :=
  let c := s.coreAt n
  let k := vat c.eng.walkers w
  let q := 2 * w
  let raw : BitVec 128 := k.entry.setWidth 128
  let ch := nbits k.entry.toNat 104 2
  let (u, s) := s.takeUid
  let m : Cmd := { uid := u, q := q, ch := ch, slot := c.freeSlotOf q ch, raw := raw, wmax := 0, chain := true, seqNo := k.seqNo,
                   b := BitVec.ofNat 64 (nbits raw.toNat 0 51), compared := true, st := .popWait,
                   held := c.ph.en && decide (q = 2), phase := c.ph.phase.toNat }
  let s := s.modCore n fun c => (c.modWalker w fun k => { k with waiting := none, stalled := false, cmd := some u }).modEng
    fun e => { e with cmds := e.cmds ++ [m] }
  s.schedule 0 .engineCommandBegin { n0 := n, n1 := u }

/-- R239: a walker that stops at a refused entry. -/
def CoreSt.walkerStops (c : CoreSt) (w : Nat) : CoreSt :=
  c.modWalker w fun k => { k with cherr := true, seqNo := k.seqNo + 1, st := .idle, waiting := none, cmd := none }

/-- A running walker reads its entry, waits on its counters and appends its command. -/
def State.walkerStep (s : State) (n w g : Nat) : State :=
  let c := s.coreAt n
  let k := vat c.eng.walkers w
  let again (s : State) : State := s.schedule 1 .chainEntryRead { n0 := n, n1 := w, n2 := g }
  if c.eng.halt ∨ k.st ≠ .run ∨ k.kick ≠ g ∨ k.cmd.isSome ∨ 0 < k.packets then s
  else if k.waiting.isNone then
    let r := s.engRead n k.got [] k.addr 32
    match s.pagesFor n (if k.asked then some [] else none) [k.addr] with
    | some (left, s) => again (s.modCore n fun c => c.modWalker w fun k => { k with asked := left.isEmpty })
    | none => match r.fail, r.need with
    | some _, _ => s.modCore n fun c => c.walkerStops w
    | none, p :: _ =>
      let ord := !c.task.profile.getLsbD (if w = 0 then 2 else 5)
      (match s.flowSend c.task.ctx (dieOf n) p.node ord (s.readItems (dieOf n) p.place ord p.va p.len (.walker n w)) with
      | some s => s.modCore n fun c => c.modWalker w fun k => { k with packets := 1 }
      | none => again s)
    | none, [] =>
      let e := BitVec.ofNat 256 (leNat r.bytes)
      if badEntry (2 * w) e then s.modCore n fun c => c.walkerStops w
      else again (s.modCore n fun c => c.modWalker w fun k => { k with entry := e, waiting := some (s.cyc + 1), got := [], asked := false })
  else
    let e := k.entry
    let v := BitVec.ofNat 16 (nbits e.toNat 192 16)
    if (maskCounters e 244).all fun j => reached (vat c.eng.rsc j) v then
      if c.queueFull (2 * w) (nbits e.toNat 104 2) then again s else s.appendChain n w
    else
      let late := !k.stalled && decide (64 * nbits e.toNat 208 16 ≤ s.cyc - k.waiting.getD s.cyc)
      again (if late then
        (s.modCore n fun c => c.modWalker w fun k => { k with stalled := true }).schedule 0 .stall { n0 := n, n2 := 4 * w + 3 }
      else s)

/-- CHAIN_ENTRY_READ (R239). -/
def execChainEntryRead (s : State) : Out := .next (s.walkerStep s.ev.n0 (s.ev.n1 % 2) s.ev.n2)

/-- R239: a chain command has completed: its posts, CHERR and the sequence number in one step; the walker follows its link or
parks. -/
def State.walkerDone (s : State) (n w : Nat) (err : Bool) : State :=
  let k := vat (s.coreAt n).eng.walkers w
  if k.cmd.isNone then s
  else
    let link := if entryLink k.entry = 0 then k.linked else entryLink k.entry
    let s := s.modCore n fun c => (c.modEng fun e =>
      { e with rsc := (maskCounters k.entry 232).foldl (fun (r : Vector (BitVec 16) 64) j => vput r j (vat r j + 1)) e.rsc }).modWalker w
        fun k => { k with cmd := none, cherr := k.cherr || err, seqNo := k.seqNo + 1,
                          st := if link = 0 then .park else .run, addr := if link = 0 then k.addr else link, linked := 0, asked := false,
                          kick := k.kick + 1 }
    if link = 0 then s else s.scheduleFrom 0 .chainEntryRead { n0 := n, n1 := w, n2 := k.kick + 1 }

/-- CHAIN_ENTRY_DONE (R239): `n2` = 1 when the command's error bit is set. -/
def execChainEntryDone (s : State) : Out := .next (s.walkerDone s.ev.n0 (s.ev.n1 % 2) (s.ev.n2 = 1))

/-! Chain instructions (R238). -/

def walkerMd (f : Fields) : Bool := decide (f.md.toNat ≤ 1)
def shChlink (f : Fields) : Shape := { plainTy f with sa := .s, sb := .s, mdOk := walkerMd f }
def shChkick (f : Fields) : Shape := { plainTy f with dst := .s, sa := .s, mdOk := walkerMd f }
def shChseq (f : Fields) : Shape := { plainTy f with dst := .s, mdOk := walkerMd f }

/-- R238: the checks of address registers. -/
def chainAddr (as : List Word) (go : Res) : Res :=
  match as.find? fun a => decide (2 ^ 51 ≤ a.toNat) with
  | some a => .trap (trapOf ADDR_RANGE 0 a)
  | none => match as.find? fun a => decide (a.toNat % 32 ≠ 0) with
    | some a => .trap (trapOf MISALIGNED 0 a)
    | none => go

def chainLink (s : State) : Res :=
  let a := s.srcA
  chainAddr [a, s.srcB] (
    match s.xlat (a.toNat + 16) 8 .write false (fun d => trapOf PAGE_FAULT d a) with
    | .trap t => .trap t
    | .hold t => .hold t
    | .fault f => .fault f
    | .pieces ps =>
      match ps with
      | [] => .done s
      | p :: _ =>
        let (qs, s) := s.carryAll s.core.num [p]
        let (u, s) := s.takeUid
        let f : InFlight := { s.accessOf u 0 .load with va := a.toNat, cmd := some (s.core.q.ir.md.toNat % 2), what := .plain (qs.headD p) (spanAt (a.toNat + 16) (leBytes 8 s.srcB.toNat)) }
        let s := { s with mem := { s.mem with flying := s.mem.flying ++ [f] } }
        .done (s.scheduleIn 4 12 .tasterCompare { n0 := s.core.num, n1 := u, n2 := 1 }))

def chainKick (s : State) : Res :=
  let a := s.srcA
  let w := s.core.q.ir.md.toNat % 2
  let k := vat s.core.eng.walkers w
  chainAddr [a] (
    if k.st = .run then .done (s.writeS 2 s.core.q.ir.dst 1)
    else
      let run (k : Walker) : Walker := { st := .run, addr := a.toNat, seqNo := k.seqNo, entry := k.entry, kick := k.kick + 1 }
      let s := { s with core := (s.core.modWalker w run).irrevocable }
      .done ((s.writeS 2 s.core.q.ir.dst 0).scheduleFrom 1 .chainEntryRead { n0 := s.core.num, n1 := w, n2 := k.kick + 1 }))

def walkStateCode : WalkState → Nat
  | .idle => 0 | .run => 1 | .park => 2
def chainSeq (s : State) : Res :=
  let w := s.core.q.ir.md.toNat % 2
  let k := vat s.core.eng.walkers w
  let s := if w = 1 then { s with core := s.core.modEng EngSt.observeChain } else s
  .done (s.writeS 2 s.core.q.ir.dst
    (BitVec.ofNat 64 ((if k.cherr then 2 ^ 63 else 0) + walkStateCode k.st * 2 ^ 61 + k.seqNo.toNat)))

/-- CHLINK (R238). -/
def execChlink (s : State) : Out := issue (shChlink s.core.q.ir) none chainLink s
/-- CHKICK (R238). -/
def execChkick (s : State) : Out := issue (shChkick s.core.q.ir) (some 2) chainKick s
/-- CHSEQ (R238). -/
def execChseq (s : State) : Out := issue (shChseq s.core.q.ir) (some 2) chainSeq s

/-! Waits (R241, R242). -/

def shXwait (f : Fields) : Shape :=
  { plainTy f with dst := .s, emp := .long, sa := .s, immOk := decide (immBits f 3 5 = 0), tokOk := decide (engWmax f ≠ 0) }
def shXpoll (f : Fields) : Shape := { plainTy f with dst := .s, immOk := decide (f.imm.toNat < 8) }
def shQdepth (f : Fields) : Shape := { plainTy f with dst := .s, immOk := decide (f.imm.toNat < 9) }
def shFill (f : Fields) : Shape := { plainTy f with dst := .s, emp := .long }
def shWaitev (f : Fields) : Shape := { shFill f with immOk := decide (f.imm.toNat < 2 ^ 16) }

/-- R241: the identifier has been issued on the channel and has not completed. -/
def EngSt.waitsFor (e : EngSt) (ch : Nat) (t : BitVec 32) : Bool :=
  let d := vat e.xdone ch
  !passed t d && decide ((t - d).toNat < (vat e.xnext ch - d).toNat)
/-- A hold with a watchdog of the instruction's WMAX has passed it (R225). -/
def State.holdPassed (s : State) : Bool := decide (64 * engWmax s.core.q.ir ≤ s.cyc - s.core.q.holdFrom.getD s.cyc)

/-- The hold of XWAIT; once it has passed its watchdog, the trap is for the effect. -/
def xwaitHold (s : State) : Option State :=
  let f := s.core.q.ir
  if s.core.eng.waitsFor (immBits f 0 3) (s.srcA.setWidth 32) && !(predOn s.core.q f && s.holdPassed) then some s else none

def xwaitBody (s : State) : Res :=
  let f := s.core.q.ir
  let ch := immBits f 0 3
  let t : BitVec 32 := s.srcA.setWidth 32
  let e := s.core.eng
  let owner := if ch < 4 then 0 else 2
  if e.waitsFor ch t then
    .trap { cause := STALL, a0 := stallWord 0 owner ch 0 15 4, a1 := t.setWidth 64, a2 := (vat e.xdone ch).setWidth 64,
            async := true, stall := s.core.tstall s.cyc owner }
  else
    let bad := !passed t (vat e.xdone ch)
    let (u, s) := s.addFill (some (.s f.dst)) (.xwait ch t bad) 2
    .done (s.schedule 2 .longLatencyFill { n0 := s.core.num, n1 := u })

/-- XWAIT (R241). -/
def execXwait (s : State) : Out := issueWith (shXwait s.core.q.ir) none xwaitHold false xwaitBody s
/-- XPOLL (R242). -/
def execXpoll (s : State) : Out :=
  issue (shXpoll s.core.q.ir) (some 2) (fun s =>
    let ch := immBits s.core.q.ir 0 3
    let w := s.core.eng.status ch (vat s.core.eng.xdone ch - 1) false
    let t : State := { s with core := s.core.modEng fun e => e.observeChan ch }
    .done (t.writeS 2 s.core.q.ir.dst w)) s
/-- QDEPTH (R242). -/
def execQdepth (s : State) : Out :=
  issue (shQdepth s.core.q.ir) (some 2) (fun s =>
    let e := s.core.q.ir.imm.toNat
    let n := if e < 4 then s.core.queue 0 e else if e = 4 then s.core.queue 1 0 else s.core.queue 2 (e - 5)
    .done (s.writeS 2 s.core.q.ir.dst (BitVec.ofNat 64 n.length))) s
/-- EVPOP (R243): the oldest record leaves at issue, so records go to EVPOPs in program order. -/
def execEvpop (s : State) : Out :=
  issue (shFill s.core.q.ir) none (fun s =>
    let w := s.core.eng.events.headD 0
    let s := { s with core := (s.core.modEng fun e => { e.observeEvent w with events := e.events.drop 1 }).irrevocable }
    .done (s.fillIn (some (.s s.core.q.ir.dst)) (.value (.word w)) 3 6)) s
/-- WAITEV (R324). -/
def execWaitev (s : State) : Out :=
  issue (shWaitev s.core.q.ir) none (fun s =>
    let (u, s) := s.addFill (some (.s s.core.q.ir.dst)) (.waitev (s.cyc + 64 * s.core.q.ir.imm.toNat)) 1
    .done (s.schedule 1 .longLatencyFill { n0 := s.core.num, n1 := u })) s

end Sys2Proof.Machine
end

