-- ==== Sys2Proof/Machine/Progress.lean ====
section
/-! DEFINITION. Logical times, path functions, counts and frontiers, notices, verdicts, and what it takes for accesses to be
performed at a scope (14 R251, R252, 16 R265 to R284). -/

namespace Sys2Proof.Machine

open Sys2Proof Decode

/-! Times (R265, R266, R269). -/

/-- ∞, the empty frontier. -/
def noTime : BitVec 64 := BitVec.allOnes 64
/-- The bit a counter begins at, its width, and its largest value. -/
def ctrLo (i : Nat) : Nat := if i = 0 then 40 else if i = 1 then 24 else if i = 2 then 12 else 0
def ctrMax (i : Nat) : Nat := if i = 0 then 0xFFFFFE else if i = 1 then 0xFFFF else 0xFFF
/-- Counter Li of a time. -/
def timeCtr (t : BitVec 64) (i : Nat) : Nat := nbits t.toNat (ctrLo i) (if i = 0 then 24 else if i = 1 then 16 else 12)
/-- The time of a list of counters, the missing ones zero. -/
def timeOf (cs : List Nat) : BitVec 64 :=
  BitVec.ofNat 64 ((List.range 4).foldl (fun (n : Nat) i => n + cs.getD i 0 * 2 ^ ctrLo i) 0)
/-- R266: malformed at a location of depth `d`. -/
def badTime (t : BitVec 64) (d : Nat) : Bool :=
  decide (timeCtr t 0 = 0xFFFFFF) || (List.range 4).any fun i => decide (d ≤ i ∧ timeCtr t i ≠ 0)

/-- Fields of a summary. -/
def sumLv (x : BitVec 16) : Nat := x.toNat / 2 ^ 14
def sumEn (x : BitVec 16) : Nat := x.toNat / 2 ^ 12 % 4
def sumInc (x : BitVec 16) : Nat := x.toNat % 2 ^ 12

/-! Path functions (R272). -/

def pathId (d : Nat) : PathFn := { comps := List.replicate d (true, 0), guards := List.replicate d 0 }
/-- The function followed by an edge of a summary, or none where every time gives NEVER. -/
def PathFn.step (f : PathFn) (x : BitVec 16) : Option PathFn :=
  let d := f.comps.length - sumLv x
  let cs := f.comps.take d
  let enter := List.replicate (sumEn x) (false, 0)
  if sumInc x = 0 then some { f with comps := cs ++ enter }
  else
    match cs.getLast? with
    | none => none
    | some (k, n) =>
      let n' := n + sumInc x
      if ctrMax (d - 1) < n' then none
      else some { comps := cs.dropLast ++ [(k, n')] ++ enter,
                  guards := if k then f.guards.set (d - 1) (max (f.guards.getD (d - 1) 0) n') else f.guards }
/-- Its action on counters, without NEVER. -/
def PathFn.eval (f : PathFn) (cs : List Nat) : BitVec 64 :=
  timeOf ((List.range f.comps.length).map fun i =>
    let c := f.comps.getD i (false, 0)
    if c.1 then cs.getD i 0 + c.2 else c.2)
/-- Its action on a time; none is NEVER. -/
def PathFn.on (f : PathFn) (t : BitVec 64) : Option (BitVec 64) :=
  let cs := (List.range 4).map (timeCtr t)
  if (List.range f.guards.length).any fun i => decide (ctrMax i < cs.getD i 0 + f.guards.getD i 0) then none
  else some (f.eval cs)
/-- Apply of R269 at depth `d`. -/
def applySum (x : BitVec 16) (t : BitVec 64) (d : Nat) : Option (BitVec 64) :=
  match (pathId d).step x with | some f => f.on t | none => none

def PathFn.kept (f : PathFn) : Nat := (f.comps.filter (·.1)).length
/-- The largest value of counter `i` for which `g` does not give NEVER. -/
def PathFn.top (g : PathFn) (i : Nat) : Nat := ctrMax i - g.guards.getD i 0
def PathFn.weaker (f g : PathFn) : Bool :=
  (List.range g.guards.length).all fun i => decide (f.guards.getD i 0 ≤ g.guards.getD i 0)
/-- R272: `f` gives a time no greater than `g` for every time (NEVER is greater than every time): where `g` keeps no fewer
counters this is judged at zeros, else at the largest time of `g`. -/
def PathFn.le (f g : PathFn) : Bool :=
  let cs := if f.kept ≤ g.kept then List.replicate 4 0 else (List.range g.guards.length).map g.top
  f.weaker g && decide ((f.eval cs).toNat ≤ (g.eval cs).toNat)
/-- `f` is no greater than `g` in every counter for every time, so that every continuation of `f` is no greater either. -/
def PathFn.under (f g : PathFn) : Bool :=
  f.weaker g && (List.range g.comps.length).all fun i =>
    match f.comps.getD i (false, 0), g.comps.getD i (false, 0) with
    | (true, n), (true, m) => decide (n ≤ m)
    | (true, n), (false, m) => decide (g.top i + n ≤ m)
    | (false, n), (_, m) => decide (n ≤ m)

/-- A function kept at a location, unless another there is under it; it replaces those it is under. -/
def addFn (acc : List (Nat × PathFn) × List (Nat × PathFn)) (y : Nat × PathFn) : List (Nat × PathFn) × List (Nat × PathFn) :=
  if acc.2.any fun z => z.1 == y.1 && z.2.under y.2 then acc
  else (y :: acc.1, y :: acc.2.filter fun z => !(z.1 == y.1 && y.2.under z.2))

/-- R272: the functions from a location by a search over the edges, or the detail of R271; `n` bounds the search (a function is taken up
once, and there are fewer than 2^200: a counter below 2^24 and a guard below 2^24 for each of at most 4 counters of at most 65,535
locations). -/
def reachGo (out : Nat → List (Nat × BitVec 16)) (l d : Nat) : Nat → List (Nat × PathFn) → List (Nat × PathFn) →
    Except Nat (List (Nat × PathFn))
  | 0, _, _ => .error 3
  | _ + 1, [], kept => .ok kept
  | n + 1, x :: work, kept =>
    if !kept.contains x then reachGo out l d n work kept
    else
      let news := (out x.1).filterMap fun (y, sm) => (x.2.step sm).map fun f => (y, f)
      if news.any fun y => y.1 == l && !(pathId d).le y.2 then .error 2
      else
        let r := news.foldl addFn (work, kept)
        reachGo out l d n r.1 r.2

/-- R272: the least functions. -/
def leastFns (fs : List PathFn) : List PathFn :=
  fs.foldl (fun acc f => if acc.any fun g => g.le f then acc else acc.filter (fun g => !f.le g) ++ [f]) []

/-- The reach table of a template's locations and edges, or the detail of R271. -/
def reachTable (depths : List Nat) (edges : List (Nat × Nat × BitVec 16)) : Except Nat (List (Nat × Nat × List PathFn)) :=
  let out (l : Nat) : List (Nat × BitVec 16) := (edges.filter fun e => e.1 == l).map (·.2)
  (List.range depths.length).foldl (fun acc l =>
    let d := depths.getD l 1
    let r : Except Nat (List (Nat × PathFn)) := reachGo out l d (2 ^ 200) [(l, pathId d)] [(l, pathId d)]
    match acc, r with
    | .error a, .error b => .error (min a b)
    | .error a, .ok _ => .error a
    | .ok _, .error b => .error b
    | .ok t, .ok fs =>
      let es := (List.range depths.length).map fun k => (l, k, leastFns ((fs.filter fun f => f.1 == k).map (·.2)))
      if es.any fun e => decide (4 < e.2.2.length) then .error 3 else .ok (t ++ es.filter fun e => !e.2.2.isEmpty))
    (.ok [])

/-! Locations, instances and the directory (R267, R268). -/

def locInst (w : BitVec 64) : BitVec 32 := w.extractLsb' 32 32
def locNode (w : BitVec 64) : BitVec 16 := w.extractLsb' 16 16
def locPort (w : BitVec 64) : BitVec 4 := w.extractLsb' 12 4
def locWord (inst : BitVec 32) (node : BitVec 16) (port : BitVec 4 := 0) : BitVec 64 := inst ++ node ++ port ++ (0 : BitVec 12)

/-- The index of a declared location, and its depth. -/
def Template.index (tp : Template) (node : BitVec 16) (port : BitVec 4) : Option (Nat × Nat) :=
  (List.range tp.locs.length).findSome? fun j =>
    match tp.locs[j]? with
    | some (n, p, d) => if n = node ∧ p = port then some (j, d) else none
    | none => none
def PeSt.tmplOf (p : PeSt) (t : BitVec 16) : Option Template := p.templates.find? fun x => x.tmpl == t
def PeSt.instOf (p : PeSt) (i : BitVec 32) : Option GraphInst := p.insts.find? fun x => x.inst == i
/-- R268: the home of an instance is a die of this module. -/
def GraphInst.isAt (g : GraphInst) (d : Nat) : Bool := g.away.isNone && g.home == d

/-- R282, checks 1 to 3: an instance of the directory with its template and the index and depth of a location, or the detail
of PROGRESS_LOC. -/
def State.findLoc (s : State) (loc : BitVec 64) : Except Nat (GraphInst × Template × Nat × Nat) :=
  match s.pe.instOf (locInst loc) with
  | none => .error 1
  | some g =>
    match s.pe.tmplOf g.tmpl with
    | none => .error 1
    | some tp =>
      match tp.index (locNode loc) (locPort loc) with
      | some (j, d) => if loc.toNat % 4096 ≠ 0 then .error 2 else .ok (g, tp, j, d)
      | none => .error 2

/-! Counts and frontiers (R277, R280). -/

/-- The least time at which held times can still reach location index `k`. -/
def Template.bound (tp : Template) (held : List (Nat × BitVec 64)) (k : Nat) : BitVec 64 :=
  held.foldl (fun m (l, t) =>
    match tp.reach.find? fun e => e.1 == l && e.2.1 == k with
    | none => m
    | some e => e.2.2.foldl (fun (m : BitVec 64) f => match f.on t with
      | some u => if u.toNat < m.toNat then u else m
      | none => m) m) noTime
/-- The cells of an instance that hold a count, or a poison flag, by location index. -/
def GraphInst.held (g : GraphInst) (tp : Template) (poison : Bool) : List (Nat × BitVec 64) :=
  (g.cells.filter fun c => if poison then c.poison else c.cnt != 0).filterMap fun c =>
    (tp.index (locNode c.loc) (locPort c.loc)).map fun j => (j.1, c.time)
/-- Frontier(L). -/
def GraphInst.frontier (g : GraphInst) (tp : Template) (k : Nat) : BitVec 64 := tp.bound (g.held tp false) k
/-- The least poisoned time that reaches L (R280). -/
def GraphInst.poisonAt (g : GraphInst) (tp : Template) (k : Nat) : BitVec 64 := tp.bound (g.held tp true) k
def GraphInst.cnt (g : GraphInst) (loc time : BitVec 64) : Int :=
  ((g.cells.find? fun c => c.loc == loc && c.time == time).map (·.cnt)).getD 0
/-- A count cell changed; one that holds neither a count nor poison is freed. -/
def GraphInst.add (g : GraphInst) (loc time : BitVec 64) (delta : Int) (poison : Bool) : GraphInst :=
  let old := g.cells.find? fun c => c.loc == loc && c.time == time
  let c : CountCell := { loc := loc, time := time, cnt := g.cnt loc time + delta, poison := poison || old.any (·.poison) }
  let rest := g.cells.filter fun c => !(c.loc == loc && c.time == time)
  { g with cells := if c.cnt = 0 ∧ !c.poison then rest else rest ++ [c] }

/-- R276: frontier waits issued and not yet filled. -/
def SeqSt.pgWait (q : SeqSt) : Nat := (q.fills.filter fun f => f.waits.isSome).length
/-- R275: PEWAITS, the frontier waits pending on a die. -/
def State.peWaits (s : State) (d : Nat) : Nat :=
  s.cores.foldl (fun (n : Nat) c => if dieOf c.num = d then n + c.q.pgWait else n) 0
/-- R273: count cells that fit in the 8 MiB of SRAM beside the directory, the reach tables and the waits. FREE VALUE: how much of it
those take (log 61). -/
def State.sramRoom (s : State) (d : Nat) : Nat :=
  min 262144 (Config.engineRoom s.pe.insts.length (s.pe.templates.foldl (fun n t => n + t.reach.length) 0) (s.peWaits d))
/-- R273: count cells a Progress Engine has room for: the SRAM and the overflow area, 32 bytes each. -/
def State.cellRoom (s : State) (d : Nat) : Nat := s.sramRoom d + (vat s.pe.ovfSize d).toNat * 32768
def State.cellsUsed (s : State) (d : Nat) : Nat :=
  s.pe.insts.foldl (fun (n : Nat) g => if g.isAt d then n + g.cells.length else n) 0
/-- R273, R275: PEUSE, the cells in SRAM and those that have moved to the overflow area. -/
def State.peUse (s : State) (d : Nat) : Nat × Nat :=
  let n := s.cellsUsed d
  (min n (s.sramRoom d), n - s.sramRoom d)

/-- R277: an update applied to an instance, or its refusal; `first` is the step of R296 that creates the instance. -/
def State.applyItem (s : State) (tp : Template) (poison first : Bool) (g : GraphInst) (u : BitVec 64 × BitVec 64 × Int) :
    Except (Verdict × BitVec 64 × BitVec 64) GraphInst :=
  let (loc, time, delta) := u
  let bad (v : Verdict) : Except (Verdict × BitVec 64 × BitVec 64) GraphInst := .error (v, loc, time)
  match tp.index (locNode loc) (locPort loc) with
  | none => bad (.loc 2)
  | some (k, d) =>
    let fr := g.frontier tp k
    let v := g.cnt loc time + delta
    if badTime time d then bad (.loc 3)
    else if !first && decide (time.toNat < fr.toNat) then bad (.regress fr)
    else if (g.cells.all fun c => !(c.loc == loc && c.time == time)) &&
        decide (s.cellRoom g.home ≤ s.cellsUsed g.home + g.cells.length - ((s.pe.instOf g.inst).map (·.cells.length)).getD 0) then
      bad (.full 1)
    else if v < -2 ^ 31 ∨ 2 ^ 31 ≤ v then bad (.full 2)
    else .ok (g.add loc time delta poison)

/-- R275: PEREFUSE counts an update that the Progress Engine of a die refuses, as its home or as its sender (R282). -/
def State.countRefusal (s : State) (d : Nat) : State :=
  { s with pe := { s.pe with refuse := vput s.pe.refuse d (min (vat s.pe.refuse d + 1) (2 ^ 64 - 1)) } }

/-- R275: what PESTAT shows of a Progress Engine: whether it is enabled, whether it runs, whether the overflow area is in use, and its
fault, which is the failure of its die (R393; log 129). -/
def State.peStat (s : State) (d : Nat) : Bool × Bool × Bool × Bool :=
  (vat s.pe.enabled d, (s.pe.updates.any fun u => u.away.isNone && u.home == d) || s.pe.insts.any fun g => g.isAt d,
   decide ((s.peUse d).2 ≠ 0), s.host.diefail.getLsbD d)

/-! Notices (R277, R278, R280). -/

/-- A word of a waiter from a notice (R283, R284). -/
def statusWord (frontier poison time : BitVec 64) : Word :=
  BitVec.ofNat 64 ((if poison.toNat ≤ time.toNat then 2 ^ 63 else 0) + (if frontier = noTime then 2 ^ 61 else 0))

/-- R284: the word of FPOLL.ST: R283's for the time before the frontier. Before a frontier of 0 there is no time, and none is poisoned. -/
def pollWord (frontier poison : BitVec 64) : Word :=
  BitVec.ofNat 64 ((if poison.toNat < frontier.toNat then 2 ^ 63 else 0) + (if frontier = noTime then 2 ^ 61 else 0))

/-- R278, R283, R284: whether a notice releases a wait, and with which word. -/
def Notice.word (n : Notice) (time : BitVec 64) (poll st : Bool) (need : Nat) : Option Word :=
  if n.cover < need then none
  else if poll then some (if st then pollWord n.frontier n.poison else n.frontier)
  else if time.toNat < n.frontier.toNat then some (statusWord n.frontier n.poison time) else none

/-- The waits of a die that a notice releases fill 20 to 60 cyc after it. -/
def State.release (s : State) (n : Notice) : State :=
  (s.cores.filter fun c => dieOf c.num == n.die).foldl (fun (s : State) c =>
    c.q.fills.foldl (fun (s : State) f =>
      match f.src with
      | .frontier loc time poll st need =>
        if loc = n.loc then
          (match n.word time poll st need with
          | some w => s.resolveFill c.num f.uid w 20 60
          | none => s)
        else s
      | _ => s) s) s

/-- A notice reaches a Progress Engine: it keeps the newest one of a location whose instance is live. -/
def State.notice (s : State) (n : Notice) : State :=
  let s := s.release n
  if (s.pe.instOf (locInst n.loc)).isNone then s
  else if s.pe.notices.any fun o => o.die == n.die && o.loc == n.loc && decide (n.serial ≤ o.serial) then s
  else { s with pe := { s.pe with notices := n :: s.pe.notices.filter fun o => !(o.die == n.die && o.loc == n.loc) } }

/-- What a FRONTIER_NOTICE event carries. -/
def noticeArg (n : Notice) : EvArg :=
  { n0 := n.die, n1 := n.frontier.toNat, n2 := n.poison.toNat, w := n.loc, bytes := leBytes 8 n.cover ++ leBytes 8 n.serial }
def noticeOf (a : EvArg) : Notice :=
  { die := a.n0 % 4, loc := a.w, frontier := BitVec.ofNat 64 a.n1, poison := BitVec.ofNat 64 a.n2,
    cover := leNat (a.bytes.take 8), serial := leNat (a.bytes.drop 8) }

/-- FRONTIER_NOTICE (R278). -/
def execFrontierNotice (s : State) : Out := .next (s.notice (noticeOf s.ev))

/-- R277: the frontier word of location index `j` of an instance, where its address translates to a synchronisation page. -/
def State.frontierWord (s : State) (tp : Template) (inst : BitVec 32) (j : Nat) (v : BitVec 64) (home : Nat) : State :=
  if tp.fwbase = 0 then s
  else
    let va := tp.fwbase + 8 * (tp.locs.length * (inst.toNat % tp.fwslots) + j)
    let miss := { s with pe := { s.pe with fwMiss := vput s.pe.fwMiss home (min (vat s.pe.fwMiss home + 1) (2 ^ 64 - 1)) } }
    let t : TaskSt := { asn := tp.space.asn, rootDie := tp.space.rootDie, rootPfn := tp.space.rootPfn }
    match s.lookup t home va with
    | .error _ => miss
    | .ok e =>
      let p := s.placeOf e va
      let base := (vat s.pe.ovfBase p.die).toNat
      if 2 ^ 51 ≤ va ∨ !ptePw e.pte ∨ p.node ≠ s.fab.node.toNat ∨ (base ≤ p.pa ∧ p.pa < base + (vat s.pe.ovfSize p.die).toNat * 2 ^ 20) then miss
      else s.emitWrite p.die (spanAt (paKey p.die p.pa) (leBytes 8 v.toNat))

/-- R277: every frontier that changed is written and published; the sender's own engine hears of every location, so that its
waits see a vector that covers the batch (R278). -/
def State.publish (s : State) (tp : Template) (old new : GraphInst) (sender : Nat) (all : Bool := false) : State :=
  let done := s.pe.applied
  (List.range tp.locs.length).foldl (fun (s : State) j =>
    match tp.locs[j]? with
    | none => s
    | some (node, port, _) =>
      let f := new.frontier tp j
      let p := new.poisonAt tp j
      let moved := decide (f ≠ old.frontier tp j)
      let s := if moved then s.frontierWord tp new.inst j f new.home else s
      [0, 1, 2, 3].foldl (fun (s : State) d =>
        if all || moved || d == sender || decide (p ≠ old.poisonAt tp j) then
          s.scheduleFrom 1 .frontierNotice
            (noticeArg { die := d, loc := locWord new.inst node port, frontier := f, poison := p, serial := new.serial,
                         cover := vat (vat done new.home) d })
        else s) s) s

/-! Batches and verdicts (R278, R282). -/

/-- R278: a batch has been dealt with at its home. -/
def State.batchDone (s : State) (home sender batch : Nat) : State :=
  if batch = 0 then s else { s with pe := { s.pe with applied := vput s.pe.applied home (vput (vat s.pe.applied home) sender batch) } }

/-- R278, R383: an update is sent: the one of an instruction leaves its core after its compare, the device's own at once. -/
def State.postUpdate (s : State) (up : Update) : Nat × State :=
  let (u, s) := s.takeUid
  let s := { s with pe := { s.pe with updates := s.pe.updates ++ [{ up with uid := u, left := up.core.isNone }] } }
  (u, if up.core.isSome then s.fly (s.accessOf u 6 .post) 4 12 else s.postLeaves u)
/-- A batch leaves its sender for the home of an instance. -/
def State.post (s : State) (sender : Nat) (g : GraphInst) (items : List (BitVec 64 × BitVec 64 × Int)) (poison : Bool := false)
    (core owner : Option Nat := none) (records : List Placed := []) : Nat × State :=
  s.postUpdate { uid := 0, sender := sender, home := g.home, away := g.away, inst := g.inst, batch := 0, items := items, poison := poison,
                 core := core, owner := owner, records := records }
/-- A retirement by the device: a batch nobody waits for. -/
def State.retire1 (s : State) (sender : Nat) (loc time : BitVec 64) (delta : Int) (poison : Bool) (owner : Option Nat := none) : State :=
  match s.pe.instOf (locInst loc) with
  | some g => (s.post sender g [(loc, time, delta)] poison none owner).2
  | none => s

/-- A verdict returns to a core. -/
def State.answer (s : State) (core : Option Nat) (uid : Nat) (what : Verdict) (loc time : BitVec 64) (same : Bool) : State :=
  match core with
  | none => s
  | some n =>
    let m : VerdictMsg := { uid := uid, core := n, what := what, loc := loc, time := time }
    ({ s with pe := { s.pe with verdicts := s.pe.verdicts ++ [m] } }).halfWay same .progressVerdict { n0 := n, n1 := uid }

/-- PROGRESS_VERDICT (R282): the core's held instruction sees it in this cyc. -/
def execProgressVerdict (s : State) : Out :=
  let u := s.ev.n1
  .next { s with pe := { s.pe with verdicts := s.pe.verdicts.map fun (m : VerdictMsg) => if m.uid = u then { m with here := true } else m } }

/-- R280: counts that a thread holds. -/
def holdCounts (l : List (BitVec 64 × BitVec 64 × Int)) (items : List (BitVec 64 × BitVec 64 × Int)) :
    List (BitVec 64 × BitVec 64 × Int) :=
  items.foldl (fun (l : List (BitVec 64 × BitVec 64 × Int)) (a, t, n) =>
    let old := ((l.find? fun x => x.1 == a && x.2.1 == t).map (·.2.2)).getD 0
    let rest := l.filter fun x => !(x.1 == a && x.2.1 == t)
    if old + n = 0 then rest else rest ++ [(a, t, old + n)]) l

/-- The scheduler looks at a cluster's queue in this cyc. -/
def State.wakeCluster (s : State) (c : Nat) : State :=
  if s.agenda.any fun e => e.op == .gangAdmit && e.arg.n0 == c then s else s.schedule 0 .gangAdmit { n0 := c }

/-- Bits 23:0 of FRAMECNT (R312). -/
def State.frameNow (s : State) (d : Nat) : Nat := (vat s.sched.frameCnt d).toNat % 2 ^ 24
/-- R313: how long the tick of a die has been deferred. -/
def State.tickHeld (s : State) (d : Nat) : Nat := s.cyc - (vat s.sched.frameCyc d + vat s.sched.frameLen d)
/-- R313, R397: a SLIP record of a core; the cyc held stand in bytes 20 to 23 (log 122). -/
def State.slipTo (s : State) (n cause frame : Nat) : State :=
  s.trace n 6 (leBytes 4 cause ++ leBytes 4 (min (s.tickHeld (dieOf n)) (2 ^ 32 - 1)) ++ leBytes 8 frame)
/-- R313, R397: SLIP records go to every context that runs a TT gang on the die; one that leaves before the cause clears has its own as it
leaves (log 122). -/
def State.slipTrace (s : State) (d cause frame : Nat) : State :=
  (s.cores.filter fun c => dieOf c.num == d && s.ttCore c.num).foldl (fun (s : State) c => s.slipTo c.num cause frame) s
/-- R313: a slip begins. -/
def State.slip (s : State) (d cause : Nat) : State :=
  let n := vat s.sched.slipCnt d
  { s with sched := { s.sched with slipCnt := vput s.sched.slipCnt d (if n = 0xFFFFFFFF#32 then n else n + 1) } }
/-- R313, cause 3: a TT record whose frame has passed, or that was stopped in its frame (R416), reaches its queue; no tick is deferred. -/
def State.lateSlip (s : State) (r : Placed) : State :=
  let d := r.cluster / 2
  if r.task.tt && (r.admitted || decide (r.task.rem.toNat < s.frameNow d)) then (s.slip d 3).slipTrace d 3 (s.frameNow d) else s

/-- R298, R300: a record whose JOIN is 0 joins its ready queue. -/
def State.makeReady (s : State) (uid : Nat) : State :=
  let no := s.sched.readyNo + 1
  let s := { s with sched := { s.sched with readyNo := no, placed := s.sched.placed.map fun (r : Placed) =>
    if r.uid = uid then { r with ready := some no } else r } }
  match s.sched.placed.find? fun r => r.uid == uid with
  | some r => (s.lateSlip r).wakeCluster r.cluster
  | none => s

/-- R296, R300: a record is placed. -/
def State.placeRecord (s : State) (r : Placed) : State :=
  let (u, s) := s.takeUid
  let r := { r with uid := u }
  let s := { s with sched := { s.sched with placed := s.sched.placed ++ [r] } }
  if r.task.join = 0 then s.makeReady u else s

/-- R311: an instance without a count and without a placed record retires; notices of it that are under way arrive. -/
def State.retireInst (s : State) (i : BitVec 32) : State :=
  match s.pe.instOf i with
  | none => s
  | some g =>
    if g.away.isSome || (g.cells.any fun c => c.cnt != 0) || s.sched.placed.any fun r => r.task.inst == i then s
    else
      let mine (e : Event) : Bool := e.op == .frontierNotice && locInst e.arg.w == i
      let s := (s.agenda.filter mine).foldl (fun (s : State) e => s.release (noticeOf e.arg)) s
      { s with
        agenda := s.agenda.filter fun e => !mine e,
        pe := { s.pe with insts := s.pe.insts.filter fun g => g.inst != i, orders := s.pe.orders.filter fun o => locInst o.1.1 != i, notices := s.pe.notices.filter fun n => locInst n.loc != i,
                          parts := s.pe.parts.filter fun p => locInst p.loc != i },
        sched := { s.sched with drops := s.sched.drops.filter fun d => d.1 != i } }

/-- R277: the updates of a batch, each with its poison flag. -/
def Update.marked (u : Update) : List ((BitVec 64 × BitVec 64 × Int) × Bool) :=
  u.items.zipIdx.map fun (it, i) => (it, u.poison || u.marks.getD i false)

/-- An accepted update: the counts its owner holds change, or are retired at once where the owner's die has failed since (R393), and its
records are placed (R296). -/
def State.accepted (s : State) (u : Update) : State :=
  let s := match u.owner with
    | some n =>
      if u.orphan then u.items.foldl (fun (s : State) (l, t, k) => if 0 < k then s.retire1 u.home l t (-k) true else s) s
      else s.modCore n fun c => c.modTask fun t => { t with counts := holdCounts t.counts u.items }
    | none => s
  u.records.foldl State.placeRecord s

/-- The home's step on a batch: it is applied whole, or refused whole. -/
def State.applyUpdate (s : State) (u : Update) : State :=
  let back (s : State) (v : Verdict) (loc time : BitVec 64) (home : Nat) : State := s.answer u.core u.uid v loc time (home == u.sender)
  let first := u.items.headD (0, 0, 0)
  let s := ({ s with pe := { s.pe with updates := s.pe.updates.filter fun x => x.uid != u.uid } }).batchDone u.home u.sender u.batch
  let made : Option GraphInst := match s.pe.instOf u.inst, u.entry with
    | some g, _ => some g
    | none, some t => some { inst := u.inst, tmpl := t, home := u.sender, sent := vput (Vector.replicate 4 0) u.sender u.batch }
    | none, none => none
  match made with
  | none => back (s.countRefusal u.home) (.loc 1) first.1 first.2.1 u.sender
  | some g =>
    if u.entry.any fun t => t != g.tmpl then back (s.countRefusal u.home) (.status 4) first.1 first.2.1 g.home
    else
      match s.pe.tmplOf g.tmpl with
      | none => back (s.countRefusal u.home) (.loc 1) first.1 first.2.1 g.home
      | some tp =>
        let new := (s.pe.instOf u.inst).isNone
        let seen (g : GraphInst) : GraphInst := { g with serial := g.serial + 1 }
        let r : Except (Verdict × BitVec 64 × BitVec 64) GraphInst := u.marked.foldl (fun acc it =>
          match acc with
          | .error e => .error e
          | .ok g => s.applyItem tp it.2 new g it.1) (.ok g)
        match r with
        | .error (v, loc, time) =>
          let s := (s.countRefusal g.home).modInst u.inst seen
          let s := if new then s else s.publish tp g (seen g) u.sender
          back s v loc time g.home
        | .ok g' =>
          let g' := seen g'
          let s := if new then { s with pe := { s.pe with insts := s.pe.insts ++ [g'] } } else s.modInst u.inst fun _ => g'
          let bad := (u.marked.filter (·.2)).length
          let s := { s with pe := { s.pe with poison := vput s.pe.poison g.home (min (vat s.pe.poison g.home + bad) (2 ^ 64 - 1)) } }
          let s := s.publish tp g g' u.sender new
          let s := s.accepted u
          (back s .ok first.1 first.2.1 g.home).retireInst u.inst

/-- R278, R369: the PBATCH packets of a batch for a home on another module; its items are laid out as log 17 says. -/
def State.batchItems (s : State) (u : Update) (node : Nat) : List FlowItem :=
  (List.range ((u.items.length + 84) / 85)).map fun i =>
    let bs := ((u.items.drop (85 * i)).take 85).flatMap fun (l, t, k) =>
      leBytes 8 l.toNat ++ leBytes 8 t.toNat ++ leBytes 4 (BitVec.ofInt 32 k).toNat ++ leBytes 4 (if u.poison then 1 else 0)
    { p := { s.packetTo kPBATCH u.sender node u.home true with nbytes := BitVec.ofNat 12 bs.length, payload := bs }, use := .batch u.uid }

/-- R282, R374: an update for a home on another module goes on the ordered flow of its sender, and its verdict is there after the fabric
round trip, when all of it has been acknowledged. FREE VALUE: the verdict, one of those that R282 has the home give (log 31). -/
def State.farUpdate (s : State) (u : Update) (node : Nat) : State :=
  let mark (s : State) : State := { s with pe := { s.pe with updates := s.pe.updates.map fun (x : Update) => if x.uid = u.uid then { x with sent := true } else x } }
  if !u.sent then
    match s.flowSend (peCtx u.sender) u.sender node true (s.batchItems u node) with
    | some s => mark s
    | none => s.schedule 1 .countUpdateApply { n0 := u.uid }
  else if s.usePending (.batch u.uid) then s
  else
    let (k, s) := s.freeCyc 0 3
    let (f, s) := s.freeWord
    let v : Verdict := if k = 0 then .ok else if k = 1 then .regress f else .full (k - 1)
    let it := u.items.headD (0, 0, 0)
    let s := { s with pe := { s.pe with updates := s.pe.updates.filter fun x => x.uid != u.uid } }
    let s := if k = 0 then s.accepted u else s
    match u.core with
    | none => s
    | some n =>
      let m : VerdictMsg := { uid := u.uid, core := n, what := v, loc := it.1, time := it.2.1 }
      ({ s with pe := { s.pe with verdicts := s.pe.verdicts ++ [m] } }).schedule 0 .progressVerdict { n0 := n, n1 := u.uid }

/-- R278: batches of a sender are applied in their order. -/
def State.inOrder (s : State) (home sender batch : Nat) : Bool :=
  decide (batch = 0) || vat (vat s.pe.applied home) sender + 1 == batch

/-- COUNT_UPDATE_APPLY (R277). -/
def execCountUpdateApply (s : State) : Out :=
  match s.pe.updates.find? fun u => u.uid == s.ev.n0 with
  | none => .next s
  | some u =>
    match u.away with
    | some node => .next (s.farUpdate u node)
    | none =>
      if s.inOrder u.home u.sender u.batch then .next (s.applyUpdate u)
      else .next (s.schedule 1 .countUpdateApply { n0 := u.uid })

/-! Accesses performed at a scope (R251, R252). -/

/-- The path of the load a fill waits for, while it has not been performed. -/
def Fill.openPath (f : Fill) : Option Nat :=
  match f.src with
  | .load _ _ _ _ p => some p
  | .remote _ _ p _ _ => some p
  | .atomic => some 6
  | .request op _ _ => if op = 0 then some 6 else none
  | _ => none

/-- R251, R252: every access that a thread has issued on some paths is performed at a scope: those of a collective and of PSREG are of
the PGE path, and the log that a popped batch writes is of the TFE path. The writes of a command are waited for once the thread has
observed its completion (log 120). -/
def State.performed (s : State) (n : Nat) (paths : Nat → Bool) (scope : Nat) : Bool :=
  let c := s.coreAt n
  let die := dieOf n
  (s.mem.flying.all fun f => !(f.core == n && paths f.path && (f.path == 0 || f.path == 1 || f.path == 6))) &&
  (c.q.pad.all fun w => decide (w.due ≤ s.cyc) || !paths (if w.vec then 1 else 0)) &&
  (c.q.fills.all fun f => match f.openPath with | some p => !paths p | none => true) &&
  (!paths 6 || s.pe.colls.all fun k => !(k.core == n && k.thread == c.task.thread && k.stage != 4)) &&
  (s.mem.emitted.all fun w => match w.org with
    | some (m, p) => m != n || !paths p || w.who.any (fun u => (c.cmdOf u).isSome || c.eng.unseen.any fun x => x.1 == u) || (if scope ≤ 2 then !w.todo.contains die else w.todo.isEmpty)
    | none => true)

end Sys2Proof.Machine
end

