-- ==== Sys2Proof/Machine/ProgressIssue.lean ====
section
/-! DEFINITION. Posting, waiting and polling, template registration, gang barriers and fences (14 R250 to R254, 16 R270 to R272,
R281 to R285). -/

namespace Sys2Proof.Machine

open Sys2Proof Decode

/-! Instructions that hold until a verdict returns (R282). -/

/-- The trap of a refusal. -/
def refusalTrap (m : VerdictMsg) : Option TrapInfo :=
  match m.what with
  | .ok => none
  | .status _ => none
  | .loc d => some (trapOf PROGRESS_LOC d m.loc m.time)
  | .regress f => some (trapOf FRONTIER_REGRESSION 0 m.loc m.time f)
  | .full d => some (trapOf PROGRESS_FULL d m.loc m.time)
  | .join d => some (trapOf JOIN_UNDERFLOW d m.loc m.time)

/-- The verdict of the instruction being held, once it has returned. -/
def State.verdictHere (s : State) (u : Nat) : Option VerdictMsg := s.pe.verdicts.find? fun m => m.uid == u && m.here

/-- An instruction that sends something to a home and holds until the verdict returns: `send` is its first cyc, `done` its last. -/
def awaitVerdict (send : State → Res) (done : State → VerdictMsg → Res) (s : State) : Res :=
  match s.core.q.verdict with
  | none => if predOn s.core.q s.core.q.ir then send s else .done s
  | some u =>
    match s.verdictHere u with
    | none => .hold s
    | some m =>
      match refusalTrap m with
      | some t => .trap t
      | none => done { s with pe := { s.pe with verdicts := s.pe.verdicts.filter fun x => x.uid != u } } m

/-- R327: the member has executed an instruction that posts or launches. -/
def State.hasPosted (s : State) : State := { s with core := s.core.modTask fun t => { t with posted := true } }
/-- The instruction holds for verdict `u`. -/
def State.holdVerdict (s : State) (u : Nat) : State := s.modQ fun q => { q with verdict := some u }

/-- A refusal at the sender: it returns like a verdict, and the sender's Progress Engine counts it (R275). Nothing has left the core's
die; the update has left the core (R387). -/
def State.refuseHere (s : State) (what : Verdict) (loc time : BitVec 64) : Res :=
  let (u, s) := s.takeUid
  let m : VerdictMsg := { uid := u, core := s.core.num, what := what, loc := loc, time := time }
  let s := { s with pe := { s.pe with verdicts := s.pe.verdicts ++ [m] } }
  let s := { s.countRefusal s.die with core := s.core.irrevocable }
  .hold ((s.scheduleIn 5 90 .progressVerdict { n0 := s.core.num, n1 := u }).holdVerdict u)

/-! Posts (R281). -/

def scopeOk (f : Fields) : Bool := decide (f.md.toNat ≤ 4)
def countOk (f : Fields) : Bool := decide (1 ≤ f.imm.toNat ∧ f.imm.toNat < 2 ^ 16)
def shPcinc (f : Fields) : Shape := { plainTy f with sa := .s, sb := .s, immOk := countOk f }
def shPcdec (f : Fields) : Shape := { shPcinc f with mdOk := scopeOk f }

/-- R260, R282: a release holds before its update leaves the core. -/
def releaseHold (scope : Nat) (s : State) : Option State :=
  if s.core.q.verdict.isNone && !s.performed s.core.num (fun _ => true) scope then some s else none

def postCount (delta : Int) (s : State) : Res :=
  let loc := s.srcA
  let time := s.srcB
  match s.findLoc loc with
  | .error d => s.refuseHere (.loc d) loc time
  | .ok (g, _, _, d) =>
    if badTime time d then s.refuseHere (.loc 3) loc time
    else
      let r := s.post s.die g [(loc, time, delta)] false (some s.core.num) (some s.core.num)
      .hold ((if 0 < delta then r.2.hasPosted else r.2).holdVerdict r.1)

/-- PCINC (R281). -/
def execPcinc (s : State) : Out :=
  issueWith (shPcinc s.core.q.ir) none noHold true
    (awaitVerdict (fun s => postCount (s.core.q.ir.imm.toNat % 65536 : Nat) s) fun s _ => .done s) s
/-- PCDEC (R281). -/
def execPcdec (s : State) : Out :=
  issueWith (shPcdec s.core.q.ir) none (releaseHold (s.core.q.ir.md.toNat % 8)) true
    (awaitVerdict (fun s => postCount (-(s.core.q.ir.imm.toNat % 65536 : Nat)) s) fun s _ => .done s) s

/-! Waits and polls (R283, R284). -/

def shFwait (f : Fields) : Shape :=
  { plainTy f with dst := .s, sa := .s, sb := .s, emp := .long, immOk := decide (immBits f 0 8 = 0), tokOk := decide (engWmax f ≠ 0) }
def shFpoll (f : Fields) : Shape := { plainTy f with dst := .s, sa := .s, emp := .long, mdOk := decide (f.md.toNat ≤ 1) }
def shPsreg (f : Fields) : Shape := { plainTy f with dst := .s, sa := .s, emp := .long }

/-- R283: a 17th wait does not issue. -/
def fwaitHold (s : State) : Option State := if 16 ≤ s.core.q.pgWait then some s else none

/-- The newest notice that the core's own engine holds of a location. -/
def State.heldNotice (s : State) (loc : BitVec 64) : Option Notice := s.pe.notices.find? fun n => n.die == s.die && n.loc == loc

/-- A wait or poll is accepted by the core's own engine. -/
def State.acceptWait (s : State) (g : GraphInst) (loc time : BitVec 64) (poll st : Bool) (limit : Nat) : State :=
  let need := vat g.sent s.die
  let (u, s) := s.fillLater (some (.s s.core.q.ir.dst)) (.frontier loc time poll st need)
  let s := if limit = 0 then s else
    (s.modQ fun q => { q with fills := q.fills.map fun (f : Fill) =>
      if f.uid = u then { f with limit := limit, waits := some (loc, time) } else f }).schedule
      (64 * limit) .stall { n0 := s.core.num, n1 := u, n2 := 16 }
  match s.heldNotice loc with
  | some n => match n.word time poll st need with
    | some w => s.resolveFill s.core.num u w 20 60
    | none => s
  | none => s

/-- A wait or poll that fills at once. -/
def State.waitRefused (s : State) (w : Word) (lo hi : Nat) : State :=
  s.fillIn (some (.s s.core.q.ir.dst)) (.value (.word w)) lo hi

def BADLOC : Word := 0xC000000000000000
def BADTIME : Word := 0x9000000000000000

def fwaitBody (s : State) : Res :=
  let loc := s.srcA
  let time := s.srcB
  match s.findLoc loc with
  | .error _ => .done (s.waitRefused BADLOC 1 1)
  | .ok (g, _, _, d) =>
    if badTime time d then .done (s.waitRefused BADTIME 1 1)
    else .done (s.acceptWait g loc time false false (engWmax s.core.q.ir))

def fpollBody (s : State) : Res :=
  let loc := s.srcA
  let st := s.core.q.ir.md.getLsbD 0
  match s.findLoc loc with
  | .error _ => .done (s.waitRefused (if st then BADLOC else 0xFFFFFF0000000000) 20 60)
  | .ok (g, _, _, _) => .done (s.acceptWait g loc 0 true st 0)

/-- FWAIT (R283). -/
def execFwait (s : State) : Out := issueWith (shFwait s.core.q.ir) none fwaitHold false fwaitBody s
/-- FPOLL (R284). -/
def execFpoll (s : State) : Out := issue (shFpoll s.core.q.ir) none fpollBody s

/-- R283, R325: the watchdog of an FWAIT: once for it, before the next instruction. -/
def State.fwaitStall (s : State) (n u : Nat) : State :=
  match (s.coreAt n).q.fillOf u with
  | none => s
  | some f =>
    match f.waits with
    | some (loc, time) =>
      let s := s.engineStall n u (stallWord 0 3 0 0 15 5) loc time [f.pc.setWidth 64]
      s.modCore n fun c => c.modQ fun q => { q with fills := q.fills.map fun (x : Fill) => if x.uid = u then { x with stalled := true } else x }
    | none => s

/-- STALL (R225): the watchdog of a command, a walker or an FWAIT has expired; `n1` names it, `n2` is the FIFO and the kind, or
16 for an FWAIT. -/
def execStall (s : State) : Out := if s.ev.n2 = 16 then .next (s.fwaitStall s.ev.n0 s.ev.n1) else .next (s.queueStall s.ev.n0 s.ev.n1 s.ev.n2)

/-! Registering a template (R270 to R272). -/

/-- The bytes of a table at a virtual address, as the core's die sees them. -/
def State.tableBytes (s : State) (c : CoreSt) (va len : Nat) : Option (List Byte) :=
  if 2 ^ 51 < va + len then none
  else
    let poisoned := (extentPieces va len).any fun (a, k) => match s.placeVa c.task (dieOf c.num) a .read with
      | .ok p => s.badPiece { va := a, len := k, node := p.node, die := p.die, pa := p.pa, pte := p.pte }
      | .error (.remote _) => false
      | .error _ => true
    if poisoned then none
    else match s.plainVa c va len with
      | .ok bs => some bs
      | .error _ => none

/-- The template of a table from its header and the entries that could be read, or the lowest detail that applies; `whole` says that
every entry could be read. An edge names an undeclared location only where every declaration is known. -/
def templateOf (h : Nat) (es : List Nat) (whole : Bool) (sp : Space) (va : Nat) : Except Nat Template :=
  let e (w lo n : Nat) : Nat := nbits w lo n
  let kind (w : Nat) : Nat := e w 62 2
  let deps := es.filter fun w => kind w == 1
  let eds := es.filter fun w => kind w == 2
  let key (w : Nat) : Nat × Nat := (e w 46 16, e w 42 4)
  let tkey (w : Nat) : Nat × Nat := (e w 26 16, e w 22 4)
  let keys := deps.map key
  let depths := deps.map fun w => e w 0 2 + 1
  let at_ (k : Nat × Nat) : Option Nat := (List.range keys.length).find? fun i => keys.getD i (0, 0) == k
  let bad1 := e h 0 16 != 0 || e h 115 13 != 0 || e h 64 3 != 0 ||
    (es.any fun w => e w 16 6 != 0 || (kind w != 1 && kind w != 2)) ||
    (deps.any fun w => tkey w != (0, 0) || e w 2 14 != 0) || !keys.Nodup ||
    (whole && eds.any fun w => (at_ (key w)).isNone || (at_ (tkey w)).isNone)
  let edges := eds.filterMap fun w => match at_ (key w), at_ (tkey w) with
    | some a, some b => some (a, b, BitVec.ofNat 16 w)
    | _, _ => none
  let bad2 := edges.any fun (a, b, x) =>
    let da := depths.getD a 1
    decide (da ≤ sumLv x) || decide (depths.getD b 1 ≠ da - sumLv x + sumEn x)
  let fwbase := e h 64 51
  let fwslots := e h 48 16
  let nent := e h 32 16
  let bad3 := decide (nent = 0 ∨ 4096 < nent ∨ 256 < deps.length) || (fwbase != 0 && fwslots == 0)
  if bad1 then .error 1 else if bad2 then .error 2
  else match reachTable depths edges with
    | .error d => .error d
    | .ok r =>
      if bad3 then .error 3 else if !whole then .error 4
      else .ok { tmpl := BitVec.ofNat 16 (e h 16 16),
                 locs := deps.map fun w => (BitVec.ofNat 16 (key w).1, BitVec.ofNat 4 (key w).2, e w 0 2 + 1),
                 edges := edges, reach := r, fwbase := fwbase, fwslots := fwslots, space := sp, table := va }

/-- What PSREG reads of a table on another module: its header, then its entries. -/
def State.tableWants (s : State) (c : CoreSt) (ok : List (Place × Nat) → Bool) (va : Nat) : List (Place × Nat) :=
  let h := s.farOf c.task (dieOf c.num) [(va, 16)]
  if va % 16 ≠ 0 ∨ !ok h then h
  else h ++ s.farOf c.task (dieOf c.num) [(va + 16, 8 * nbits (leNat ((s.tableBytes c va 16).getD [])) 32 16)]
/-- PSREG's request at the Progress Engine: the word it fills. -/
def State.registerTemplate (s : State) (n va : Nat) : Word × State :=
  let c := s.coreAt n
  let fail (d : Nat) : Word × State := (BitVec.ofNat 64 (2 ^ 63 + d), s)
  if va % 16 ≠ 0 then fail 1
  else match s.tableBytes c va 16 with
    | none => fail 4
    | some hb =>
      let h := leNat hb
      let nent := nbits h 32 16
      let es := (List.range nent).filterMap fun i => (s.tableBytes c (va + 16 + 8 * i) 8).map leNat
      match templateOf h es (es.length == nent) c.task.space va with
      | .error d => fail d
      | .ok tp =>
        if s.pe.insts.any fun g => g.tmpl == tp.tmpl then fail 5
        else (0, { s with pe := { s.pe with templates := tp :: s.pe.templates.filter fun x => x.tmpl != tp.tmpl } })

/-- PSREG (R271). -/
def execPsreg (s : State) : Out :=
  issue (shPsreg s.core.q.ir) none (fun s =>
    let a := s.srcA.toNat
    .done ((s.fillIn (some (.s s.core.q.ir.dst)) (.request 0 a 0) 2000 40000).sendStore 6 .post 4 12)) s

/-! Gang barrier (R285). -/

def shGbar (f : Fields) : Shape :=
  { plainTy f with dst := .s, emp := .long, pred := false, immOk := decide (immBits f 2 6 = 0), tokOk := decide (engWmax f ≠ 0) }

def State.gangOf (s : State) (c : CoreSt) : Option Gang := c.task.gang.bind fun i => s.sched.gangs.find? fun g => g.id == i
def State.modGang (s : State) (i : Nat) (f : Gang → Gang) : State :=
  { s with sched := { s.sched with gangs := s.sched.gangs.map fun (g : Gang) => if g.id = i then f g else g } }

/-- A barrier that every member has reached, killed members counted, is released: 4 cyc later, at once in a gang of one. -/
def Gang.settleBar (g : Gang) (cyc i : Nat) : Gang :=
  let b := vat g.bars i
  if b.arrived.isEmpty || !(g.members.all fun m => b.arrived.contains m || g.dead.contains m) then g
  else
    let b' : BarSt := { gen := b.gen + 1, arrived := [], passing := b.passing ++ b.arrived,
                        release := cyc + (if g.members.length = 1 then 0 else 4) }
    { g with bars := vput g.bars i b' }

/-- The fill of a barrier: the generation and ERR. -/
def barrierFill (s : State) (gen : BitVec 32) (err : Bool) : State :=
  let (u, s) := s.addFill (some (.s s.core.q.ir.dst)) (.value (.word (BitVec.ofNat 64 ((if err then 2 ^ 63 else 0) + gen.toNat)))) 2
  s.schedule 2 .longLatencyFill { n0 := s.core.num, n1 := u }

def barrierStall (s : State) (i : Nat) (gen : BitVec 32) : Res :=
  .trap { cause := STALL, a0 := stallWord 0 3 0 0 15 6, a1 := BitVec.ofNat 64 i, a2 := gen.setWidth 64, async := true }

def gbarBody (s : State) : Res :=
  let n := s.core.num
  let i := immBits s.core.q.ir 0 2
  let covered := s.performed n (fun _ => true) 1
  match s.gangOf s.core with
  | none =>
    if !covered then (if s.holdPassed then barrierStall s i (vat s.core.task.soloBar i) else .hold s)
    else
      let gen := vat s.core.task.soloBar i + 1
      .done (barrierFill { s with core := s.core.modTask fun t => { t with soloBar := vput t.soloBar i gen } } gen false)
  | some g =>
    let b := vat g.bars i
    let s := if covered && !b.arrived.contains n && !b.passing.contains n then
      s.modGang g.id fun g => ({ g with bars := vput g.bars i { b with arrived := b.arrived ++ [n] } }).settleBar s.cyc i else s
    match s.gangOf s.core with
    | none => .hold s
    | some g =>
      let b := vat g.bars i
      if b.passing.contains n && decide (b.release ≤ s.cyc) then
        let s := s.modGang g.id fun g => { g with bars := vput g.bars i { b with passing := b.passing.filter fun m => m != n } }
        .done (barrierFill s b.gen (!g.dead.isEmpty))
      else if s.holdPassed then barrierStall s i b.gen
      else .hold s

/-- GBAR (R285). -/
def execGbar (s : State) : Out := issue (shGbar s.core.q.ir) none gbarBody s

/-! Fences (R250, R253). -/

/-- Every field but MOD[2:0] and IMM24 is zero; a nonzero one is detail 4. -/
def fenceZero (f : Fields) : Bool := decide (f.ty = 0) && !f.md.getLsbD 3 && decide (f.emp = 0)
def fenceScope (f : Fields) : Bool := decide (f.md.toNat % 8 ≤ 4)
def shFence (f : Fields) : Shape :=
  { mdOk := fenceScope f, immOk := fenceZero f && decide (1 ≤ f.imm.toNat ∧ f.imm.toNat < 256) }
def shPfence (f : Fields) : Shape :=
  { mdOk := fenceScope f,
    immOk := fenceZero f && !f.imm.getLsbD 3 && decide (f.imm.toNat < 128) && decide (immBits f 0 3 ≠ immBits f 4 3) }

def fenceHold (paths : Nat → Bool) (s : State) : Option State :=
  if s.performed s.core.num paths (s.core.q.ir.md.toNat % 8) then none else some s

/-- FENCE (R253). -/
def execFence (s : State) : Out :=
  issueWith (shFence s.core.q.ir) none (fenceHold fun p => s.core.q.ir.imm.getLsbD p) false .done s
/-- PFENCE (R250). -/
def execPfence (s : State) : Out :=
  issueWith (shPfence s.core.q.ir) none (fenceHold fun p => p == immBits s.core.q.ir 0 3) false .done s

end Sys2Proof.Machine
end

