-- ==== Sys2Proof/Machine/Atomics.lean ====
section
/-! DEFINITION. Atomics and remote reductions (16 R286 to R289). -/

namespace Sys2Proof.Machine

open Sys2Proof Decode

/-! What an atomic computes (R286). Operations are numbered 0 ADD, 1 AND, 2 OR, 3 XOR, 4 MIN, 5 MAX, 6 XCHG, 7 CAS. -/

def tyInt4 (t : BitVec 4) : Bool := decide (t = 0xA ∨ t = 0xB ∨ t = 0xE ∨ t = 0xF)
def atomicTy (op : Nat) (t : BitVec 4) : Bool :=
  tyInt4 t || (decide (t = 1) && !(1 ≤ op ∧ op ≤ 3)) || (decide (t = 0) && decide ((1 ≤ op ∧ op ≤ 3) ∨ 6 ≤ op))
/-- Bytes of an element: 4 for I32, N32 and F32, else 8. -/
def atomicBytes (t : BitVec 4) : Nat := if t = 1 ∨ t = 0xA ∨ t = 0xE then 4 else 8

/-- The new value from the old value `o`, the data `d` and, for CAS, the word `e` stored on a match. -/
def atomicNew (op : Nat) (t : BitVec 4) (o d e : Nat) : Nat :=
  let w := 8 * atomicBytes t
  let o := o % 2 ^ w
  let d := d % 2 ^ w
  let m := scalarFmt t
  if op = 1 then Nat.land o d
  else if op = 2 then Nat.lor o d
  else if op = 3 then Nat.xor o d
  else if op = 6 then d
  else if op = 7 then (if o = d then e % 2 ^ w else o)
  else if t = 1 then
    let a := decodeFloat .f32 o
    let b := decodeFloat .f32 d
    let v := if op = 0 then Sem.add false a b else if op = 4 then minV a b else maxV a b
    (roundF .f32 {} v { lfsr := 0 }).1
  else
    let a := intVal m o
    let b := intVal m d
    let v : Int := if op = 0 then a + b else if op = 4 then min a b else max a b
    (v % (2 ^ w : Nat)).toNat
/-- What a returning form fills: sign-extended for I32. -/
def atomicFill (t : BitVec 4) (o : Nat) : Word :=
  if t = 0xA then (BitVec.ofNat 32 o).signExtend 64 else BitVec.ofNat 64 (o % 2 ^ (8 * atomicBytes t))

/-! Issue (R286, R287). -/

def shAtomic (op : Nat) (nr : Bool) (f : Fields) : Shape :=
  { dst := if nr then .unused else .s, sa := if op = 7 then .pair else .s, sb := .s,
    tyOk := atomicTy op f.ty && (decide (f.md.toNat % 8 ≠ 7) || decide (f.ty = 0 ∨ f.ty = 0xB ∨ f.ty = 0xF)),
    mdOk := decide (f.md = 0 ∨ f.md = 7), emp := if nr then .zero else .must }

/-- R287, R219: the checks of an extent, then its translation for reading and for writing, of which the lowest detail counts; R273: an atomic reads first, so that a word of an
overflow area is refused with the detail of a read, whatever the entry's W bit says. -/
def State.atomicPlace (s : State) (ea : Word) (width extent space : Nat) : Xlat :=
  let t (c d : Nat) : TrapInfo := trapOf c d ea (BitVec.ofNat 64 space)
  if ea.toNat / 2 ^ 51 ≠ 0 then .trap (t ADDR_RANGE 0)
  else if ea.toNat % width ≠ 0 then .trap (t MISALIGNED 0)
  else if 2 ^ 51 < ea.toNat + extent then .trap (t ADDR_RANGE 0)
  else
    match s.xlat ea.toNat extent .read (space = 7) (t PAGE_FAULT), s.xlat ea.toNat extent .write (space = 7) (t PAGE_FAULT) with
    | .pieces ps, w =>
      if s.overflowArea ps then .trap (t PAGE_FAULT 3)
      else (match w with
        | .pieces _ => .pieces ps
        | x => x)
    | .trap r, .trap w => .trap (if w.detail < r.detail then w else r)
    | x, _ => x

/-- R165, R288: what an atomic carries to its home: the tensor entry of its page, and the address space in which it is translated again. -/
def State.atomicPiece (s : State) (p : PagePiece) : PagePiece :=
  let q := s.viewed s.core.num p
  { q with view := { q.view with space := s.core.task.space } }

def atomicBody (op : Nat) (nr : Bool) (s : State) : Res :=
  let f := s.core.q.ir
  let w := atomicBytes f.ty
  let space := f.md.toNat % 8
  let ea := effAddr s.srcB f
  match s.atomicPlace ea w w space with
  | .trap t => .trap t
  | .hold t => .hold t
  | .fault e => .fault e
  | .pieces ps =>
    match ps.head? with
    | none => .done s
    | some p =>
      let (p, s) := (s.atomicPiece p, (s.carryAll s.core.num ps).2)
      let d := s.srcA
      let e := if op = 7 then s.core.q.getS (f.sa.toNat + 1) else 0
      if p.node ≠ s.fab.node.toNat then
        if !nr || decide (6 ≤ op) then .trap (trapOf REMOTE_ATOMIC 0 ea (BitVec.ofNat 64 space))
        else .done (s.sendStore 6 (.red p op f.ty (leBytes w d.toNat)) 4 12)
      else if nr then .done (s.sendStore 6 (.atomic p op f.ty d e none) 4 12)
      else
        let r := s.fillLater (some (.s f.dst)) .atomic
        .done (r.2.sendStore 6 (.atomic p op f.ty d e (some r.1)) 4 12)

def atomicIssue (op : Nat) (nr : Bool) (s : State) : Out := issue (shAtomic op nr s.core.q.ir) none (atomicBody op nr) s
/-- AADD (R286). -/
def execAadd (s : State) : Out := atomicIssue 0 false s
/-- AAND (R286). -/
def execAand (s : State) : Out := atomicIssue 1 false s
/-- AOR (R286). -/
def execAor (s : State) : Out := atomicIssue 2 false s
/-- AXOR (R286). -/
def execAxor (s : State) : Out := atomicIssue 3 false s
/-- AMIN (R286). -/
def execAmin (s : State) : Out := atomicIssue 4 false s
/-- AMAX (R286). -/
def execAmax (s : State) : Out := atomicIssue 5 false s
/-- AXCHG (R286). -/
def execAxchg (s : State) : Out := atomicIssue 6 false s
/-- ACAS (R286). -/
def execAcas (s : State) : Out := atomicIssue 7 false s
/-- AADD.NR (R286). -/
def execAaddNr (s : State) : Out := atomicIssue 0 true s
/-- AAND.NR (R286). -/
def execAandNr (s : State) : Out := atomicIssue 1 true s
/-- AOR.NR (R286). -/
def execAorNr (s : State) : Out := atomicIssue 2 true s
/-- AXOR.NR (R286). -/
def execAxorNr (s : State) : Out := atomicIssue 3 true s
/-- AMIN.NR (R286). -/
def execAminNr (s : State) : Out := atomicIssue 4 true s
/-- AMAX.NR (R286). -/
def execAmaxNr (s : State) : Out := atomicIssue 5 true s
/-- AXCHG.NR (R286). -/
def execAxchgNr (s : State) : Out := atomicIssue 6 true s
/-- ACAS.NR (R286). -/
def execAcasNr (s : State) : Out := atomicIssue 7 true s

/-! Remote reductions (R289). -/

def redTy (op : Nat) (t : BitVec 4) : Bool := decide (t = 0xA ∨ t = 0xE) || (decide (t = 1) && !(1 ≤ op ∧ op ≤ 3))
def shRed (f : Fields) : Shape :=
  { sa := .v, sb := .s, tyOk := redTy (f.md.toNat % 8) f.ty, mdOk := decide (f.md.toNat ≤ 5) }

/-- The lanes whose elements lie in a page. -/
def redLanes (ea : Nat) (p : PagePiece) : List Nat :=
  (List.range 64).filter fun i => decide (p.va ≤ ea + 4 * i ∧ ea + 4 * i < p.va + p.len)

def redBody (s : State) : Res :=
  let f := s.core.q.ir
  let op := f.md.toNat % 8
  let ea := effAddr s.srcB f
  match s.atomicPlace ea 4 256 0 with
  | .trap t => .trap t
  | .hold t => .hold t
  | .fault e => .fault e
  | .pieces ps =>
    let v := s.core.q.getV f.sa.toNat
    let (ps, s) := (ps.map s.atomicPiece, (s.carryAll s.core.num ps).2)
    .done (ps.foldl (fun (s : State) p =>
      let ls := redLanes ea.toNat p
      if p.node ≠ s.fab.node.toNat then s.sendStore 6 (.red p op f.ty (ls.flatMap fun i => leBytes 4 (vat v i).toNat)) 4 12
      else ls.foldl (fun (s : State) i =>
        let va := ea.toNat + 4 * i
        s.sendStore 6 (.atomic { p with va := va, len := 4, pa := p.pa + (va - p.va) } op f.ty ((vat v i).setWidth 64) 0 none) 4 12) s) s)

/-- RED (R289). -/
def execRed (s : State) : Out := issue (shRed s.core.q.ir) none redBody s

/-! At the home (R286, R288). -/

/-- The element as its home has it now, by the operation of an atomic; the tensor entry of a tile-mapped page is the one it carries. -/
def State.applyAtomic (s : State) (core : Nat) (p : PagePiece) (op : Nat) (t : BitVec 4) (d e : Nat) : Nat × State :=
  let c := p.agent core
  let w := atomicBytes t
  let o := leNat (s.plainBytes c p.die p.place p.va w)
  (o, State.plainStore (some (core, 6)) c p.view (w + 1) s p.place p.va (leBytes w (atomicNew op t o d e)))

/-- R288: the new home of a page that has moved since an atomic on it was translated; a page that no longer translates has not moved. -/
def State.movedTo (s : State) (f : InFlight) (p : PagePiece) : Option PagePiece :=
  match s.lookup p.view.space.task (dieOf f.core) p.va with
  | .ok e =>
    let q := s.placeOf e p.va
    if q.node ≠ p.node ∨ q.die ≠ p.die ∨ q.pa ≠ p.pa then some { p with node := q.node, die := q.die, pa := q.pa, pte := q.pte } else none
  | .error _ => none

/-- The fill of a returning atomic (R286): 40 to 120 cyc after issue on its own die, 200 to 600 on another. -/
def State.atomicFills (s : State) (f : InFlight) (p : PagePiece) (reg : Option Nat) (w : Word) : State :=
  match reg with
  | none => s
  | some r => if p.die == dieOf f.core then s.resolveFill f.core r w 20 49 else s.resolveFill f.core r w 100 294

/-- An atomic reaches its home, behind the older accesses it follows. -/
def State.atomicArrive (s : State) (u : Nat) : State :=
  match s.flight u with
  | none => s
  | some f =>
    match f.what with
    | .atomic p op t d e reg =>
      if s.mustFollow f then s.schedule 1 .atomicApply { n0 := u }
      else if (s.movedTo f p).isSome then s.scheduleFrom 1 .atomicMoved { n0 := u }
      else if s.badPiece p then ((s.dropFlight u).atomicFills f p reg 0).consumeError f.core 3
      else
        let r := s.applyAtomic f.core p op t d.toNat e.toNat
        (r.2.dropFlight u).atomicFills f p reg (atomicFill t r.1)
    | _ => s

/-- ATOMIC_APPLY (R286). -/
def execAtomicApply (s : State) : Out := .next (s.atomicArrive s.ev.n0)

/-- R288: an atomic translated again. On this module it is sent to the new home. On another module a form that a remote page accepts
goes on as a remote reduction; what the other forms return there is a free value (log 119). -/
def State.resend (s : State) (f : InFlight) (p : PagePiece) (op : Nat) (t : BitVec 4) (d e : Word) (reg : Option Nat) : State :=
  let again (what : StoreWhat) : State := { s with mem := { s.mem with flying := s.mem.flying.map fun (x : InFlight) =>
    if x.uid = f.uid then { x with what := what } else x } }
  if p.node = s.fab.node.toNat then (again (.atomic p op t d e reg)).scheduleFrom 1 .atomicApply { n0 := f.uid }
  else if reg.isNone ∧ op < 6 then
    (again (.red p op t (leBytes (atomicBytes t) d.toNat))).scheduleFrom 1 .tasterCompare { n0 := f.core, n1 := f.uid, n2 := 1 }
  else
    let (v, s) := s.freeWord
    (s.dropFlight f.uid).atomicFills f p reg (atomicFill t v.toNat)

/-- ATOMIC_MOVED (R288): the atomic is translated again and sent to the new home. -/
def execAtomicMoved (s : State) : Out :=
  match s.flight s.ev.n0 with
  | none => .next s
  | some f =>
    match f.what with
    | .atomic p op t d e reg => .next (s.resend f ((s.movedTo f p).getD p) op t d e reg)
    | _ => .next s

end Sys2Proof.Machine
end

