-- ==== Sys2Proof/Machine/Tasks.lean ====
section
/-! DEFINITION. Task records, template images, join counters, spawning, launching and ending tasks (17 R291 to R300, R304 to
R311). -/

namespace Sys2Proof.Machine

open Sys2Proof Decode

/-! Records (R292) and images (R294). -/

def taskOf (n : Nat) : TaskRec :=
  let f (lo w : Nat) : Nat := nbits n lo w
  { tmpl := BitVec.ofNat 16 (f 240 16), node := BitVec.ofNat 16 (f 224 16), inst := BitVec.ofNat 32 (f 192 32),
    time := BitVec.ofNat 64 (f 128 64), join := BitVec.ofNat 16 (f 112 16), prio := BitVec.ofNat 8 (f 104 8),
    rem := BitVec.ofNat 24 (f 80 24), depth := BitVec.ofNat 6 (f 74 6), idem := f 73 1 == 1, nockpt := f 72 1 == 1,
    tt := f 71 1 == 1, res70 := BitVec.ofNat 7 (f 64 7), arg := BitVec.ofNat 32 (f 32 32), res0 := BitVec.ofNat 32 (f 0 32) }
def taskWord (t : TaskRec) : Nat :=
  let b (x : Bool) : Nat := if x then 1 else 0
  t.tmpl.toNat * 2 ^ 240 + t.node.toNat * 2 ^ 224 + t.inst.toNat * 2 ^ 192 + t.time.toNat * 2 ^ 128 + t.join.toNat * 2 ^ 112
    + t.prio.toNat * 2 ^ 104 + t.rem.toNat * 2 ^ 80 + t.depth.toNat * 2 ^ 74 + b t.idem * 2 ^ 73 + b t.nockpt * 2 ^ 72
    + b t.tt * 2 ^ 71 + t.res70.toNat * 2 ^ 64 + t.arg.toNat * 2 ^ 32 + t.res0.toNat
/-- Its location word and its level. -/
def TaskRec.loc (t : TaskRec) : BitVec 64 := locWord t.inst t.node
def TaskRec.level (t : TaskRec) : Nat := t.prio.toNat / 32

/-- A core of a die that reads in an address space. -/
def Space.core (sp : Space) (die : Nat) : CoreSt :=
  { num := 256 * die, task := sp.task }

/-- R294: a node of a template's image, or none where the image or a rule about it fails; a CODE whose line is on another module is
looked at when its thread fetches (log 108). -/
def State.nodeImage (s : State) (c : CoreSt) (tpldir : Nat) (tmpl node : BitVec 16) : Option NodeImg := do
  let ptr ← (s.tableBytes c (tpldir + 8 * tmpl.toNat) 8).map leNat
  if ptr = 0 then none
  let h ← s.tableBytes c ptr 64
  let hf (lo n : Nat) : Nat := leNat ((h.drop lo).take n)
  let nn := hf 2 2
  if hf 0 2 ≠ tmpl.toNat ∨ nn = 0 ∨ 256 < nn ∨ hf 4 4 ≠ 0 ∨ hf 16 48 ≠ 0 ∨ nn ≤ node.toNat then none
  let b ← s.tableBytes c (ptr + 64 + 192 * node.toNat) 192
  let f (lo n : Nat) : Nat := leNat ((b.drop lo).take n)
  let tp ← s.pe.tmplOf tmpl
  let me ← tp.index node 0
  if hf 8 8 ≠ tp.table then none
  let succs := (List.range (f 16 1)).map fun j => (BitVec.ofNat 16 (f (32 + 8 * j) 2), BitVec.ofNat 16 (f (34 + 8 * j) 2), f (36 + 8 * j) 4)
  let badSucc := succs.any fun (n, x, z) => z != 0 ||
    (match tp.index n 0 with | some (k, _) => !tp.edges.contains (me.1, k, x) | none => true)
  let code := f 0 8
  let aff := f 15 1
  if code % 128 ≠ 0 ∨ 2 ^ 51 ≤ code ∨ s.badTarget c (BitVec.ofNat 51 code) false ∨ 127 < f 8 1 ∨ 3 < f 9 1 ∨ 4 < f 10 1 ∨ f 11 1 = 0 ∨ 64 < f 11 1 ∨ 4096 < f 12 2 ∨ f 14 1 = 0 ∨
      (aff ≠ 0xFF ∧ 7 < aff) ∨ 4 < f 16 1 ∨ 8 < f 17 1 ∨ f 18 6 ≠ 0 ∨ badSucc then none
  some { code := BitVec.ofNat 51 code, gang := f 8 1, therm := f 9 1, scope := f 10 1, pwr := f 11 1, frame := f 12 2, joinN := f 14 1,
         aff := aff, succs := succs.map fun (n, x, _) => (n, x), args := (List.range (f 17 1)).map fun j => (f (64 + 16 * j) 8, f (72 + 16 * j) 8),
         stats := f 24 8, depth := me.2 }

/-- What the image of a node reads on another module: the directory's entry, then the header and the node's block. -/
def State.imageWants (s : State) (c : CoreSt) (ok : List (Place × Nat) → Bool) (tpldir : Nat) (tmpl node : BitVec 16) : List (Place × Nat) :=
  let t := c.task
  let d := dieOf c.num
  let a := s.farOf t d [(tpldir + 8 * tmpl.toNat, 8)]
  if !ok a then a
  else match (s.tableBytes c (tpldir + 8 * tmpl.toNat) 8).map leNat with
    | none => a
    | some ptr => if ptr = 0 then a else a ++ s.farOf t d [(ptr, 64), (ptr + 64 + 192 * node.toNat, 192)]

/-- R293: the image of a record's node, or none where the record is malformed. -/
def State.recordImage (s : State) (c : CoreSt) (tpldir : Nat) (t : TaskRec) : Option NodeImg :=
  if t.res70 ≠ 0 ∨ t.res0 ≠ 0 then none
  else match s.nodeImage c tpldir t.tmpl t.node with
    | some i => if badTime t.time i.depth then none else some i
    | none => none

/-- R300: the cluster whose queue a record joins. -/
def clusterFor (i : NodeImg) (dflt : Nat) : Nat := if i.aff = 0xFF then dflt else i.aff % 8

/-- TPLDIR of a core's context. -/
def TaskSt.tpl (t : TaskSt) : Nat := t.tpldir.toNat

/-- R296: a record about to be placed by a core. -/
def CoreSt.placing (c : CoreSt) (t : TaskRec) (i : NodeImg) (pool : Bool) : Placed :=
  { uid := 0, task := t, img := i, cluster := clusterFor i (clusterOf c.num), space := c.task.space, tpldir := c.task.tpl,
    thread := if pool then some c.task.thread else none, poolDie := dieOf c.num }

/-- R304: pool records, those of batches under way among them, of a thread and of a die. -/
def State.pooled (s : State) : List Placed := s.sched.placed ++ s.pe.updates.flatMap (·.records)
def State.poolUse (s : State) (thread : Nat) : Nat := (s.pooled.filter fun r => r.thread == some thread).length
def State.poolFill (s : State) (d : Nat) : Nat := (s.pooled.filter fun r => r.thread.isSome && r.poolDie == d).length

/-! TSPAWN and TENQ (R305, R306, R310). -/

def shTspawn (f : Fields) : Shape := { plainTy f with dst := .s, emp := .long, sa := .s, sb := .s }
def shTenq (f : Fields) : Shape := { plainTy f with dst := .s, emp := .long, sa := .s }

/-- The address checks of `n` records. -/
def State.recordPlace (s : State) (a : Word) (n : Nat) : Xlat :=
  if a.toNat / 2 ^ 51 ≠ 0 ∨ 2 ^ 51 < a.toNat + 32 * n then .trap (trapOf ADDR_RANGE 0 a)
  else if a.toNat % 32 ≠ 0 then .trap (trapOf MISALIGNED 0 a)
  else s.xlat a.toNat (32 * n) .read false (fun d => trapOf PAGE_FAULT d a)

/-- Records at an address, as plain loads of the core return them. -/
def State.recordsAt (s : State) (c : CoreSt) (a n : Nat) : List TaskRec :=
  match s.plainVa c a (32 * n) with
  | .ok bs => (List.range n).map fun i => taskOf (leNat ((bs.drop (32 * i)).take 32))
  | .error _ => List.replicate n { res0 := 1 }
/-- What `n` records and the images of their nodes read on another module. -/
def State.recordsWants (s : State) (ok : List (Place × Nat) → Bool) (a n : Nat) : List (Place × Nat) :=
  let c := s.core
  let r := s.farOf c.task s.die [(a, 32 * n)]
  if !ok r then r else r ++ (s.recordsAt c a n).flatMap fun t => s.imageWants c ok c.task.tpl t.tmpl t.node

/-- The hold of a release at MODULE after the address checks of `n` records; a check that traps is left to the effect. Records and images
on another module are asked for and waited for (log 109). -/
def recordHold (a : State → Word) (n : State → Nat) (s : State) : Option State :=
  if s.core.q.verdict.isSome then none
  else
    let wait (s : State) : Option State := if s.performed s.core.num (fun _ => true) 3 then none else some s
    if n s = 0 then wait s
    else match s.recordPlace (a s) (n s) with
      | .hold t => some t
      | .trap _ => if predOn s.core.q s.core.q.ir then none else wait s
      | .fault _ => none
      | .pieces _ => match s.farHold fun ok => s.recordsWants ok (a s).toNat (n s) with
        | some t => some t
        | none => wait s

/-- The fill of a decided status, 2 to 6 cyc later; the instruction has been executed (R327). -/
def statusFill (s : State) (status index : Nat) : Res :=
  .done (s.hasPosted.fillIn (some (.s s.core.q.ir.dst)) (.value (.word (BitVec.ofNat 64 (index % 256 * 256 + status)))) 2 6)

/-- R308: a member has executed TEXIT.DROP, one that has not left its core included. -/
def State.memberDropped (s : State) (g : Gang) (n : Nat) : Bool :=
  g.dropped.contains n || s.mem.flying.any fun f => f.core == n && f.what == .drop g.id

/-- How many records a TSPAWN checks the addresses of. -/
def spawnCount (s : State) : Nat := let n := s.srcB.toNat; if 1 ≤ n ∧ n ≤ 64 then n else 0

def spawnSend (s : State) : Res :=
  let c := s.core
  let go : Res :=
    match s.gangOf c with
    | none => if spawnCount s = 0 then statusFill s 3 0xFF else statusFill s 3 0
    | some g =>
      if g.dropDone || g.members.all (s.memberDropped g) then statusFill s 5 0
      else if spawnCount s = 0 then statusFill s 3 0xFF
      else
        let ts := (s.recordsAt c s.srcA.toNat (spawnCount s)).map fun t => if t.inst = 0 then { t with inst := g.task.inst } else t
        let imgs := ts.map fun t => if t.tmpl = g.task.tmpl ∧ t.inst = g.task.inst then s.recordImage c c.task.tpl t else none
        match (List.range imgs.length).find? fun i => (imgs.getD i none).isNone with
        | some i => statusFill s 3 i
        | none =>
          let n := ts.length
          if c.task.nestmax.toNat < g.task.depth.toNat + 1 then statusFill s 2 0
          else if c.task.poolsz.toNat < s.poolUse c.task.thread + n ∨ 65536 < s.poolFill s.die + n then statusFill s 1 0
          else
            let rs := (ts.zip imgs).map fun (t, i) => c.placing { t with depth := g.task.depth + 1 } (i.getD {}) true
            match s.pe.instOf g.task.inst with
            | none => s.refuseHere (.loc 1) g.task.loc g.task.time
            | some gi =>
              let r := s.post s.die gi (rs.map fun p => (p.task.loc, p.task.time, 1)) false (some c.num) none rs
              .hold (r.2.hasPosted.holdVerdict r.1)
  if spawnCount s = 0 then go
  else match s.recordPlace s.srcA (spawnCount s) with
    | .trap t => .trap t
    | .hold t => .hold t
    | .fault f => .fault f
    | .pieces _ => go

/-- The fill after the verdict of TSPAWN or TENQ. -/
def placedFill (s : State) (m : VerdictMsg) : Res :=
  match m.what with
  | .status w => statusFill s w.toNat 0
  | _ => statusFill s 0 0

/-- TSPAWN (R305). -/
def execTspawn (s : State) : Out :=
  issueWith (shTspawn s.core.q.ir) none (recordHold (·.srcA) spawnCount) true (awaitVerdict spawnSend placedFill) s

def enqSend (s : State) : Res :=
  let c := s.core
  match s.recordPlace s.srcA 1 with
  | .trap t => .trap t
  | .hold t => .hold t
  | .fault f => .fault f
  | .pieces _ =>
    let t : TaskRec := { (s.recordsAt c s.srcA.toNat 1).headD {} with depth := 0 }
    match s.recordImage c c.task.tpl t with
    | none => statusFill s 3 0
    | some i =>
      if t.join ≠ 0 then statusFill s 3 0
      else
        let p := c.placing t i false
        match s.pe.instOf t.inst with
        | some g =>
          if g.tmpl ≠ t.tmpl then statusFill s 4 0
          else
            let r := s.post s.die g [(t.loc, t.time, 1)] false (some c.num) none [p]
            .hold (r.2.hasPosted.holdVerdict r.1)
        | none =>
          -- R275: PECTL refuses new instances; such a TENQ finds no directory entry (log 106)
          if vat s.pe.noNew s.die then s.refuseHere (.loc 1) t.loc t.time
          else
            let r := s.postUpdate { uid := 0, sender := s.die, home := s.die, inst := t.inst, batch := 0, items := [(t.loc, t.time, 1)],
                                    core := some c.num, entry := some t.tmpl, records := [p] }
            .hold (r.2.hasPosted.holdVerdict r.1)

/-- TENQ (R310). -/
def execTenq (s : State) : Out :=
  issueWith (shTenq s.core.q.ir) none (recordHold (·.srcA) fun _ => 1) true (awaitVerdict enqSend placedFill) s

/-! Join decrements (R298, R299, R307). -/

/-- A join decrement for the home: the one of a TJOIN leaves its core after its compare (R383), the device's own at once. No packet
carries one to a home on another module (log 31). -/
def State.postJoin (s : State) (g : GraphInst) (j : JoinMsg) : Nat × State :=
  let (u, s) := s.takeUid
  if g.away.isSome then (u, s)
  else
    let s := { s with pe := { s.pe with joins := s.pe.joins ++ [{ j with uid := u, home := g.home, left := j.core.isNone }] } }
    (u, if j.core.isSome then s.fly (s.accessOf u 6 .post) 4 12 else s.postLeaves u)

def shTjoin (f : Fields) : Shape := { plainTy f with sa := .s, sb := .s }

def joinSend (s : State) : Res :=
  let loc := s.srcA
  let time := s.srcB
  let c := s.core
  match s.findLoc loc with
  | .error d => s.refuseHere (.loc d) loc time
  | .ok (g, _, _, d) =>
    if g.away.isSome then s.refuseHere (.loc 1) loc time
    else if locPort loc ≠ 0 then s.refuseHere (.loc 2) loc time
    else if badTime time d then s.refuseHere (.loc 3) loc time
    else
      let r := s.postJoin g { uid := 0, sender := s.die, inst := g.inst, batch := 0, node := locNode loc, time := time, cluster := clusterOf c.num,
                              prio := 0, idem := false, nockpt := false, tt := false, space := c.task.space, tpldir := c.task.tpl, core := some c.num }
      .hold (r.2.hasPosted.holdVerdict r.1)

/-- TJOIN (R307). -/
def execTjoin (s : State) : Out := issueWith (shTjoin s.core.q.ir) none noHold true (awaitVerdict joinSend fun s _ => .done s) s

/-- A record for the management core to read (R299, R433). -/
def State.quarantine (s : State) (q : Quar) : State :=
  { s with sched := { s.sched with quar := s.sched.quar ++ [q] }, host := { s.host with vector1 := s.host.vector1 + 1 } }

/-- R299: a record leaves its queue and the pool for the quarantine list of its home's die; its count is retired poisoned. -/
def State.quarantineRecordOf (s : State) (home : Nat) (r : Placed) : State :=
  let s := { s with sched := { s.sched with placed := s.sched.placed.filter fun x => x.uid != r.uid } }
  let s := s.quarantine { die := home, task := r.task, core := 0xFFFF, code := 0, tpc := 0, tcause := 0, taux := [] }
  s.retire1 home r.task.loc r.task.time (-1) true

/-- R298, R299: the decrement at the home, and the verdict of a TJOIN. FREE VALUE: REM of a record it creates. -/
def State.applyJoin (s : State) (g : GraphInst) (j : JoinMsg) : State × Verdict :=
  if s.sched.drops.contains (j.inst, j.node, j.time) then (s, .ok)
  else
    match s.sched.placed.find? fun r => !r.admitted && r.task.inst == j.inst && r.task.node == j.node && r.task.time == j.time with
    | some r =>
      if r.task.join = 0 then (s.quarantineRecordOf g.home r, .join 1)
      else
        let r' := { r with task := { r.task with join := r.task.join - 1 } }
        let s := { s with sched := { s.sched with placed := s.sched.placed.map fun (x : Placed) => if x.uid = r.uid then r' else x } }
        (if r'.task.join = 0 then s.makeReady r.uid else s, .ok)
    | none =>
      if j.core.isSome then (s, .join 2)
      else
        let (rem, s) := s.freeFrom 0
        let t : TaskRec := { tmpl := g.tmpl, node := j.node, inst := j.inst, time := j.time, prio := j.prio, rem := BitVec.ofNat 24 rem,
                             idem := j.idem, nockpt := j.nockpt, tt := j.tt }
        let img := s.recordImage (j.space.core g.home) j.tpldir t
        match s.pe.tmplOf g.tmpl with
        | none => (s, .ok)
        | some tp =>
          let r : Except (Verdict × BitVec 64 × BitVec 64) GraphInst := s.applyItem tp false false g (t.loc, t.time, 1)
          match r with
          | .error _ => (s, .ok)
          | .ok g' =>
            let s := (s.modInst g.inst fun _ => g').publish tp g g' j.sender
            let i := img.getD {}
            let p : Placed := { uid := 0, task := { t with join := BitVec.ofNat 16 i.joinN }, img := i, cluster := clusterFor i j.cluster,
                                space := j.space, tpldir := j.tpldir }
            let u := s.uid
            let s := s.placeRecord p
            match s.sched.placed.find? fun r => r.uid == u with
            | none => (s, .ok)
            | some r =>
              if img.isNone then
                let s := s.quarantineRecordOf g.home r
                ({ s with sched := { s.sched with drops := (j.inst, j.node, j.time) :: s.sched.drops } }, .ok)
              else
                let r' := { r with task := { r.task with join := r.task.join - 1 } }
                let s := { s with sched := { s.sched with placed := s.sched.placed.map fun (x : Placed) => if x.uid = u then r' else x } }
                (if r'.task.join = 0 then s.makeReady u else s, .ok)

def State.joinStep (s : State) (j : JoinMsg) : State :=
  let s := ({ s with pe := { s.pe with joins := s.pe.joins.filter fun x => x.uid != j.uid } }).batchDone j.home j.sender j.batch
  let loc := locWord j.inst j.node
  match s.pe.instOf j.inst with
  | none => s.answer j.core j.uid (.loc 1) loc j.time true
  | some g =>
    let seen (g : GraphInst) : GraphInst := { g with serial := g.serial + 1 }
    let r := (s.modInst j.inst seen).applyJoin (seen g) j
    let s := match r.1.pe.instOf j.inst, r.1.pe.tmplOf g.tmpl with
      | some g', some tp => r.1.publish tp g' g' j.sender
      | _, _ => r.1
    (s.answer j.core j.uid r.2 loc j.time (g.home == j.sender)).retireInst j.inst

/-- What a decrement reads on another module, where it creates a record (log 109). -/
def State.joinWants (s : State) (ok : List (Place × Nat) → Bool) (j : JoinMsg) : List (Place × Nat) :=
  match s.pe.instOf j.inst with
  | none => []
  | some g =>
    if j.core.isSome || s.sched.placed.any fun r => !r.admitted && r.task.inst == j.inst && r.task.node == j.node && r.task.time == j.time then []
    else s.imageWants (j.space.core g.home) ok j.tpldir g.tmpl j.node
/-- JOIN_DECREMENT (R298): decrements of a sender are applied in its order. -/
def execJoinDecrement (s : State) : Out :=
  match s.pe.joins.find? fun j => j.uid == s.ev.n0 with
  | none => .next s
  | some j =>
    let who : Nat × Nat := (1026, j.uid)
    let ws := s.joinWants (s.farAnswered who 0) j
    let again (s : State) : Out := .next (s.schedule 1 .joinDecrement { n0 := j.uid })
    if !s.inOrder j.home j.sender j.batch then again s
    else if !s.farAnswered who 0 ws then again (s.askFar who 0 (peCtx j.home) j.home true ws)
    else .next ((s.joinStep j).farDone who)

/-! Completion (R297, R308). -/

/-- R297, steps 2 and 3: the successors' join decrements, then the task's own count. -/
def State.dropCount (s : State) (g : Gang) (poison : Bool) : State :=
  let die := g.cluster / 2
  match s.pe.instOf g.task.inst with
  | none => s
  | some gi =>
    let s := g.img.succs.foldl (fun (s : State) (n, x) =>
      match applySum x g.task.time g.img.depth with
      | none => s
      | some t =>
        match s.pe.instOf g.task.inst with
        | none => s
        | some gi => (s.postJoin gi { uid := 0, sender := die, inst := gi.inst, batch := 0, node := n, time := t, cluster := g.cluster,
                                      prio := g.task.prio, idem := g.task.idem, nockpt := g.task.nockpt, tt := g.task.tt, space := g.space,
                                      tpldir := g.tpldir, core := none }).2) s
    s.retire1 die (locWord gi.inst g.task.node) g.task.time (-1) poison

/-- R409: units freed in a zone return to the pool. -/
def Zone.trim (z : Zone) : Zone := { z with sched := min z.sched (z.commit - z.floor) }
/-- Alloc(z) (R405). -/
def Zone.alloc (z : Zone) : Nat := z.floor + z.sched + z.prog
/-- R406: the opening of an allocation. -/
def openingFor (alloc : Nat) : Nat := (alloc * 255 + 63) / 64
/-- R406, R413, R414: after a change of Alloc(z) the controller sets the opening, unless an evacuation drives the valve or LOWFLOW
holds it open. -/
def Zone.settle (old v : Zone) : Zone :=
  if v.alloc = old.alloc ∨ v.st = 1 ∨ v.low then v else { v with opening := openingFor v.alloc, target := openingFor v.alloc }
/-- R408: the allocation before the first change of a cyc is kept for that cyc. -/
def Zone.noted (cyc : Nat) (old v : Zone) : Zone :=
  if v.alloc = old.alloc ∨ (old.changed.map Prod.fst) = some cyc then v else { v with changed := some (cyc, old.alloc) }
/-- R408: Alloc(z) as the admission test of a cyc sees it: a change shows in the cyc after. -/
def Zone.seen (v : Zone) (cyc : Nat) : Nat :=
  match v.changed with
  | some (c, a) => if c = cyc then a else v.alloc
  | none => v.alloc
/-- R408: a change of one zone as one step. -/
def State.modZone (s : State) (z : Nat) (f : Zone → Zone) : State :=
  let v := vat s.cool.zones z
  { s with cool := { s.cool with zones := vput s.cool.zones z ((v.settle (f v)).noted s.cyc v) } }

/-- R411: a task's held units are returned. -/
def State.returnHeld (s : State) (held : List (Nat × Nat)) : State :=
  held.foldl (fun (s : State) (z, n) => s.modZone z fun v => ({ v with prog := v.prog - n }).trim) s

/-- R261: the accesses that a member left under way when it exited have left: its stores, atomics, reductions and sends have reached
their homes, and its collectives have ended. -/
def State.landedSince (s : State) (n mark : Nat) : Bool :=
  (s.mem.flying.all fun f => f.core != n || decide (mark ≤ f.uid)) && s.pe.colls.all fun k => k.core != n || decide (mark ≤ k.uid)
/-- The origin of a task's statistics additions (R40). -/
def taskOrg (id : Nat) : Nat × Nat := (2 ^ 20 + id, 6)
/-- R261: the writes of some members up to their marks, and the task's statistics additions, are performed at a scope. -/
def State.quietSince (s : State) (g : Gang) (n mark scope : Nat) : Bool :=
  (s.mem.flying.all fun f => f.core != (taskOrg g.id).1) && s.mem.emitted.all fun w => match w.org with
    | some o => (o.1 != n && o != taskOrg g.id) || decide (mark ≤ w.uid) || (if scope ≤ 2 then !w.todo.contains (dieOf n) else w.todo.isEmpty)
    | none => true

/-- R40, R297: the statistics of a task that has ended: what its members counted for tensors, then the default counters; the additions
and the members' last writes are what its count then waits for. -/
def State.taskStats (s : State) (g : Gang) : State :=
  let t := g.space.task
  let die := g.cluster / 2
  let s := if g.dead.isEmpty then
      (g.cache ++ [(g.img.stats, g.stats)]).foldl (fun (s : State) x => s.addStats t die x.1 x.2 g.task.inst (taskOrg g.id)) s
    else s
  s.modGang g.id fun g => { g with statsDone := true, marks := g.marks.map fun m => (m.1, s.uid) }

/-- The last member has ended, and its writes are performed. -/
def State.completeGang (s : State) (g : Gang) : State :=
  let s := s.returnHeld g.held
  let s := { s with sched := { s.sched with gangs := s.sched.gangs.filter fun x => x.id != g.id } }
  let s := if g.dropDone then s else s.dropCount g (!g.dead.isEmpty || g.flowFail)
  s.retireInst g.task.inst

/-- The members of a gang that hold their cores. -/
def Gang.live (g : Gang) : List Nat := g.members.filter fun m => !g.exited.contains m && !g.dead.contains m

/-- A TEXIT.DROP of a member has left its core: when every member has executed one, the task's count is dropped, poisoned where a write of
the task has not arrived (R377); a member that was killed before it has not (R297). -/
def State.dropMember (s : State) (g : Gang) (n : Nat) : State :=
  let s := if (s.coreAt n).task.gang = some g.id then s.modCore n fun c => c.modTask fun t => { t with dropped := true } else s
  let g := { g with dropped := g.dropped ++ [n] }
  let all := g.members.all fun m => g.dropped.contains m
  let failed := g.flowFail || g.live.any fun m => (s.coreAt m).task.poisonOwn
  let s := s.modGang g.id fun _ => { g with dropDone := all }
  if all then s.dropCount g (!g.dead.isEmpty || failed) else s

/-- TASK_COMPLETE (R297): the completion waits for what R261 orders it after: the accesses of the members land, the statistics are
added, and all of it is performed at SCOPE. R308: with `n1` = 1 the TEXIT.DROP of core `n2` takes effect. -/
def execTaskComplete (s : State) : Out :=
  match s.sched.gangs.find? fun g => g.id == s.ev.n0 with
  | none => .next s
  | some g =>
    if s.ev.n1 = 1 then .next (if g.dropped.contains s.ev.n2 then s else s.dropMember g s.ev.n2) else
    let again (s : State) : Out := .next (s.schedule 1 .taskComplete { n0 := g.id })
    if !g.statsDone then again (if g.marks.all fun m => s.landedSince m.1 m.2 then s.taskStats g else s)
    else if g.marks.all fun m => s.quietSince g m.1 m.2 g.img.scope then .next (s.completeGang g)
    else again s

/-- When every member has ended, the task completes. -/
def State.checkEnd (s : State) (i : Nat) : State :=
  match s.sched.gangs.find? fun g => g.id == i with
  | none => s
  | some g =>
    if g.members.all fun m => g.exited.contains m || g.dead.contains m then s.schedule 0 .taskComplete { n0 := i } else s

/-- A core without a thread: what stands in it beyond a context. -/
def CoreSt.emptied (c : CoreSt) : CoreSt :=
  { num := c.num, trap := { csave := c.trap.csave }, dbg := { bcm := c.dbg.bcm, bcmLast := c.dbg.bcmLast, bcmsel := c.dbg.bcmsel },
    task := { tlb := c.task.tlb, lastCtx := c.task.lastCtx } }

/-- Device steps about a core's thread are given up. -/
def coreOps : List Instr :=
  [.longLatencyFill, .stall, .engineCommandBegin, .engineCommandComplete, .operandFetch, .chainEntryRead, .chainEntryDone, .yieldDeadline]
def State.dropCoreEvents (s : State) (n : Nat) : State := s.cancel fun e => coreOps.contains e.op && e.arg.n0 == n

/-- A core is given back with its flow units and power units: to the pool, or to the head that its gang yields to (R326, R328). -/
def State.freeCore (s : State) (n need pwr : Nat) (head : Option Nat) : State :=
  let s := (s.dropCoreEvents n).modCore n CoreSt.emptied
  let s := { s with sched := { s.sched with draws := s.sched.draws.filter fun w => w.1 != n, waiting := s.sched.waiting.filter fun w => w.1 != n } }
  match head with
  | some h => { s with sched := { s.sched with claims := s.sched.claims ++ [(n, h, need, pwr)] } }
  | none =>
    let s := s.modZone (zoneOfCore n) fun z => ({ z with commit := z.commit - need }).trim
    { s with sched := { s.sched with reserved := vput s.sched.reserved (dieOf n) (vat s.sched.reserved (dieOf n) - pwr) } }

/-- The heads of a core's cluster are looked at. -/
def State.wakeBoth (s : State) (n : Nat) : State :=
  let c := clusterOf n
  let s := if s.sched.placed.any fun r => r.ready.isSome && r.cluster == c then s.wakeCluster c else s
  let d := c / 2 * 2 + (1 - c % 2)
  if s.sched.placed.any fun r => r.ready.isSome && r.cluster == d then s.wakeCluster d else s

/-- R404: a lock that a context holds ends: 0 by CLKFREE, 1 by its departure. -/
def State.endLock (s : State) (n why : Nat) : State :=
  if !(s.coreAt n).dbg.held then s
  else
    (s.modCore n fun c => c.modDbg fun d => { d with held := false, broken := false, breakCause := 0, point := 0 }).trace n 10 (leBytes 16 why)
/-- R313, R397: a context of a timetabled gang leaves its core while a slip of its die lasts: its SLIP records. -/
def State.slipLeave (s : State) (n : Nat) : State :=
  let d := dieOf n
  if !s.ttCore n then s
  else (s.sched.slips.filter fun x => x.1 == d).foldl (fun (s : State) x => s.slipTo n x.2.1 (s.frameNow d)) s
/-- A context leaves its core, by pre-emption, exit or kill: its clock lock ends and it says so (R397, R401, R404). -/
def State.leaveTrace (s : State) (n : Nat) : State := (((s.slipLeave n).endLock n 1).trace n 11 (leBytes 16 0)).bankRecords n

/-- The release of an exited member: its gang keeps its counts (R40; the default counters of its members make one addition, log 110). -/
def State.releaseMember (s : State) (n : Nat) : State :=
  let s := s.leaveTrace n
  let c := s.coreAt n
  match s.gangOf c with
  | none => ((s.dropCoreEvents n).returnHeld c.task.held).modCore n CoreSt.emptied
  | some g =>
    let s := s.modGang g.id fun g => { g with
      exited := g.exited ++ [n], marks := g.marks ++ [(n, s.uid)], stats := g.stats.add c.cnt.stats,
      cache := g.cache ++ c.cnt.cache.map fun x => (s.statsVa c x.1, x.2), flowFail := g.flowFail || c.task.poisonOwn,
      posted := g.posted || c.task.posted }
    ((s.freeCore n (g.img.therm + 1) g.img.pwr g.head).checkEnd g.id).wakeBoth n

/-- MEMBER_RELEASE (R308): once the queued commands have completed, at the end of the cyc after. -/
def execMemberRelease (s : State) : Out :=
  let n := s.ev.n0
  let c := s.coreAt n
  if c.status ≠ .exiting then .next s
  else if !c.eng.cmds.isEmpty then .next (s.schedule 1 .memberRelease { n0 := n })
  else if s.ev.n1 = 0 then .next (s.schedule 2 .memberRelease { n0 := n, n1 := 1 })
  else .next (s.releaseMember n)

/-! TEXIT and TINFO (R308, R309). -/

def shTexit (f : Fields) : Shape := { plainTy f with mdOk := decide (f.md.toNat ≤ 1) }
def shTinfo (f : Fields) : Shape := { plainTy f with dst := .s, immOk := decide (f.imm.toNat ≤ 5) }

/-- A thread ends: its fills are given up, and its core is released once its commands have completed. -/
def State.exitThread (s : State) : State :=
  let c := s.core
  let s := s.cancel fun e => (e.op == .longLatencyFill || e.op == .stall && e.arg.n2 == 16) && e.arg.n0 == c.num
  let c := { c with status := .exiting, q := { c.q with fills := [] }, trap := { c.trap with due := [] } }
  ({ s with core := c }).schedule 0 .memberRelease { n0 := c.num }

/-- R308: a TEXIT.DROP that counts waits as a PCDEC does at SCOPE. -/
def dropHold (s : State) : Option State :=
  match s.gangOf s.core with
  | none => none
  | some g =>
    if s.memberDropped g s.core.num || s.performed s.core.num (fun _ => true) g.img.scope then none else some s

/-- R308, R383: the first TEXIT.DROP of a member leaves its core after its compare. -/
def dropBody (s : State) : Res :=
  match s.gangOf s.core with
  | none => .done s
  | some g => if s.memberDropped g s.core.num then .done s else .done (s.hasPosted.sendStore 6 (.drop g.id) 4 12)

/-- TEXIT.DROP (R308). -/
def execTexitDrop (s : State) : Out := issueWith (shTexit s.core.q.ir) none dropHold false dropBody s

/-- R327: REM as the time-stamp has counted it down; a TT record's REM is its frame (R292). -/
def Gang.remNow (g : Gang) (stamp : Nat) : Nat :=
  if g.task.tt then g.task.rem.toNat else g.task.rem.toNat - (stamp - g.remTick) / 1000

/-- R309: the selected field of the running task; a thread without a task reads zero (log 3). -/
def State.taskInfo (s : State) (sel : Nat) : Word :=
  match s.gangOf s.core with
  | none => 0
  | some g =>
    let t := { g.task with rem := BitVec.ofNat 24 (g.remNow s.stamp) }
    match sel with
    | 0 => t.loc
    | 1 => t.time
    | 2 => t.arg.setWidth 64
    | 3 => BitVec.ofNat 64 (s.core.task.rank * 256 + g.img.gang)
    | 4 => t.depth.setWidth 64
    | _ => BitVec.ofNat 64 (taskWord t / 2 ^ 64)

/-- TINFO (R309). -/
def execTinfo (s : State) : Out :=
  issue (shTinfo s.core.q.ir) (some 2) (fun s => .done (s.writeS 2 s.core.q.ir.dst (s.taskInfo (immBits s.core.q.ir 0 4)))) s

end Sys2Proof.Machine
end

