-- ==== Sys2Proof/Machine/Collect.lean ====
section
/-! DEFINITION. Collectives (16 R290, 23 R378 to R380). -/

namespace Sys2Proof.Machine

open Sys2Proof Decode

/-! Joining (R290). Kinds are numbered 0 REDUCE, 1 ALLREDUCE, 2 ALLGATHER, 3 BCAST. -/

def collTy (kind : Nat) (t : BitVec 4) : Bool := decide (t = 0xA ∨ t = 0xE ∨ t = 1) || (decide (t = 0) && decide (2 ≤ kind))
def shColl (kind : Nat) (f : Fields) : Shape :=
  { dst := .s, emp := .long, sa := .s, sb := .s, tyOk := collTy kind f.ty, mdOk := decide (f.md.toNat ≤ 3), immOk := decide (f.imm = 0) }
/-- R378: bytes of an element. -/
def collWidth (t : BitVec 4) : Nat := if t = 0 then 1 else 4

/-- R378: a group's rank entry: node and die. -/
def State.rankAt (s : State) (g r : Nat) : Option (Nat × Nat) :=
  match s.pe.groups.find? fun x => x.1 == g with
  | none => none
  | some x => x.2[r]?.map fun e => (nbits e.toNat 0 21, nbits e.toNat 21 2)
def State.groupSize (s : State) (g : Nat) : Option Nat := (s.pe.groups.find? fun x => x.1 == g).map fun x => x.2.length

/-- The descriptor as a rank, or the detail of the first check that fails. -/
def State.collOf (s : State) (kind : Nat) (ty : BitVec 4) (time : Word) (d : List Byte) : Except Nat Coll :=
  let c := s.core
  let f (lo n : Nat) : Nat := leNat ((d.drop lo).take n)
  let count := f 24 4
  let rank := f 32 2
  let root := f 34 2
  let op := f 36 1
  let rooted := kind = 0 ∨ kind = 3
  let sums := kind ≤ 1
  if count = 0 ∨ 2 ^ 28 < count ∨ f 37 27 ≠ 0 ∨ (sums ∧ (5 < op ∨ !redTy op ty)) ∨ (kind = 0 ∧ rank ≠ root ∧ f 16 8 ≠ 0) then .error 1
  else match s.groupSize (f 28 4) with
    | none => .error 2
    | some n =>
      if n ≤ rank ∨ (rooted ∧ n ≤ root) ∨ s.rankAt (f 28 4) rank ≠ some (s.fab.node.toNat, s.die) then .error 3
      else .ok { uid := 0, core := c.num, thread := c.task.thread, space := c.task.space, kind := kind, ty := ty,
                 loc := BitVec.ofNat 64 (f 0 8), time := time, src := f 8 8, dst := f 16 8, count := count, group := f 28 4,
                 rank := rank, root := root, op := op, die := s.die }

/-- The descriptor at SA, or why it is not read. -/
def State.collDesc (s : State) : Except Res (List Byte) :=
  let a := s.srcA
  if a.toNat / 2 ^ 51 ≠ 0 then .error (.trap (trapOf ADDR_RANGE 0 a))
  else if a.toNat % 64 ≠ 0 then .error (.trap (trapOf MISALIGNED 0 a))
  else match s.xlat a.toNat 64 .read false (fun d => trapOf PAGE_FAULT d a) with
    | .trap t => .error (.trap t)
    | .hold t => .error (.hold t)
    | .fault f => .error (.fault f)
    | .pieces _ => match s.farHold fun _ => s.farOf s.core.task s.die [(a.toNat, 64)] with
      | some t => .error (.hold t)
      | none => match s.plainVa s.core a.toNat 64 with
        | .ok bs => .ok bs
        | .error _ => .ok []

/-- The fill of COLL, which has been executed (R327). FREE VALUE: when it lands. -/
def collFill (s : State) (w : Word) : Res :=
  let (d, s) := s.freeFrom 1
  .done (s.hasPosted.fillIn (some (.s s.core.q.ir.dst)) (.value (.word w)) d d)

def collSend (kind : Nat) (s : State) : Res :=
  match s.collDesc with
  | .error r => r
  | .ok d =>
    match s.collOf kind s.core.q.ir.ty s.srcB d with
    | .error k => collFill s (BitVec.ofNat 64 (2 ^ 63 + k))
    | .ok k =>
      match s.findLoc k.loc with
      | .error e => s.refuseHere (.loc e) k.loc k.time
      | .ok (g, _, _, dep) =>
        if badTime k.time dep then s.refuseHere (.loc 3) k.loc k.time
        else
          let r := s.post s.die g [(k.loc, k.time, 1)] false (some s.core.num) (some s.core.num)
          let s := { r.2 with pe := { r.2.pe with colls := r.2.pe.colls ++ [{ k with uid := r.1, stage := 4 }] } }
          .hold (s.hasPosted.holdVerdict r.1)

/-- Its post has been accepted: the rank takes part. -/
def collDone (s : State) (m : VerdictMsg) : Res :=
  let s := { s with pe := { s.pe with colls := s.pe.colls.map fun (k : Coll) => if k.uid = m.uid then { k with stage := 0 } else k } }
  collFill (s.scheduleFrom 1 .collectiveDone { n0 := m.uid }) 0

def collIssue (kind : Nat) (s : State) : Out :=
  issueWith (shColl kind s.core.q.ir) none noHold true (awaitVerdict (collSend kind) collDone) s
/-- COLL.REDUCE (R290). -/
def execCollReduce (s : State) : Out := collIssue 0 s
/-- COLL.ALLREDUCE (R290). -/
def execCollAllreduce (s : State) : Out := collIssue 1 s
/-- COLL.ALLGATHER (R290). -/
def execCollAllgather (s : State) : Out := collIssue 2 s
/-- COLL.BCAST (R290). -/
def execCollBcast (s : State) : Out := collIssue 3 s

/-! Moving and combining (R378 to R380). -/

/-- The ranks a rank sends its input to, and those it needs an input from. -/
def Coll.targets (k : Coll) (n : Nat) : List Nat :=
  if k.kind = 0 then [k.root] else if k.kind = 3 then (if k.rank = k.root then List.range n else []) else List.range n
def Coll.needs (k : Coll) (n : Nat) : List Nat :=
  if k.kind = 0 then (if k.rank = k.root then List.range n else []) else if k.kind = 3 then [k.root] else List.range n
def Coll.size (k : Coll) : Nat := k.count * collWidth k.ty

/-- R380: the collective has been aborted, as its home marks it (log 135). -/
def State.collAborted (s : State) (k : Coll) : Bool :=
  match s.findLoc k.loc with
  | .error _ => false
  | .ok (g, tp, j, _) => g.aborts.contains (k.loc, k.time) || decide ((g.poisonAt tp j).toNat ≤ k.time.toNat)

def State.modColl (s : State) (u : Nat) (f : Coll → Coll) : State :=
  { s with pe := { s.pe with colls := s.pe.colls.map fun (k : Coll) => if k.uid = u then f k else k } }

/-- A contribution arrives; R37: the place it takes in the arrival order is free. -/
def State.addPart (s : State) (p : CollPart) : State :=
  let (i, s) := s.freeCyc 0 s.pe.parts.length
  { s with pe := { s.pe with parts := s.pe.parts.take i ++ [p] ++ s.pe.parts.drop i } }

/-- COLLD packets of a contribution: the collective, the offset and the receiving rank stand before the data (log 17). -/
def State.collItems (s : State) (k : Coll) (node die dst : Nat) (bs : List Byte) : List FlowItem :=
  (List.range ((bs.length + 2023) / 2024)).map fun i =>
    let part := (bs.drop (2024 * i)).take 2024
    { p := { s.packetTo kCOLLD k.die node die true with
        nbytes := BitVec.ofNat 12 (24 + part.length), aux := BitVec.ofNat 48 (k.group + k.rank * 2 ^ 32),
        payload := leBytes 8 k.loc.toNat ++ leBytes 8 k.time.toNat ++ leBytes 4 (2024 * i) ++ leBytes 2 dst ++ [0, 0] ++ part },
      use := .coll k.uid }
/-- A rank reads its input, on another module by READs of its Progress Engine (R374), and sends it; without a free flow slot it tries
again. R290: an input that does not translate, or is poisoned,
is a data fault. -/
def State.collSendAll (s : State) (k : Coll) (n : Nat) : State :=
  let c := k.space.core k.die
  let who : Nat × Nat := (1024, k.uid)
  let ws := if (k.targets n).isEmpty then [] else s.farOf c.task k.die [(k.src, k.size)]
  if !s.farAnswered who 0 ws then s.askFar who 0 (peCtx k.die) k.die true ws else
  let r : Option (List Byte) := if (k.targets n).isEmpty then some [] else if s.farBad who 0 ws then none else s.tableBytes c k.src k.size
  let s := s.farDone who
  match r with
  | none => s.modColl k.uid fun k => { k with bad := true, stage := 3 }
  | some bs =>
    let local_ := s.fab.node.toNat
    let far := (k.targets n).filter fun q => (s.rankAt k.group q).any fun e => e.1 != local_
    let near := (k.targets n).filter fun q => (s.rankAt k.group q).any fun e => e.1 == local_
    let sent : Option State := far.foldl (fun acc q =>
      match acc, s.rankAt k.group q with
      | some (s : State), some (node, die) =>
        let items := s.collItems k node die q bs
        (s.flowSend (peCtx k.die) k.die node true items).map fun s =>
          s.modColl k.uid fun k => { k with packets := k.packets + items.length }
      | a, _ => a) (some s)
    match sent with
    | none => s
    | some s =>
      let s := near.foldl (fun (s : State) q => s.addPart { loc := k.loc, time := k.time, dst := q, src := k.rank, off := 0, bytes := bs }) s
      s.modColl k.uid fun k => { k with stage := 1 }

/-- The contributions that have arrived for a rank, in arrival order of their first parts. -/
def State.collGot (s : State) (k : Coll) : List (Nat × List Byte) :=
  let mine := s.pe.parts.filter fun p => p.loc == k.loc && p.time == k.time && p.dst == k.rank
  let srcs := mine.foldl (fun (l : List Nat) p => if l.contains p.src then l else l ++ [p.src]) []
  srcs.map fun r =>
    let ps := mine.filter fun p => p.src == r
    (r, (sortBy (fun (a b : CollPart) => decide (a.off ≤ b.off)) ps).flatMap (·.bytes))

/-- Elements of a contribution combined with those before it (R37, R289). -/
def collCombine (op : Nat) (t : BitVec 4) (a b : List Byte) : List Byte :=
  (List.range (a.length / 4)).flatMap fun i =>
    leBytes 4 (atomicNew op t (leNat ((a.drop (4 * i)).take 4)) (leNat ((b.drop (4 * i)).take 4)) 0)

/-- R378: what a rank writes to its DST: (offset, bytes); whole contributions are combined, at this rank (log 135). -/
def Coll.result (k : Coll) (got : List (Nat × List Byte)) : List (Nat × List Byte) :=
  if k.kind = 2 then got.map fun (r, bs) => (r * k.size, bs)
  else if k.kind = 3 then got.map fun (_, bs) => (0, bs)
  else match got with
    | [] => []
    | (_, b) :: rest => [(0, rest.foldl (fun acc x => collCombine k.op k.ty acc x.2) b)]

/-- The mark of the writes of a rank. -/
def collOrg (uid : Nat) : Nat := 2 ^ 22 + uid

/-- Bytes written by the Progress Engine to a virtual address of the rank's address space; a part that does not translate is a fault.
R375: without a free flow slot there is no answer, and the write waits. -/
def State.collWrite (s : State) (k : Coll) (va : Nat) (bs : List Byte) : Option State :=
  let c := k.space.core k.die
  (extentPieces va bs.length).foldl (fun (acc : Option State) (a, n) => acc.bind fun (s : State) =>
    let part := (bs.drop (a - va)).take n
    let bad := s.modColl k.uid fun k => { k with bad := true }
    match s.translate c.task k.die a .write with
    | .error _ => some bad
    | .ok p =>
      if p.node ≠ s.fab.node.toNat then
        let items := s.writeItems k.die p true part (.coll k.uid)
        (s.flowSend (peCtx k.die) k.die p.node true items).map fun (s : State) =>
          s.modColl k.uid fun k => { k with packets := k.packets + items.length }
      else if !paExists p.pa then some bad
      else
        let q := s.viewed c.num { va := a, len := n, node := p.node, die := p.die, pa := p.pa, pte := p.pte }
        some (State.plainStore (some (collOrg k.uid, 6)) (q.agent c.num) q.view (part.length + 1) s p a part)) (some s)

/-- R378: the contributions in the order in which an ALLREDUCE combines them, the same at every rank of this module. -/
def State.collOrder (s : State) (k : Coll) (got : List (Nat × List Byte)) : List (Nat × List Byte) × State :=
  if k.kind ≠ 1 then (got, s)
  else match s.pe.orders.find? fun o => o.1 == (k.loc, k.time) with
    | some o => (o.2.filterMap fun r => got.find? fun x => x.1 == r, s)
    | none => (got, { s with pe := { s.pe with orders := ((k.loc, k.time), got.map (·.1)) :: s.pe.orders } })

/-- R280, R290: the thread of a rank, on its core or saved, no longer holds the rank's count: the device has sent its retirement. -/
def State.rankLeaves (s : State) (k : Coll) : State :=
  let less (c : CoreSt) : CoreSt := c.modTask fun t => { t with counts := holdCounts t.counts [(k.loc, k.time, -1)] }
  if (s.coreAt k.core).task.thread = k.thread then s.modCore k.core less
  else { s with sched := { s.sched with ckpts := s.sched.ckpts.map fun x => if x.2.task.thread = k.thread then (x.1, less x.2) else x } }

/-- R380: a participant of an aborted collective sends nothing more for it. -/
def State.collSilent (s : State) (u : Nat) : State :=
  { s with fab := { s.fab with srcs := s.fab.srcs.map fun x => { x with queue := x.queue.filter fun it => it.use != .coll u } } }

/-- One look at a rank of a collective. -/
def State.collStep (s : State) (k : Coll) (n : Nat) : State :=
  let again (s : State) : State := s.schedule 1 .collectiveDone { n0 := k.uid }
  if k.stage = 3 ∨ s.collAborted k then
    let bad := k.bad || s.collAborted k
    let s := { s with pe := { s.pe with
      colls := s.pe.colls.filter fun x => x.uid != k.uid,
      parts := s.pe.parts.filter fun p => !(p.loc == k.loc && p.time == k.time && p.dst == k.rank) } }
    ((s.collSilent k.uid).rankLeaves k).retire1 k.die k.loc k.time (-1) bad
  else if k.stage = 0 then again (s.collSendAll k n)
  else if k.stage = 1 then
    let got := s.collGot k
    if (k.needs n).all fun r => got.any fun x => x.1 == r && x.2.length == k.size then
      let r := s.collOrder k (got.filter fun x => (k.needs n).contains x.1)
      let w : Option State := if (k.needs n).isEmpty then some s else (k.result r.1).foldl
        (fun (acc : Option State) x => acc.bind fun (s : State) => s.collWrite k (k.dst + x.1) x.2) (some r.2)
      match w with
      | some s => again (s.modColl k.uid fun k => { k with stage := 2 })
      | none => again s
    else again s
  else if k.stage = 2 then
    if k.packets = 0 ∧ s.mem.emitted.all fun w => match w.org with | some (m, _) => m != collOrg k.uid | none => true then
      again (s.modColl k.uid fun k => { k with stage := 3 })
    else again s
  else s

/-- COLLECTIVE_DONE (R379). -/
def execCollectiveDone (s : State) : Out :=
  match s.pe.colls.find? fun k => k.uid == s.ev.n0 with
  | none => .next s
  | some k => .next (s.collStep k ((s.groupSize k.group).getD 0))

end Sys2Proof.Machine
end

