-- ==== Sys2Proof/Machine/SaveArea.lean ====
section
/-! DEFINITION. The context save area as a resumption reads it back (18 R331, R334, R335). -/

namespace Sys2Proof.Machine

open Sys2Proof Decode

/-- Where a buffer's image stands (R334). -/
def imageBase (b : Nat) : Nat := if b = 0 then 0x60000 else if b = 1 then 0x120000 else 0x1E0000
/-- The bit of VALID and of SPDIRTY of a buffer's first region, and how many regions it has (R335). -/
def regionBit (b : Nat) : Nat := if b = 0 then 0 else if b = 1 then 64 else 48
def regionsOf (b : Nat) : Nat := if b = 2 then 16 else 48

/-- Bytes of a core's save area as its die sees them; none where the area does not translate to this module. -/
def State.savedBytes (s : State) (c : CoreSt) (off len : Nat) : Option (List Byte) :=
  let d := dieOf c.num
  (extentPieces (c.trap.csave.toNat + off) len).foldl (fun acc (a, k) =>
    match acc, s.placeVa c.task d a .read with
    | some bs, .ok p => some (bs ++ s.readView d (paKey p.die p.pa) k)
    | _, _ => none) (some [])

/-- R334: a register file of 8-byte words from an offset of an image. -/
def wordAt (bs : List Byte) (off : Nat) : Nat := leNat ((bs.drop off).take 8)

/-- R334: the registers of the first 0x4D8 bytes of the area. -/
def SeqSt.fromImage (q : SeqSt) (bs : List Byte) : SeqSt :=
  let w := wordAt bs
  { q with
    pc := BitVec.ofNat 51 (w 0)
    s := tab 64 fun i => BitVec.ofNat 64 (w (0x40 + 8 * i))
    sFull := BitVec.ofNat 64 (w 0x240)
    vFull := BitVec.ofNat 32 (w 0x248)
    m := tab 8 fun i => BitVec.ofNat 64 (w (0x250 + 8 * i))
    loops := tab 8 fun n =>
      let r (k : Nat) : Nat := w (0x390 + 40 * n + 8 * k)
      { vat q.loops n with start := BitVec.ofNat 51 (r 0), stop := BitVec.ofNat 51 (r 1), rem := BitVec.ofNat 32 (r 2),
                           iter := BitVec.ofNat 32 (r 3), act := (r 4).testBit 31, spv := BitVec.ofNat 8 (nbits (r 4) 16 8),
                           mb := BitVec.ofNat 3 (nbits (r 4) 8 3), stg := BitVec.ofNat 3 (nbits (r 4) 0 3) }
    lfsr := BitVec.ofNat 32 (w 0x4D0) }
/-- R334: the V registers. -/
def vFromImage (bs : List Byte) : Vector LaneVec 32 :=
  tab 32 fun i => tab 64 fun k => BitVec.ofNat 32 (leNat ((bs.drop (256 * i + 4 * k)).take 4))

/-- R335: a buffer: every region with VALID set is read back, every other one is zero. -/
def State.bufFromImage (s : State) (c : CoreSt) (valid b : Nat) : Mem :=
  (List.range (regionsOf b)).foldl (fun (m : Mem) j =>
    if valid.testBit (regionBit b + j) then
      match s.savedBytes c (imageBase b + 16384 * j) 16384 with
      | some bs => Mem.writeAll m (spanAt (16384 * j) bs)
      | none => m
    else Mem.clear m (16384 * j) 16384) (c.tile.buf b)

/-- R334: the shapes and locations of the tile registers, from 0x0290 of the area. -/
def TileSt.shapesBack (t : TileSt) (bs : List Byte) : TileSt :=
  { t with t := tab 16 fun i =>
      let x := wordAt bs (8 * i)
      let y := wordAt bs (128 + 8 * i)
      { vat t.t i with
        fmt := BitVec.ofNat 5 (nbits x 16 5), cols := BitVec.ofNat 6 (nbits x 8 6), rows := BitVec.ofNat 6 (nbits x 0 6),
        space := BitVec.ofNat 2 (nbits y 20 2), offset := BitVec.ofNat 20 y } }
/-- R402: the counter shadows, from 0x0600. -/
def DebugSt.fromImage (d : DebugSt) (bs : List Byte) : DebugSt :=
  let w := wordAt bs
  let tr := w 0x108
  let db := w 0x120
  let lock := w 0x148
  { d with
    pmc := tab 8 fun i => BitVec.ofNat 64 (w (8 * i))
    pmsel := tab 8 fun i => BitVec.ofNat 4 (w (0x40 + 8 * i))
    caps := tab 4 fun i =>
      let x (k : Nat) : Nat := w (0x80 + 32 * i + 8 * k)
      { vat d.caps i with inCyc := x 0, outTicks := x 1, start := x 2, opened := (x 3).testBit 0, pre := (x 3).testBit 1 }
    trbase := BitVec.ofNat 51 (w 0x100), cls := BitVec.ofNat 16 (nbits tr 16 16), stopfull := tr.testBit 7, log2n := BitVec.ofNat 5 tr
    trhead := BitVec.ofNat 64 (w 0x110), trdrop := BitVec.ofNat 64 (w 0x118)
    step := db.testBit 4, bpen := BitVec.ofNat 4 db
    bp := tab 4 fun i => BitVec.ofNat 51 (w (0x128 + 8 * i))
    held := lock.testBit 63, broken := lock.testBit 62, breakCause := BitVec.ofNat 8 (nbits lock 48 8), point := BitVec.ofNat 3 lock }
/-- R334: TRMODE, the default counters, GBOOB, PROMCNT, TTBASE, TPLDIR, POOLSZ, NESTMAX, SPDBG, the lazy marks and the save records, from
0x04D0. -/
def CoreSt.countersBack (c : CoreSt) (bs : List Byte) : CoreSt :=
  let w (k : Nat) : Nat := wordAt bs (8 * k)
  let c := c.modCnt fun k => { k with
    stats := { sat := w 2, flush := w 3, nan := w 4, esc := w 5, skip := w 6 }, gboob := BitVec.ofNat 64 (w 7), promcnt := BitVec.ofNat 64 (w 8) }
  let c := c.modTask fun t => { t with tpldir := BitVec.ofNat 51 (w 10), poolsz := BitVec.ofNat 17 (w 11), nestmax := BitVec.ofNat 6 (w 12) }
  c.modTile fun t => { t with
    fast := (w 1).testBit 0, ttbase := BitVec.ofNat 51 (w 9), spdbg := (w 13).testBit 0
    t := tab 16 fun i => { vat t.t i with lazyMark := (w 14).testBit i, saved := (w 14).testBit (16 + i) } }
/-- R334: the trap registers and the pending waits, from 0x0800; the region holds seven waits. -/
def CoreSt.trapBack (c : CoreSt) (bs : List Byte) : CoreSt :=
  let w (k : Nat) : Nat := wordAt bs (8 * k)
  let c := c.modTrap fun r => { r with
    tvec := BitVec.ofNat 51 (w 0), thm := (w 1).testBit 0, tpc := BitVec.ofNat 51 (w 2), tcause := BitVec.ofNat 64 (w 3)
    taux := tab 4 fun i => BitVec.ofNat 64 (w (4 + i)), tstall := tab 8 fun i => BitVec.ofNat 64 (w (8 + i))
    missed := BitVec.ofNat 32 (w 16 / 2 ^ 32), yielded := BitVec.ofNat 32 (w 16) }
  let us := (c.q.fills.filter fun f => f.waits.isSome).map Fill.uid
  let back (f : Fill) : Fill :=
    match us.zipIdx.find? fun x => x.1 == f.uid with
    | some (_, i) => if i < 7 then { f with waits := some (BitVec.ofNat 64 (w (17 + 2 * i)), BitVec.ofNat 64 (w (18 + 2 * i))) } else f
    | none => f
  c.modQ fun q => { q with fills := q.fills.map back }
/-- R334: XDONE, XNEXT, XERR, TOKCNT, the counters, the walkers, the event queue, EVSTAT, TXQCFG and TELAST, after the positions at 0xD000. -/
def EngSt.fromImage (e : EngSt) (bs : List Byte) : EngSt :=
  let w (k : Nat) : Nat := wordAt bs (8 * k)
  let tok := w 42
  let walker (i : Nat) : Walker :=
    let x (k : Nat) : Nat := w (107 + 8 * i + k)
    { vat e.walkers i with
      st := if x 0 = 0 then .idle else if x 0 = 1 then .run else .park, addr := x 1, cherr := (x 2).testBit 0, seqNo := BitVec.ofNat 32 (x 3)
      entry := BitVec.ofNat 256 ((List.range 4).foldl (fun (n : Nat) k => n + x (4 + k) * 2 ^ (64 * k)) 0) }
  let n := e.events.length
  { e with
    xdone := tab 8 fun i => BitVec.ofNat 32 (w (18 + i)), xnext := tab 8 fun i => BitVec.ofNat 32 (w (26 + i)), xerr := tab 8 fun i => BitVec.ofNat 64 (w (34 + i))
    lm := tok % 16, ml := nbits tok 4 4, ms := nbits tok 8 4, sm := nbits tok 12 4
    rsc := tab 64 fun i => BitVec.ofNat 16 (w (43 + i)), walkers := tab 2 walker
    events := (List.range n).map fun i => BitVec.ofNat 64 (w (124 + i)), drop := nbits (w (124 + n)) 32 16
    txqcfg := BitVec.ofNat 64 (w (125 + n)), telast := w (126 + n) }
/-- How many words of the engines' part there are before a plane. -/
def EngSt.imageLen (e : EngSt) : Nat := 8 * (127 + e.events.length)
/-- R334: a weight plane from its image. -/
def Plane.fromImage (p : Plane) (bs : List Byte) : Plane :=
  let w (k : Nat) : Nat := wordAt bs (8 * k)
  { fmt := w 0, stored := (w 1).testBit 0, hnan := (w 2).testBit 0, hinf := (w 3).testBit 0, kp := w 4, np := w 5, defined := (w 6).testBit 0
    w := (List.range p.w.length).map fun i => decodeFloat .f32 (leNat ((bs.drop (64 + 4 * i)).take 4)) }
/-- R334: the queue slots: 8 of each LDQ channel, 16 of MXQ, 8 of each STQ channel. -/
def queueBase (q ch : Nat) : Nat := if q = 0 then 8 * ch else if q = 1 then 32 else 48 + 8 * ch
def Cmd.slotOff (k : Cmd) : Nat := 0x3000 + 512 * (queueBase k.q k.ch + k.slot % slotsOf k.q)
/-- A command from its queue slot. -/
def Cmd.fromImage (k : Cmd) (bs : List Byte) : Cmd :=
  { k with
    raw := BitVec.ofNat 128 (leNat (bs.take 16)), wmax := leNat ((bs.drop 16).take 4), en := BitVec.ofNat 64 (wordAt bs 32)
    idx := tab 64 fun i => BitVec.ofNat 32 (leNat ((bs.drop (40 + 4 * i)).take 4)) }
/-- R41: the cached counts of tensors, in the part of the area that R334 leaves free (log 74). -/
def countsBase : Nat := 0x59000
def CountSt.cacheBack (k : CountSt) (bs : List Byte) : CountSt :=
  let w (i : Nat) : Nat := wordAt bs (8 * i)
  { k with cache := (List.range k.cache.length).map fun i =>
      (w (6 * i), { sat := w (6 * i + 1), flush := w (6 * i + 2), nan := w (6 * i + 3), esc := w (6 * i + 4), skip := w (6 * i + 5) }) }
/-- R392: the snapshot of an open phase, from 0x0900. -/
def Snapshot.fromImage (x : Snapshot) (bs : List Byte) : Snapshot :=
  let w (k : Nat) : Nat := wordAt bs (8 * k)
  { x with
    s := tab 64 fun i => BitVec.ofNat 64 (w i), m := tab 8 fun i => BitVec.ofNat 64 (w (64 + i))
    pc := BitVec.ofNat 51 (w 72), thm := (w 73).testBit 0, tpc := BitVec.ofNat 51 (w 74), tcause := BitVec.ofNat 64 (w 75)
    lfsr := BitVec.ofNat 32 (w 76), fast := (w 77).testBit 0
    counts := { x.counts with
      stats := { sat := w 78, flush := w 79, nan := w 80, esc := w 81, skip := w 82 }, gboob := BitVec.ofNat 64 (w 83), promcnt := BitVec.ofNat 64 (w 84) }
    lm := w 85, ms := w 86, ml := w 87, sm := w 88, loopCount := w 89
    loops := tab 8 fun n =>
      let r (k : Nat) : Nat := w (90 + 5 * n + k)
      { vat x.loops n with start := BitVec.ofNat 51 (r 0), stop := BitVec.ofNat 51 (r 1), rem := BitVec.ofNat 32 (r 2),
                           iter := BitVec.ofNat 32 (r 3), act := (r 4).testBit 31, spv := BitVec.ofNat 8 (nbits (r 4) 16 8),
                           mb := BitVec.ofNat 3 (nbits (r 4) 8 3), stg := BitVec.ofNat 3 (nbits (r 4) 0 3) }
    xnext := tab 8 fun i => BitVec.ofNat 32 (w (130 + i)), xdone := tab 8 fun i => BitVec.ofNat 32 (w (138 + i)) }

/-- R331: the parts of a saved context beside its registers, V registers and buffers, each read back where it translates. -/
def State.partsBack (s : State) (c : CoreSt) : CoreSt :=
  let part (c : CoreSt) (off len : Nat) (f : CoreSt → List Byte → CoreSt) : CoreSt :=
    match s.savedBytes c off len with
    | some bs => f c bs
    | none => c
  let c := part c 0x0290 256 fun c bs => c.modTile fun t => t.shapesBack bs
  let c := part c 0x04D0 256 CoreSt.countersBack
  let c := part c 0x0600 0x150 fun c bs => c.modDbg fun d => d.fromImage bs
  let c := part c 0x0800 256 CoreSt.trapBack
  let c := part c 0x0900 0x500 fun c bs => c.modPh fun p => { p with snap := p.snap.map fun x => x.fromImage bs }
  let c := part c 0x0E00 512 fun c bs => c.modPh fun p => { p with record := p.record.zipIdx.map fun (k, i) =>
    { k with raw := BitVec.ofNat 128 (leNat ((bs.drop (32 * i)).take 16)), wmax := leNat ((bs.drop (32 * i + 16)).take 4) } }
  let c := c.eng.cmds.foldl (fun (c : CoreSt) k => part c k.slotOff 296 fun c bs =>
    c.modEng fun e => { e with cmds := e.cmds.map fun (x : Cmd) => if x.uid = k.uid then x.fromImage bs else x }) c
  let c := part c 0xD000 c.eng.imageLen fun c bs => c.modEng fun e => e.fromImage bs
  let c := part c 0xE000 (64 + 4 * c.tile.active.w.length) fun c bs => c.modTile fun t => { t with active := t.active.fromImage bs }
  let c := part c 0x13000 (64 + 4 * c.tile.shadow.w.length) fun c bs => c.modTile fun t => { t with shadow := t.shadow.fromImage bs }
  part c countsBase (48 * c.cnt.cache.length) fun c bs => c.modCnt fun k => k.cacheBack bs

/-- R331: a saved context as its save area gives it back; everything of an area that does not translate is as the core saved it (log 74). -/
def State.readBack (s : State) (c : CoreSt) : CoreSt :=
  let c := s.partsBack c
  match s.savedBytes c 0 0x4D8 with
  | none => c
  | some bs =>
    let dead := (bs.getD 11 0) == 1
    let valid := leNat ((bs.drop 24).take 14)
    let q := c.q.fromImage bs
    let q := if dead then q else match s.savedBytes c 0x1000 0x2000 with
      | some vs => { q with v := vFromImage vs }
      | none => q
    let t := [0, 1, 2].foldl (fun (t : TileSt) b => t.setBuf b (s.bufFromImage c valid b)) c.tile
    { c with q := q, tile := t, trap := { c.trap with valid := BitVec.ofNat 112 valid } }

end Sys2Proof.Machine
end

