-- ==== Sys2Proof/Machine/Schedule.lean ====
section
/-! DEFINITION. Admission, frames, coolant for a waiting head, and the choice of victims (17 R301 to R303, R312, R313, 18 R326, R327,
26 R405, R409). -/

namespace Sys2Proof.Machine

open Sys2Proof Decode

/-! Flow units (R405). -/

def State.zone (s : State) (z : Nat) : Zone := vat s.cool.zones z
/-- COOLPOOL: the free pool. -/
def State.poolFree (s : State) : Nat := s.cool.supply - (List.range 100).foldl (fun (n : Nat) z => n + (s.zone z).alloc) 0

/-! Frames and slips (R312, R313). -/

/-- R312, R416: a TT record of a frame that has not been admitted before. -/
def Placed.timedIn (r : Placed) (frame : Nat) : Bool := r.task.tt && r.task.rem.toNat == frame && !r.admitted
/-- A gang admitted in its frame as a timetabled gang. -/
def Gang.timed (g : Gang) (d frame : Nat) : Bool := g.frame == some frame && g.cluster / 2 == d
/-- R416: members of a timetabled gang of the frame that an evacuation has
stopped are neither stopped for good nor gone (R416). -/
def State.evacOpen (s : State) (d : Nat) : Bool :=
  let f := s.frameNow d
  s.sched.gangs.any fun g => g.evac && g.timed d f && g.policy != 4 && g.live.any fun n => decide ((s.coreAt n).status ≠ .stopped)
/-- The causes that defer the tick that ends the current frame of a die. -/
def State.slipCauses (s : State) (d : Nat) : List Nat :=
  let f := s.frameNow d
  (if s.sched.gangs.any fun g => g.timed d f then [1] else []) ++
  (if s.sched.placed.any fun r => s.sched.ttFailed.contains r.uid && r.cluster / 2 == d && r.task.rem.toNat == f then [2] else []) ++
  (if s.evacOpen d && s.sched.slips.any fun x => x.1 == d && x.2.1 == 4 then [4] else [])

/-- R313, cause 2: TT records of the frame, in their queue at the tick that started it, that fail admission there: those of a cluster
whose first one has been tested and has failed; where one of them has been admitted, the next is tested in the cyc after (R303). -/
def State.failedAtTick (s : State) (d last : Nat) : State :=
  let f := s.frameNow d
  let inTime (r : Placed) : Bool := r.cluster / 2 == d && r.task.tt && r.task.rem.toNat == f && !r.admitted &&
    !s.sched.ttFailed.contains r.uid && (match r.ready with | some k => decide (k ≤ (last : Int)) | none => false)
  let tested (r : Placed) : Bool := s.sched.failing.any fun x => x.1 == r.cluster && s.sched.placed.any fun h =>
    h.uid == x.2.1 && h.cluster == r.cluster && h.timedIn f
  let open_ := s.sched.placed.filter inTime
  let bad := open_.filter tested
  let s := if open_.length = bad.length then s else s.schedule 1 .frameTick { n0 := d, n1 := 1, n2 := last }
  if bad.isEmpty then s
  else
    let s := if s.sched.slips.any fun x => x.1 == d && x.2.1 == 2 then s else
      let s := s.slip d 2
      { s with sched := { s.sched with slips := s.sched.slips ++ [(d, 2, s.cyc)] } }
    { s with sched := { s.sched with ttFailed := s.sched.ttFailed ++ bad.map (·.uid) } }

/-- FRAME_TICK (R312): the tick comes once no cause of a slip stands; each cause is counted when it begins and recorded when it
clears. -/
def State.frameStep (s : State) (d : Nat) : State :=
  let f := s.frameNow d
  let now := s.slipCauses d
  let old := (s.sched.slips.filter fun x => x.1 == d).map (·.2.1)
  let s := (now.filter fun c => !old.contains c).foldl (fun (s : State) c =>
    let s := s.slip d c
    { s with sched := { s.sched with slips := s.sched.slips ++ [(d, c, s.cyc)] } }) s
  let s := (old.filter fun c => !now.contains c).foldl (fun (s : State) c =>
    let s := s.slipTrace d c f
    { s with sched := { s.sched with slips := s.sched.slips.filter fun x => !(x.1 == d && x.2.1 == c) } }) s
  if !now.isEmpty then s.schedule 1 .frameTick { n0 := d }
  else
    let len := vat s.sched.frameNew d
    let s := { s with sched := { s.sched with
      frameCnt := vput s.sched.frameCnt d (vat s.sched.frameCnt d + 1), frameCyc := vput s.sched.frameCyc d s.cyc, frameLen := vput s.sched.frameLen d len } }
    let s := [2 * d, 2 * d + 1].foldl (fun (s : State) c =>
      if s.sched.placed.any fun r => r.ready.isSome && r.cluster == c then s.wakeCluster c else s) s
    let s := { s with sched := { s.sched with ttFailed := s.sched.ttFailed.filter fun u => s.sched.placed.any fun r => r.uid == u } }
    (s.schedule 1 .frameTick { n0 := d, n1 := 1, n2 := s.sched.readyNo.toNat }).schedule len .frameTick { n0 := d }
/-- FRAME_TICK: the tick (`n1` = 0), or the look at what failed there. -/
def execFrameTick (s : State) : Out :=
  .next (if s.ev.n1 = 1 then s.failedAtTick (s.ev.n0 % 4) s.ev.n2 else s.frameStep (s.ev.n0 % 4))

/-! The admission test (R301). -/

/-- What a head may count on: its claims, and the members of some gangs. -/
def State.extraFor (s : State) (head : Nat) (gs : List Gang) : List (Nat × Nat × Nat) :=
  ((s.sched.claims.filter fun c => c.2.1 == head).map fun c => (c.1, c.2.2.1, c.2.2.2)) ++
    gs.flatMap fun g => g.live.map fun n => (n, g.img.therm + 1, g.img.pwr)

/-- Free cores of the cluster, in ascending order; a failed die has none (R393), nor has any before boot step 9 (R426). -/
def State.freeCores (s : State) (cl head : Nat) (extra : List (Nat × Nat × Nat)) : List Nat :=
  (List.range 128).filterMap fun i =>
    let n := 128 * cl + i
    let c := s.coreAt n
    let claimed := (s.sched.claims.any fun x => x.1 == n && x.2.1 != head) || s.host.diefail.getLsbD (dieOf n) || !s.host.ready
    if (extra.any fun x => x.1 == n) || (c.status = .idle && c.task.gang.isNone && !claimed) then some n else none

/-- The units that cores of a zone give back. -/
def unitsBack (extra : List (Nat × Nat × Nat)) (z : Nat) : Nat :=
  extra.foldl (fun (n : Nat) x => if zoneOfCore x.1 = z then n + x.2.1 else n) 0
/-- cap(z) with Alloc(z) as the cyc sees it (R408), after `taken` cores with their units: 0 while the zone is evacuated, failed, disabled,
or held by OVERTEMP or LOWFLOW (R413). -/
def State.capOf (s : State) (z need : Nat) (extra : List (Nat × Nat × Nat)) (taken : List (Nat × Nat) := []) : Nat :=
  let v := s.zone z
  let more := taken.foldl (fun (n : Nat) x => if zoneOfCore x.1 = z then n + x.2 else n) 0
  if v.st ≠ 0 ∨ v.hot ∨ v.low then 0 else (v.seen s.cyc - (v.commit - unitsBack extra z + more)) / need

/-- The eligible cores among the free ones. -/
def State.eligible (s : State) (need : Nat) (extra : List (Nat × Nat × Nat)) (free : List Nat) (taken : List (Nat × Nat) := []) : List Nat :=
  (free.foldl (fun (a : List Nat × List (Nat × Nat)) n =>
    let z := zoneOfCore n
    let used := ((a.2.find? fun x => x.1 == z).map (·.2)).getD 0
    if used < s.capOf z need extra taken then (a.1 ++ [n], (z, used + 1) :: a.2.filter fun x => x.1 != z) else a) ([], [])).1

/-- Power units a record reserves per core (R301, R312). -/
def Placed.units (r : Placed) : Nat := r.img.pwr + (if r.task.tt then 6 else 0)

/-- R312: the eligible cores left suffice for some timetabled records, each by its own flow units, in their order. -/
def State.leavesRoom (s : State) (extra : List (Nat × Nat × Nat)) : List Nat → List (Nat × Nat) → List Placed → Bool
  | _, _, [] => true
  | free, taken, r :: rs =>
    let need := r.img.therm + 1
    let e := (s.eligible need extra free taken).take (r.img.gang + 1)
    decide (r.img.gang + 1 ≤ e.length) &&
      State.leavesRoom s extra (free.filter fun n => !e.contains n) (taken ++ e.map fun n => (n, need)) rs

/-- The outcome of the three tests: CORE, COOL, POWER, and the cores of the gang. -/
structure AdmitTest where
  core : Bool
  cool : Bool
  power : Bool
  gang : List Nat
deriving DecidableEq, Repr

def AdmitTest.pass (t : AdmitTest) : Bool := !t.core && !t.cool && !t.power

/-- R301, R312, R331: the tests of a record; `gs` are gangs to be taken off for it. A checkpointed gang wants its own cores; an
ordinary gang leaves the eligible cores that the next frame's TT records need. -/
def State.admitTest (s : State) (r : Placed) (gs : List Gang) : AdmitTest :=
  let d := r.cluster / 2
  let extra := s.extraFor r.uid gs
  let need := r.img.therm + 1
  let free := s.freeCores r.cluster r.uid extra
  let elig := s.eligible need extra free
  let saved := r.resume.bind fun i => s.sched.gangs.find? fun g => g.id == i
  let want := match saved with | some g => g.live | none => []
  let size := match saved with | some g => g.live.length | none => r.img.gang + 1
  let back := extra.foldl (fun (n : Nat) x => n + x.2.2) 0
  let power := decide (vat s.cool.limits d < (vat s.sched.reserved d - back) + size * r.units)
  let next := (s.frameNow d + 1) % 2 ^ 24
  let tt := s.sched.placed.filter fun x => x.ready.isSome && x.cluster == r.cluster && x.timedIn next
  let leaves (cores : List Nat) : Bool := !r.timedIn (s.frameNow d) &&
    !s.leavesRoom extra (free.filter fun n => !cores.contains n) (cores.map fun n => (n, need)) tt
  match saved with
  | some _ => { core := !want.all free.contains || leaves want, cool := !want.all elig.contains, power := power, gang := want }
  | none => { core := decide (free.length < size) || leaves (elig.take size), cool := decide (elig.length < size), power := power, gang := elig.take size }

/-! Starting a gang (R295, R303, R331). -/

/-- R295: a window is zeroed before another context's task runs on the core. -/
def State.zeroWindow (s : State) (sp : Space) (n : Nat) : State :=
  if (s.coreAt n).task.lastCtx = sp.ctx then s else s.clearEverywhere (dieOf n) (frameHome n) (2 ^ 22)

/-- R334: the save areas of a context's threads stand one behind the other from CSAVE.BASE; a thread takes the first that none of them has
(log 132). -/
def State.saveAreaFor (s : State) (ctx base : Nat) : Nat :=
  let used := ((s.cores.filter fun c => c.task.ctx == ctx && c.task.gang.isSome) ++
    (s.sched.ckpts.map Prod.snd).filter fun c => c.task.ctx == ctx).map fun c => c.trap.csave.toNat
  base + 0x240000 * ((List.range (used.length + 1)).find? fun k => !used.contains (base + 0x240000 * k)).getD 0

/-- R295: the registers of a fresh member. -/
def memberRegs (g : Gang) (rank n : Nat) : Vector Word 64 :=
  let inst := g.task.inst.toNat
  let arg (j : Nat) : Word := match g.img.args[j]? with
    | some (b, st) => BitVec.ofNat 64 b + BitVec.ofNat 64 inst * BitVec.ofNat 64 st
    | none => 0
  tab 64 fun i =>
    if i = 2 then g.task.loc
    else if i = 3 then g.task.time
    else if i = 4 then g.task.arg.setWidth 64
    else if i = 5 then BitVec.ofNat 64 rank
    else if i = 6 then BitVec.ofNat 64 (g.img.gang + 1)
    else if i = 7 then (if g.img.frame = 0 then 0 else BitVec.ofNat 64 (frameWindow g.space.ctx n))
    else if 8 ≤ i ∧ i < 16 then arg (i - 8)
    else 0

/-- A member's fresh thread; an entry that R61 refuses traps, and without a handler the task is killed (R317). -/
def State.startMember (s : State) (g : Gang) (rank n : Nat) : State :=
  let s := s.zeroWindow g.space n
  let (u, s) := s.takeUid
  let sp := g.space
  let area := (s.host.contexts.find? fun x => x.num == sp.ctx).map fun x => BitVec.ofNat 51 (s.saveAreaFor sp.ctx (x.csave.toNat % 2 ^ 51))
  let s := s.modCore n fun c =>
    let e := c.emptied
    { e with
      status := .running,
      q := { s := memberRegs g rank n, pc := g.img.code, nextIssue := s.cyc + 1 },
      trap := { csave := area.getD e.trap.csave },
      task := { e.task with gang := some g.id, rank := rank, thread := u, ctx := sp.ctx, asn := sp.asn, rootDie := sp.rootDie,
                            rootPfn := sp.rootPfn, profile := sp.profile, lastCtx := sp.ctx } }
  let c := s.coreAt n
  if s.badTarget c g.img.code false then
    (s.modCore n fun c => { (c.record (trapOf BAD_TARGET 0) g.img.code s.stamp) with status := .stopped }).schedule 0 .taskKill { n0 := n, n1 := 1 }
  else if (s.lineAway c g.img.code).isSome then s.modCore n fun c => c.modQ fun q => { q with unchecked := true }
  else s

/-- The cyc at which waits began as the cyc they have lasted, and back. -/
def EngSt.turnTimes (e : EngSt) (cyc : Nat) : EngSt :=
  { e with
    cmds := e.cmds.map fun (k : Cmd) => { k with wait := k.wait.map fun w => cyc - w, start := cyc - k.start }
    walkers := e.walkers.map fun (w : Walker) => { w with waiting := w.waiting.map fun t => cyc - t } }

/-- R162: a map entry that a saved context has kept still stands at its home. -/
def State.stands (s : State) (e : TileCache) : Bool :=
  s.readLE (keyDie e.key) e.key 16 == (entryBits { e.entry with dirty := false }).toNat

/-- R295, R331, R333: a saved member runs on with its context read back, in a window that is zeroed where another context ran on the core;
of its cached map entries those that have changed are gone (R162). Its frontier waits are accepted again, with the time they have waited
(log 75), its engines go on; the read-back may lose cyc at the banks (R401, class 9). -/
def State.resumeMember (s : State) (i n : Nat) : State :=
  match s.sched.ckpts.find? fun x => x.1 == i && x.2.num == n with
  | none => s
  | some (_, kept) =>
    let s := s.zeroWindow kept.task.space n
    let c := (s.readBack kept).modTile fun t => { t with cache := t.cache.filter s.stands }
    let caps : Vector Capture 4 := tab 4 fun k =>
      let x := vat c.dbg.caps k
      if x.opened then { x with outTicks := x.outTicks + (s.stamp - x.left), pre := true } else x
    let need (f : Fill) : Fill := match f.src with
      | .frontier l t p st _ => { f with due := s.cyc - f.due, src := .frontier l t p st (((s.pe.instOf (locInst l)).map fun g => vat g.sent (dieOf n)).getD 0) }
      | _ => f
    let c := { c with
      status := .running, dbg := { c.dbg with caps := caps }, eng := { c.eng.turnTimes s.cyc with halt := false },
      trap := { c.trap with yreq := false, left := 0, vdead := false },
      q := { c.q with
        entering := true, far := none, nextIssue := s.cyc + 1, fills := c.q.fills.map need, hist := [], holdFrom := none } }
    let tlb := (s.coreAt n).task.tlb
    let bcm := (s.coreAt n).dbg
    let s := s.modCore n fun _ => { c with task := { c.task with tlb := tlb }, dbg := { c.dbg with bcm := bcm.bcm, bcmLast := bcm.bcmLast } }
    let s := { s with sched := { s.sched with ckpts := s.sched.ckpts.filter fun x => !(x.1 == i && x.2.num == n) } }
    let s := c.q.fills.foldl (fun (s : State) f => match f.src with
      | .frontier l t p st nd =>
        let s := if f.limit = 0 ∨ f.stalled then s else s.schedule (64 * f.limit - (s.cyc - f.due)) .stall { n0 := n, n1 := f.uid, n2 := 16 }
        (match s.pe.notices.find? fun x => x.die == dieOf n && x.loc == l with
        | some x => (match x.word t p st nd with | some w => s.resolveFill n f.uid w 20 60 | none => s)
        | none => if (s.findLoc l).toOption.isNone then s.resolveFill n f.uid BADLOC 20 60 else s)
      | _ => s) s
    let s := c.eng.cmds.foldl (fun (s : State) k =>
      if k.st = .moving ∨ k.st = .pushWait ∨ k.st = .completing then
        (s.schedule 1 .engineCommandBegin { n0 := n, n1 := k.uid }).schedule 1 .engineCommandComplete { n0 := n, n1 := k.uid }
      else s.schedule 1 .engineCommandBegin { n0 := n, n1 := k.uid }) s
    let s := c.eng.cmds.foldl (fun (s : State) k =>
      if [0x281, 0x284, 0x285, 0x286].contains k.opc && !k.fetched then s.scheduleFrom 1 .operandFetch { n0 := n, n1 := k.uid } else s) s
    let s := [0, 1].foldl (fun (s : State) w =>
      let k := vat c.eng.walkers w
      if k.st = .run && k.cmd.isNone then s.schedule 1 .chainEntryRead { n0 := n, n1 := w, n2 := k.kick } else s) s
    ((s.lostCyc n 9 0 (some 16)).2).trace n 11 (leBytes 16 1)

/-- A record is admitted on the cores of its test. -/
def State.admitRecord (s : State) (r : Placed) (cores : List Nat) : State :=
  let d := r.cluster / 2
  let need := r.img.therm + 1
  let mine := s.sched.claims.filter fun c => c.2.1 == r.uid
  let s := mine.foldl (fun (s : State) c => s.modZone (zoneOfCore c.1) fun z => { z with commit := z.commit - c.2.2.1 }) s
  let back := mine.foldl (fun (n : Nat) c => n + c.2.2.2) 0
  let s := cores.foldl (fun (s : State) n => s.modZone (zoneOfCore n) fun z => { z with commit := z.commit + need }) s
  let timed := r.timedIn (s.frameNow d)
  let s := { s with sched := { s.sched with
    placed := s.sched.placed.filter fun x => x.uid != r.uid,
    claims := s.sched.claims.filter fun c => c.2.1 != r.uid,
    reserved := vput s.sched.reserved d (vat s.sched.reserved d - back + cores.length * r.units) } }
  match r.resume with
  | some i =>
    let s := s.modGang i fun g => { g with policy := 0, head := none, stopped := [], evac := false, evacZones := [], remTick := s.stamp }
    cores.foldl (fun (s : State) n => s.resumeMember i n) s
  | none =>
    let (i, s) := s.takeUid
    let g : Gang := { id := i, task := r.task, img := { r.img with pwr := r.units }, cluster := r.cluster, space := r.space, tpldir := r.tpldir,
                      members := cores, remTick := s.stamp, frame := if timed then some (s.frameNow d) else none }
    let s := { s with sched := { s.sched with gangs := s.sched.gangs ++ [g] } }
    ((List.range cores.length).zip cores).foldl (fun (s : State) (k, n) => s.startMember g k n) s

/-! The heads (R300, R302). -/

/-- The head of a cluster: TT records of the current frame in placement order, then the oldest of the highest nonempty level; a
TT record of a later frame waits for its tick. -/
def State.headOf (s : State) (cl : Nat) : Option Placed :=
  let f := s.frameNow (cl / 2)
  let ready := s.sched.placed.filter fun r => r.ready.isSome && r.cluster == cl
  match ready.find? fun r => r.timedIn f with
  | some r => some r
  | none =>
    (ready.filter fun r => !(r.task.tt && decide (f < r.task.rem.toNat))).foldl (fun best r =>
      match best with
      | none => some r
      | some (b : Placed) =>
        if b.task.level < r.task.level ∨ (b.task.level = r.task.level ∧ r.ready.getD 0 < b.ready.getD 0) then some r else best) none

/-- ADMWAIT of a head that fails. -/
def admWord (r : Placed) (t : AdmitTest) (timed : Bool) : Word :=
  let b (x : Bool) (n : Nat) : Nat := if x then n else 0
  BitVec.ofNat 64 (2 ^ 63 + r.task.level * 2 ^ 56 + r.task.node.toNat * 2 ^ 40 + r.task.inst.toNat * 2 ^ 8
    + b timed 8 + b t.power 4 + b t.cool 2 + b t.core 1)

/-- Since when a head of a cluster fails. -/
def failSince (l : List (Nat × Nat × Nat)) (cl uid cyc : Nat) : Nat × List (Nat × Nat × Nat) :=
  match l.find? fun x => x.1 == cl && x.2.1 == uid with
  | some x => (x.2.2, l)
  | none => (cyc, (cl, uid, cyc) :: l.filter fun x => x.1 != cl)

/-- Claims whose head is no longer placed are given back. -/
def State.dropClaims (s : State) : State :=
  let dead := s.sched.claims.filter fun c => !s.sched.placed.any fun r => r.uid == c.2.1
  let s := { s with sched := { s.sched with claims := s.sched.claims.filter fun c => !dead.contains c } }
  dead.foldl (fun (s : State) c =>
    let s := s.modZone (zoneOfCore c.1) fun z => ({ z with commit := z.commit - c.2.2.1 }).trim
    { s with sched := { s.sched with reserved := vput s.sched.reserved (dieOf c.1) (vat s.sched.reserved (dieOf c.1) - c.2.2.2) } }) s

/-- One test of a cluster's head. -/
def State.testHead (s : State) (cl : Nat) : State :=
  let s := s.dropClaims
  let clear (s : State) : State := { s with sched := { s.sched with
    admWait := vput s.sched.admWait cl 0,
    failing := s.sched.failing.filter fun x => x.1 != cl, coolFailing := s.sched.coolFailing.filter fun x => x.1 != cl } }
  match s.headOf cl with
  | none => clear s
  | some r =>
    let t := s.admitTest r []
    if t.pass then ((clear s).admitRecord r t.gang).schedule 1 .gangAdmit { n0 := cl }
    else
      let timed := r.timedIn (s.frameNow (cl / 2))
      let f := failSince s.sched.failing cl r.uid s.cyc
      let only := t.cool && !t.core && !t.power
      let k := failSince s.sched.coolFailing cl r.uid s.cyc
      let s := { s with sched := { s.sched with
        admWait := vput s.sched.admWait cl (admWord r t timed), failing := f.2,
        coolFailing := if only then k.2 else s.sched.coolFailing.filter fun x => x.1 != cl } }
      let chosen := s.sched.gangs.any fun g => g.head == some r.uid
      let s := if s.cyc - f.1 ≠ 0 ∧ (s.cyc - f.1) % s.sched.prewait = 0 ∧ !chosen then s.schedule 0 .preemptSelect { n0 := cl } else s
      let s := if only ∧ s.cyc - k.1 ≠ 0 ∧ (s.cyc - k.1) % s.cool.creqwait = 0 then s.schedule 0 .creqSched { n0 := cl } else s
      s.schedule 1 .gangAdmit { n0 := cl }

/-- GANG_ADMIT (R301, R302): every other step of the cyc goes first, and the clusters of a die take turns to go first. -/
def execGangAdmit (s : State) : Out :=
  let cl := s.ev.n0 % 8
  let sib := cl / 2 * 2 + (1 - cl % 2)
  let due (e : Event) : Bool := decide (e.due ≤ s.cyc)
  if s.agenda.any fun e => due e && e.op != .gangAdmit then .next (s.schedule 0 .gangAdmit { n0 := cl })
  else if (s.cyc + cl) % 2 = 1 ∧ s.agenda.any fun e => due e && e.op == .gangAdmit && e.arg.n0 == sib then
    .next (s.schedule 0 .gangAdmit { n0 := cl })
  else .next (s.testHead cl)

/-- CREQ_SCHED (R409): the shortfall of every zone among the first free cores, beside what is committed there and not given back to the
head, granted whole or not at all. -/
def State.creqStep (s : State) (cl : Nat) : State :=
  match s.headOf cl with
  | none => s
  | some r =>
    let need := r.img.therm + 1
    let extra := s.extraFor r.uid []
    let cores := (s.freeCores cl r.uid extra).take (r.img.gang + 1)
    let zs := (List.range 100).filterMap fun z =>
      let m := (cores.filter fun n => zoneOfCore n == z).length
      let v := s.zone z
      if m = 0 then none else some (z, m * need + (v.commit - unitsBack extra z) - v.alloc)
    let fits := decide (zs.foldl (fun (n : Nat) x => n + x.2) 0 ≤ s.poolFree) && zs.all fun x => decide ((s.zone x.1).alloc + x.2 ≤ 64)
    if fits then zs.foldl (fun (s : State) x => s.modZone x.1 fun v => { v with sched := v.sched + x.2 }) s else s
/-- R408: a program's request of the same cyc is applied first. -/
def execCreqSched (s : State) : Out :=
  if s.agenda.any fun e => decide (e.due ≤ s.cyc) && e.op == .longLatencyFill && e.arg.n2 == 2 then
    .next (s.schedule 0 .creqSched { n0 := s.ev.n0 })
  else .next (s.creqStep (s.ev.n0 % 8))

/-! Victims (R326, R327). -/

/-- A member has posted or launched (R327). -/
def State.gangPosted (s : State) (g : Gang) : Bool := g.posted || g.live.any fun n => (s.coreAt n).task.posted
/-- R327: 1 drain, 2 kill, 3 checkpoint; `t` is PRIO[4:0] of the waiting head. -/
def State.policyFor (s : State) (g : Gang) (t : Nat) : Nat :=
  if g.task.tt then 1
  else if g.remNow s.stamp ≤ s.sched.predrain * (32 - t) / 32 then 1
  else if g.task.idem && !s.gangPosted g then 2
  else if g.task.nockpt then 1
  else 3

/-- R329: a yield request to every member. -/
def State.requestYield (s : State) (g : Gang) : State :=
  let s := g.live.foldl (fun (s : State) n =>
    (s.modCore n fun c => c.modTrap fun r => { r with yreq := true, left := s.cyc + s.sched.ydl }).schedule (s.sched.ydl + 1) .yieldDeadline { n0 := n }) s
  s.schedule 1 (if g.policy = 2 then .killRequeue else .checkpoint) { n0 := g.id }

/-- A gang is to be taken off its cores for a head. -/
def State.takeOff (s : State) (g : Gang) (policy : Nat) (head : Option Nat) : State :=
  let g := { g with policy := policy, head := head }
  let s := s.modGang g.id fun _ => g
  if policy = 1 then s else s.requestYield g

/-- PREEMPT_SELECT (R326). -/
def State.selectVictims (s : State) (cl : Nat) : State :=
  match s.headOf cl with
  | none => s
  | some r =>
    let cands := sortBy (fun (a b : Gang) => decide (a.task.level < b.task.level ∨
        (a.task.level = b.task.level ∧ b.remNow s.stamp ≤ a.remNow s.stamp)))
      (s.sched.gangs.filter fun g => g.cluster == cl && g.policy == 0 && decide (g.task.level < r.task.level))
    let chosen := (List.range (cands.length + 1)).find? fun k => (s.admitTest r (cands.take k)).pass
    match chosen with
    | none => s
    | some k => (cands.take k).foldl (fun (s : State) g => s.takeOff g (s.policyFor g (r.task.prio.toNat % 32)) (some r.uid)) s
def execPreemptSelect (s : State) : Out := .next (s.selectVictims (s.ev.n0 % 8))

end Sys2Proof.Machine
end

