-- ==== Sys2Proof/Machine/Cool.lean ====
section
/-! DEFINITION. The Valve Allocation Table and the coolant instructions (26 R405 to R412). -/

namespace Sys2Proof.Machine

open Sys2Proof Decode

/-- VAT.z (R407). -/
def Zone.word (v : Zone) : Word :=
  BitVec.ofNat 64 (v.st.toNat * 2 ^ 62 + v.step.toNat * 2 ^ 59 + v.opening % 256 * 2 ^ 48 + v.flow % 256 * 2 ^ 40
    + max v.temp0 v.temp1 % 256 * 2 ^ 32 + v.floor % 128 * 2 ^ 21 + v.sched % 128 * 2 ^ 14 + v.prog % 128 * 2 ^ 7 + v.commit % 128)

/-- The held table of the task of a core (R411). -/
def State.heldOf (s : State) (n : Nat) : List (Nat × Nat) :=
  match s.gangOf (s.coreAt n) with
  | some g => g.held
  | none => (s.coreAt n).task.held
def State.setHeld (s : State) (n : Nat) (h : List (Nat × Nat)) : State :=
  match s.gangOf (s.coreAt n) with
  | some g => s.modGang g.id fun g => { g with held := h }
  | none => s.modCore n fun c => c.modTask fun t => { t with held := h }
/-- Held(z). -/
def heldIn (h : List (Nat × Nat)) (z : Nat) : Nat := ((h.find? fun x => x.1 == z).map (·.2)).getD 0
/-- The table with Held(z) changed; a zone keeps its place when nothing of it is held (log 89). -/
def putHeld (h : List (Nat × Nat)) (z n : Nat) : List (Nat × Nat) :=
  if h.any fun x => x.1 == z then h.map fun x => if x.1 = z then (z, n) else x else h ++ [(z, n)]

/-- The word of a COOLREQ or COOLREL (R411). -/
def coolWord (status moved alloc : Nat) : Word :=
  BitVec.ofNat 64 ((if status = 0 then 0 else 2 ^ 63) + alloc % 256 * 2 ^ 24 + moved % 128 * 2 ^ 16 + status)

/-- R411: a request as the table applies it: `rel` for a COOLREL. -/
def State.coolApply (s : State) (core : Nat) (rel : Bool) (z n : Nat) : Word × State :=
  if 99 < z then (coolWord 4 0 0, s)
  else
    let v := s.zone z
    let h := s.heldOf core
    let held := heldIn h z
    let fail (st : Nat) : Word × State := (coolWord st 0 v.alloc, s)
    if n = 0 ∨ 64 < n then fail 5
    else if !rel then
      if v.st ≠ 0 then fail 3
      else if 64 < v.alloc + n then fail 2
      else if s.poolFree < n then fail 1
      else if (!h.any fun x => x.1 == z) && decide (8 ≤ h.length) then fail 7
      else
        let s := (s.modZone z fun v => { v with prog := v.prog + n }).setHeld core (putHeld h z (held + n))
        (coolWord 0 n (s.zone z).alloc, s)
    else
      let moved := min n held
      if moved = 0 then fail 6
      else
        let s := (s.modZone z fun v => ({ v with prog := v.prog - moved }).trim).setHeld core (putHeld h z (held - moved))
        (coolWord 0 moved (s.zone z).alloc, s)

/-- COOLSTAT's word (R411). -/
def State.coolStat (s : State) (z : Nat) : Word := if 99 < z then 0xC000000000000000 else (s.zone z).word

/-! The instructions (R410). -/

def shCool (f : Fields) : Shape := { plainTy f with dst := .s, sa := .s, sb := .s, emp := .long }
def shCoolstat (f : Fields) : Shape := { plainTy f with dst := .s, sa := .s, emp := .long }

/-- A request issues: the table applies it on the way, and its fill lands between `lo` and `hi` cyc after issue (R408). -/
def coolSend (op lo hi : Nat) (b : State → Word) (s : State) : Res :=
  let n := s.core.num
  let s := { s with core := s.core.irrevocable }
  let (d, s) := s.freeCyc lo hi
  let (a, s) := s.freeCyc 1 d
  let (u, s) := s.addFill (some (.s s.core.q.ir.dst)) (.request op s.srcA.toNat (b s).toNat) (d + 1)
  .done (s.schedule a .longLatencyFill { n0 := n, n1 := u, n2 := 2 })

/-- COOLREQ (R411). -/
def execCoolreq (s : State) : Out := issue (shCool s.core.q.ir) none (coolSend 1 300 3000 (·.srcB)) s
/-- COOLREL (R411). -/
def execCoolrel (s : State) : Out := issue (shCool s.core.q.ir) none (coolSend 2 300 3000 (·.srcB)) s
/-- COOLSTAT (R411). -/
def execCoolstat (s : State) : Out := issue (shCoolstat s.core.q.ir) none (coolSend 3 100 1000 fun _ => 0) s

end Sys2Proof.Machine
end

