-- ==== Sys2Proof/Machine/Trap.lean ====
section
/-! DEFINITION. Trap instructions, YIELD, trace and capture instructions, the clock lock (18 R321, R330, 25 R398, R399, R403,
R404). -/

namespace Sys2Proof.Machine

open Sys2Proof Decode

/-- R321, R398: every field is zero but the registers, the predicate, MOD up to `md` and IMM24 below `imm`. -/
def sysZero (f : Fields) (md imm : Nat) : Bool :=
  decide (f.ty = 0) && decide (f.md.toNat ≤ md) && decide (f.emp = 0) && decide (f.pd = 0) && decide (f.imm.toNat < imm)

/-! TRAP, TRET, BKPT (R321). -/

def shTrap (f : Fields) : Shape := { immOk := sysZero f 0 (2 ^ 16) }
def shTret (f : Fields) (thm : Bool) : Shape := { immOk := sysZero f 1 1 && thm, pred := false }

/-- TRAP (R321). -/
def execTrap (s : State) : Out :=
  issue (shTrap s.core.q.ir) none (fun s => .trap (trapOf SWTRAP (immBits s.core.q.ir 0 16))) s

/-- R321, R325: the return, past the instruction at TPC with SKIP; every wait that has stalled counts from 0. -/
def tretBody (s : State) : Res :=
  let tpc := s.core.trap.tpc
  match (if s.core.q.ir.md.getLsbD 0 then s.endAway tpc else none) with
  | some p => .hold (s.askLine tpc p)
  | none =>
    let target := if s.core.q.ir.md.getLsbD 0 then s.afterEnd tpc else tpc
    let t := { s with core := s.core.rearm s.cyc }
    .goto (t.returnFromTrap target) target true false
/-- TRET (R321). -/
def execTret (s : State) : Out := issue (shTret s.core.q.ir s.core.trap.thm) none tretBody s

/-- R399: a cause of source 0; in a loop it waits for the boundary. -/
def bkptBody (s : State) : Res :=
  let c := s.core
  let pc := c.q.pc
  let code := immBits c.q.ir 0 16
  if c.trap.thm then .done s
  else
    let loop := c.q.innermost pc
    .done { s with core := c.modDbg fun d => d.cause 0 pc (some code) loop loop.isNone }
/-- BKPT (R321, R399). -/
def execBkpt (s : State) : Out := issue (shTrap s.core.q.ir) none bkptBody s

/-! YIELD (R329, R330). -/

def shYield (f : Fields) : Shape := { plainTy f with immOk := decide (f.imm.toNat < 2) && decide (f.pd = 0), pred := false }
/-- A saturating 32-bit count. -/
def bump32 (n : BitVec 32) : BitVec 32 := if n = BitVec.allOnes 32 then n else n + 1
/-- A member has stopped for its gang's removal. -/
def State.markStopped (s : State) (n : Nat) : State :=
  match (s.coreAt n).task.gang with
  | none => s
  | some i => s.modGang i fun g => { g with stopped := if g.stopped.contains n then g.stopped else g.stopped ++ [n] }
def yieldBody (s : State) : Res :=
  let c := s.core
  if !c.trap.yreq then .done s
  else
    let c := c.modTrap fun r => { r with yielded := bump32 r.yielded, vdead := c.q.ir.imm.getLsbD 0 }
    .done (State.markStopped { s with core := { c with status := .stopped } } c.num)
/-- YIELD (R330). -/
def execYield (s : State) : Out := issue (shYield s.core.q.ir) none yieldBody s
/-- YIELD_SHORT (R83). -/
def execYieldShort (s : State) : Out := issue (shYield s.core.q.ir) none yieldBody s

/-- R329: at the deadline a member stops at its next instruction boundary; an instruction that waits for its verdict ends first. -/
def State.deadline (s : State) (n : Nat) : State :=
  let c := s.coreAt n
  if c.status ≠ .running ∨ !c.trap.yreq then s
  else if c.q.verdict.isSome then s.schedule 1 .yieldDeadline { n0 := n }
  else (s.modCore n fun c => { (c.modTrap fun r => { r with missed := bump32 r.missed }) with status := .stopped }).markStopped n
/-- YIELD_DEADLINE (R329). -/
def execYieldDeadline (s : State) : Out := .next (s.deadline s.ev.n0)

/-! Trace and captures (R398, R403). -/

def shTrmark (f : Fields) : Shape := { sa := .s, immOk := sysZero f 0 (2 ^ 16) }
def shTrmask (f : Fields) : Shape := { immOk := sysZero f 0 (2 ^ 16), pred := false }
def shCapstart (f : Fields) : Shape := { plainTy f with immOk := decide (f.imm.toNat < 4) }
def shCapstop (f : Fields) : Shape := { shCapstart f with dst := .s }

/-- TRMARK (R398). -/
def execTrmark (s : State) : Out :=
  issue (shTrmark s.core.q.ir) none (fun s =>
    .done (s.trace s.core.num 1 (leBytes 8 (immBits s.core.q.ir 0 16) ++ leBytes 8 s.srcA.toNat))) s
/-- TRSTART (R398). -/
def execTrstart (s : State) : Out :=
  issue (shTrmask s.core.q.ir) none (fun s =>
    .done { s with core := s.core.modDbg fun d => { d with cls := d.cls ||| BitVec.ofNat 16 s.core.q.ir.imm.toNat } }) s
/-- TRSTOP (R398). -/
def execTrstop (s : State) : Out :=
  issue (shTrmask s.core.q.ir) none (fun s =>
    .done { s with core := s.core.modDbg fun d => { d with cls := d.cls &&& ~~~ BitVec.ofNat 16 s.core.q.ir.imm.toNat } }) s
/-- CAPSTART (R403). -/
def execCapstart (s : State) : Out :=
  issue (shCapstart s.core.q.ir) none (fun s =>
    .done { s with core := s.core.modDbg fun d =>
      { d with caps := vput d.caps (immBits s.core.q.ir 0 2) { opened := true, start := s.stamp } } }) s
/-- R403: the record of an open slot, and IN; a closed slot reads 0. -/
def capstopBody (s : State) : Res :=
  let k := immBits s.core.q.ir 0 2
  let x := vat s.core.dbg.caps k
  if !x.opened then .done (s.writeS 2 s.core.q.ir.dst 0)
  else
    let t := s.trace s.core.num 5 (leBytes 8 x.inCyc ++ leBytes 8 (x.outTicks % 2 ^ 63 + (if x.pre then 2 ^ 63 else 0))) k
    let t := { t with core := t.core.modDbg fun d => { d with caps := vput d.caps k {} } }
    .done (t.writeS 2 s.core.q.ir.dst (BitVec.ofNat 64 x.inCyc))
/-- CAPSTOP (R403). -/
def execCapstop (s : State) : Out := issue (shCapstop s.core.q.ir) (some 2) capstopBody s

/-! Clock lock (R404). -/

def shClklock (f : Fields) : Shape := { plainTy f with dst := .s, emp := .long, immOk := decide (f.imm.toNat < 8) }
def shClkfree (f : Fields) : Shape := { plainTy f with immOk := decide (f.imm = 0) && decide (f.pd = 0) }

/-- CLKLOCK (R404). -/
def execClklock (s : State) : Out :=
  issue (shClklock s.core.q.ir) none (fun s =>
    .done (s.fillIn (some (.s s.core.q.ir.dst)) (.request 4 (immBits s.core.q.ir 0 3) 0) 2000 20000)) s
/-- CLKFREE (R404). -/
def execClkfree (s : State) : Out := issue (shClkfree s.core.q.ir) none (fun s => .done (s.endLock s.core.num 0)) s

/-- R404: a request is decided: FREE VALUE: whether the management core permits it. -/
def State.decideLock (s : State) (n p : Nat) : Word × State :=
  let (ok, s) := s.freeBool
  if !ok then (1, s)
  else if s.cores.any fun c => c.num != n && clusterOf c.num == clusterOf n && c.dbg.held then (2, s)
  else
    let s := s.modCore n fun c => c.modDbg fun d => { d with held := true, point := BitVec.ofNat 3 p }
    (0, s.trace n 8 (leBytes 16 p))
/-- R404: the clock of a cluster is forced down by `cause`. -/
def State.breakLock (s : State) (cl cause : Nat) : State :=
  (s.cores.filter fun c => clusterOf c.num == cl && c.dbg.held && !c.dbg.broken).foldl (fun (s : State) c =>
    (s.modCore c.num fun c => c.modDbg fun d => { d with broken := true, breakCause := BitVec.ofNat 8 cause }).trace c.num 9 (leBytes 16 cause)) s

end Sys2Proof.Machine
end

