-- ==== Sys2Proof/Machine/Phase.lean ====
section
/-! DEFINITION. Buffer phases: PHCOMMIT, rollback, the exit of a thread, and the failure of a die (24 R385 to R393, 17 R308). -/

namespace Sys2Proof.Machine

open Sys2Proof Decode

/-! Commit (R389). -/

def shPhcommit (f : Fields) : Shape := { immOk := sysZero f 0 1, pred := false }

/-- The commands of the open phase that the thread itself has issued to LDQ and MXQ. -/
def CoreSt.phaseCmds (c : CoreSt) : List Cmd := c.eng.cmds.filter fun k => k.q != 2 && !k.chain && k.phase == c.ph.phase.toNat

/-- A commit has nothing to wait for but the Taster. -/
def State.commitReady (s : State) : Bool :=
  let c := s.core
  decide (c.q.sFull ||| 1 = BitVec.allOnes 64) && decide (c.q.vFull = BitVec.allOnes 32) && c.phaseCmds.isEmpty &&
    (c.eng.cmds.all fun k => k.compared) && (s.mem.flying.all fun f => f.core != c.num || f.compared) &&
    !s.agenda.any fun e => e.op == .rollback && e.arg.n0 == c.num

/-- R382, R389: a commit holds until the Taster, which runs 4 to 12 cyc behind, has passed it. FREE VALUE: when. -/
def commitHold (s : State) : Option State :=
  let waited := s.cyc - s.core.q.holdFrom.getD s.cyc
  if !s.commitReady || decide (waited < 4) then some s
  else if 12 ≤ waited || Config.freeChoice s.fresh then none
  else some { s with fresh := s.fresh + 1 }

/-- Snapshot: the state the next instruction starts from, after the back-edge of a commit that ends a loop body. -/
def State.snapshot (s : State) : Snapshot :=
  let pc := s.core.q.pc
  let (t, next, _, _) := s.backEdge pc (s.core.q.endingAt pc) []
  let c := t.core
  let q := c.q.landAll
  { s := q.s, m := q.m, pc := next, thm := c.trap.thm, tpc := c.trap.tpc, tcause := c.trap.tcause, loops := q.loops, loopCount := q.loopCount,
    lfsr := q.lfsr, fast := c.tile.fast, counts := c.cnt, lm := c.eng.lm, ms := c.eng.ms, ml := c.eng.ml, sm := c.eng.sm,
    xnext := c.eng.xnext, xdone := c.eng.xdone }

/-- R389: the held STQ commands are released, Record and Snapshot are kept, and the next phase begins. -/
def State.commitPhase (s : State) : State :=
  let c := s.core
  let snap := s.snapshot
  let freed := (c.eng.cmds.filter fun k => k.held).map Cmd.uid
  let c := c.modEng fun e => { e with cmds := e.cmds.map fun (k : Cmd) => { k with held := false } }
  let c := c.modTile fun t => { t with
    t := tab 16 fun i => { vat t.t i with defined := false },
    active := { t.active with defined := false }, shadow := { t.shadow with defined := false } }
  let c := c.modPh fun p => { p with
    phase := p.phase + 1, rolls := 0, live := false, irrev := false, vDefined := 0, snap := some snap, record := p.copies.take 16,
    ovf := p.gathered || decide (16 < p.copies.length), copies := [], gathered := false, posted := [] }
  freed.foldl (fun (s : State) u => s.schedule 0 .engineCommandBegin { n0 := c.num, n1 := u }) { s with core := c, fresh := s.fresh + 1 }

/-- The hold and the effect of PHCOMMIT while EN = 1. -/
def phaseHold (s : State) : Option State := if s.core.ph.en then commitHold s else none
def State.commitIfOpen (s : State) : State := if s.core.ph.en then s.commitPhase else s

/-- PHCOMMIT (R389). -/
def execPhcommit (s : State) : Out := issueWith (shPhcommit s.core.q.ir) none phaseHold false (fun s => .done s.commitIfOpen) s
/-- PHCOMMIT_SHORT (R83). -/
def execPhcommitShort (s : State) : Out := issueWith (shPhcommit s.core.q.ir) none phaseHold false (fun s => .done s.commitIfOpen) s

/-- R389: a TEXIT that takes effect first commits. -/
def texitHold (s : State) : Option State := if predOn s.core.q s.core.q.ir then phaseHold s else none
/-- TEXIT (R308). -/
def execTexit (s : State) : Out :=
  issueWith (shTexit s.core.q.ir) none texitHold false (fun s => .done s.commitIfOpen.exitThread) s

/-! Rollback (R390, R391). -/

/-- Record's commands at the tails of their channels; their tokens are in the restored counts. -/
def State.rerunRecord (s : State) (n : Nat) (ks : List Cmd) : State :=
  ks.foldl (fun (s : State) k =>
    let (u, s) := s.takeUid
    let c := s.coreAt n
    let k' : Cmd := { k with
      uid := u, slot := c.freeSlotOf k.q k.ch, fill := none, fol := none, phase := c.ph.phase.toNat, held := false, compared := true, st := .popWait,
      wait := none, det := 0, sub := 0, progress := 0, packets := 0, got := [], stalled := false, popped := true, early := false, fetched := false,
      powered := false, opnds := [], lands := [], elems := [], resumed := 0, desc := [], descDet := 0, walks := none, raw := k.raw &&& ~~~ (BitVec.ofNat 128 (0xF * 2 ^ 106 + 0x3 * 2 ^ 102)), rerun := true }
    (s.modCore n fun c => c.modEng fun e => { e with cmds := e.cmds ++ [k'] }).schedule 0 .engineCommandBegin { n0 := n, n1 := u }) s

/-- The thread of a core returns to its snapshot. -/
def CoreSt.rolledBack (c : CoreSt) (x : Snapshot) (cause cyc : Nat) : CoreSt :=
  let dead (k : Cmd) : Bool := !k.chain && ((k.q != 2 && k.phase == c.ph.phase.toNat) || k.held)
  let e := { c.eng with
    cmds := c.eng.cmds.filter fun k => !dead k
    events := c.ph.posted.foldl (fun (l : List Word) w => l.erase w) c.eng.events
    fol := none
    lm := x.lm, ms := x.ms, ml := x.ml, sm := x.sm + x.pushSm
    xnext := x.xnext
    xdone := tab 8 fun i => if i < 4 then vat x.xdone i else vat c.eng.xdone i }
  let q := { c.q with
    s := x.s, m := x.m, sFull := BitVec.allOnes 64, vFull := BitVec.allOnes 32, pc := x.pc, entering := true, far := none,
    nextIssue := cyc + 1, rerun := !c.ph.record.isEmpty, lat := [],
    fills := [], hist := [], holdFrom := none, verdict := none, loops := x.loops, loopCount := x.loopCount, lfsr := x.lfsr }
  let p := { c.ph with rolls := c.ph.rolls + 1, cause := BitVec.ofNat 4 cause, copies := [], gathered := false, posted := [] }
  (({ c with eng := e, q := q, ph := p, cnt := x.counts }.modTrap fun r => { r with thm := x.thm, tpc := x.tpc, tcause := x.tcause }).modTile
    fun t => { t with fast := x.fast }).count 8

/-- Accesses that have not left a core are discarded (R383, R390): a rollback runs their instructions again. -/
def State.dropUncompared (s : State) (n : Nat) : State :=
  let gone := (s.mem.flying.filter fun f => f.core == n && !f.compared).map InFlight.uid
  ({ s with mem := { s.mem with flying := s.mem.flying.filter fun f => f.core != n || f.compared } }).dropPosts gone

/-- R390: a rollback, or a task kill with code 3 where none is available. -/
def State.rollbackStep (s : State) (n cause : Nat) : State :=
  let c := s.coreAt n
  let p := c.ph
  if c.status = .idle then s
  else
    match p.snap with
    | none => (s.modCore n fun c => { c with status := .stopped }).schedule 0 .taskKill { n0 := n, n1 := 3 }
    | some x =>
      if !p.en || p.live || p.irrev || p.ovf || decide (p.rolls = p.retry) then
        (s.modCore n fun c => { c with status := .stopped }).schedule 0 .taskKill { n0 := n, n1 := 3 }
      else
        let gone := c.eng.cmds.filter fun k => !((c.rolledBack x cause s.cyc).eng.cmds.any fun y => y.uid == k.uid)
        let s := (s.cancel fun e => e.op == .longLatencyFill && e.arg.n0 == n).dropUncompared n
        let s := gone.foldl (fun (s : State) k => s.endDraw n k.uid) s
        let s := s.modCore n fun c => c.rolledBack x cause s.cyc
        let d := dieOf n
        let s := { s with host := { s.host with relRoll := vput s.host.relRoll d (bumpAt (vat s.host.relRoll d) cause) } }
        (s.rerunRecord n p.record).trace n 7 (leBytes 4 p.phase.toNat ++ leBytes 4 cause ++ leBytes 8 x.pc.toNat)

/-- ROLLBACK (R390). -/
def execRollback (s : State) : Out := .next (s.rollbackStep s.ev.n0 s.ev.n1)

/-! The failure of a die (R393). -/

/-- The counts that a context of a failed die held at homes that survive are retired poisoned, those of its collectives among them; a post
of it that is under way is retired as it is accepted. -/
def State.abandonCore (s : State) (d : Nat) (c : CoreSt) : State :=
  let s := { s with pe := { s.pe with
    colls := s.pe.colls.filter fun k => k.thread != c.task.thread
    updates := s.pe.updates.map fun (u : Update) => if u.owner = some c.num ∧ (s.coreAt c.num).task.thread = c.task.thread then { u with orphan := true } else u } }
  c.task.counts.foldl (fun (s : State) (l, t, k) =>
    match s.pe.instOf (locInst l) with
    | some g => if g.isAt d ∨ k ≤ 0 then s else s.retire1 (dieOf c.num) l t (-k) true
    | none => s) s
/-- The count of a gang of a failed die. -/
def State.abandonGang (s : State) (d : Nat) (g : Gang) : State :=
  let s := { s with sched := { s.sched with gangs := s.sched.gangs.filter fun x => x.id != g.id,
                                            ckpts := s.sched.ckpts.filter fun x => x.1 != g.id,
                                            placed := s.sched.placed.filter fun r => r.resume != some g.id } }
  match s.pe.instOf g.task.inst with
  | some gi => if gi.isAt d ∨ g.dropDone then s else s.retire1 d g.task.loc g.task.time (-1) true
  | none => s
/-- R393: pending frontier waits for an instance of the failed die fill with ERR and CLOSED. -/
def State.closeWaits (s : State) (d : Nat) : State :=
  (s.cores.filter fun c => dieOf c.num != d).foldl (fun (s : State) c =>
    c.q.fills.foldl (fun (s : State) f =>
      match f.src with
      | .frontier l _ false _ _ =>
        (match s.pe.instOf (locInst l) with
        | some g => if g.isAt d then s.resolveFill c.num f.uid 0xA000000000000000 20 60 else s
        | none => s)
      | _ => s) s) s

/-- DIE_FAILURE (R393). -/
def execDieFailure (s : State) : Out :=
  let d := s.ev.n0 % 4
  let s := { s with host := { s.host with diefail := setBit s.host.diefail d true } }
  let mine := s.cores.filter fun c => dieOf c.num == d && decide (c.status ≠ .idle)
  let s := mine.foldl (fun (s : State) c => ((s.dropCoreEvents c.num).dropUncompared c.num).modCore c.num fun c => { c with status := .stopped }) s
  let saved := (s.sched.ckpts.map (·.2)).filter fun (c : CoreSt) => dieOf c.num == d
  let s := (mine ++ saved).foldl (fun (s : State) c => s.abandonCore d c) s
  let s := (s.sched.gangs.filter fun g => g.cluster / 2 == d).foldl (fun (s : State) g => s.abandonGang d g) s
  .next (s.closeWaits d)

end Sys2Proof.Machine
end

