-- ==== Sys2Proof/Machine/Csr.lean ====
section
/-! DEFINITION. Control registers as CSRRD reads them and CSRWR writes them (R95, R122 and the rules of each register). -/

namespace Sys2Proof.Machine

open Sys2Proof Decode

/-! Registers as words. -/

/-- TSHP.Tn (R50). -/
def TileReg.tshp (t : TileReg) : Nat := t.fmt.toNat * 2 ^ 16 + t.cols.toNat * 2 ^ 8 + t.rows.toNat
/-- TLOC.Tn (R174). -/
def TileReg.tloc (t : TileReg) : Nat := t.space.toNat * 2 ^ 20 + t.offset.toNat
/-- LPCFG.n (R53). -/
def LoopSt.cfg (l : LoopSt) : Nat := (if l.act then 2 ^ 31 else 0) + l.spv.toNat * 2 ^ 16 + l.mb.toNat * 2 ^ 8 + l.stg.toNat
/-- TOKCNT (R230). -/
def EngSt.tokcnt (e : EngSt) : Nat := e.sm % 16 * 2 ^ 12 + e.ms % 16 * 2 ^ 8 + e.ml % 16 * 2 ^ 4 + e.lm % 16
/-- EVSTAT (R243). -/
def EngSt.evstat (e : EngSt) : Nat := e.drop % 2 ^ 16 * 2 ^ 32 + e.events.length % 128
/-- YCTL (R318). -/
def TrapSt.yctl (r : TrapSt) (cyc : Nat) : Nat := if r.yreq then 2 ^ 63 + (r.left - cyc) % 2 ^ 32 else 0
/-- PHCTL and PHSTAT (R385, R386). -/
def PhaseSt.ctl (p : PhaseSt) : Nat := p.retry.toNat * 16 + (if p.en then 1 else 0)
def PhaseSt.stat (p : PhaseSt) : Nat :=
  let b (x : Bool) (n : Nat) : Nat := if x then n else 0
  p.phase.toNat * 2 ^ 32 + p.rolls.toNat * 2 ^ 28 + p.cause.toNat * 2 ^ 16 + b p.ovf 8 + b p.irrev 4 + b p.live 2 + b p.en 1
/-- TRCTL (R395) and DBGCTL (R400). -/
def DebugSt.trctl (d : DebugSt) : Nat := d.cls.toNat * 2 ^ 16 + (if d.stopfull then 128 else 0) + d.log2n.toNat
def DebugSt.dbgctl (d : DebugSt) : Nat := (if d.step then 16 else 0) + d.bpen.toNat
/-- CLKSTAT (R404). -/
def DebugSt.clkstat (d : DebugSt) : Nat :=
  (if d.held then 2 ^ 63 else 0) + (if d.broken then 2 ^ 62 else 0) + d.breakCause.toNat * 2 ^ 48 + d.point.toNat
/-- PTROOT (R213). -/
def TaskSt.ptroot (t : TaskSt) : Nat := t.asn.toNat * 2 ^ 52 + t.rootDie.toNat * 2 ^ 41 + t.rootPfn.toNat * 2 ^ 14
/-- DEVID (R425). -/
def State.devid (s : State) : Nat := 0x0400 * 2 ^ 36 + 2 * 2 ^ 28 + 1 * 2 ^ 24 + (if s.host.recov then 0 else s.host.fwrel.toNat)
/-- PWRDIE (R412). -/
def State.pwrdie (s : State) (d : Nat) : Nat :=
  let drawn := s.sched.draws.foldl (fun (n : Nat) w => if dieOf w.1 = d then n + w.2.2 else n) 0
  vat s.cool.limits d % 2 ^ 16 * 2 ^ 32 + vat s.sched.reserved d % 2 ^ 16 * 2 ^ 16 + drawn % 2 ^ 16

/-- The register of a number, or none where no chapter lists it (R95). -/
def State.csr (s : State) (n num : Nat) : Option Nat :=
  let c := s.coreAt n
  let q := c.q
  let d := dieOf n
  let lo := num % 8
  if num < 0x010 then some (c.reg num).tshp
  else if num < 0x018 then some (vat q.loops lo).start.toNat
  else if num < 0x020 then some (vat q.loops lo).stop.toNat
  else if num < 0x028 then some (vat q.loops lo).rem.toNat
  else if num < 0x030 then some (vat q.loops lo).iter.toNat
  else if num < 0x038 then some (vat q.loops lo).cfg
  else if num = 0x040 then some q.lfsr.toNat
  else if num = 0x041 then some c.cnt.stats.sat
  else if num = 0x042 then some c.cnt.stats.flush
  else if num = 0x043 then some c.cnt.stats.nan
  else if num = 0x044 then some c.cnt.stats.esc
  else if num = 0x045 then some c.cnt.stats.skip
  else if num = 0x046 then some c.cnt.gboob.toNat
  else if 0x080 ≤ num ∧ num < 0x088 then some (vat c.eng.xdone lo).toNat
  else if 0x088 ≤ num ∧ num < 0x090 then some (vat c.eng.xnext lo).toNat
  else if 0x090 ≤ num ∧ num < 0x098 then some (vat c.eng.xerr lo).toNat
  else if num = 0x098 then some c.eng.tokcnt
  else if num = 0x099 then some c.eng.evstat
  else if 0x0A0 ≤ num ∧ num < 0x0E0 then some (vat c.eng.rsc (num - 0x0A0)).toNat
  else if 0x0E0 ≤ num ∧ num < 0x0F2 then
    some (if num % 2 = 0 then (c.poslAt ((num - 0x0E0) / 2)).toNat else (c.poshAt s.cyc ((num - 0x0E0) / 2)).toNat)
  else if num = 0x0F8 then some c.eng.txqcfg.toNat
  else if num = 0x100 then some c.tile.ttbase.toNat
  else if num = 0x101 then some 0
  else if num = 0x102 then some (if c.tile.fast then 1 else 0)
  else if num = 0x103 then some c.cnt.promcnt.toNat
  else if 0x104 ≤ num ∧ num < 0x114 then some (c.reg (num - 0x104)).tloc
  else if num = 0x180 then some q.pgWait
  else if num = 0x181 then some c.task.poolsz.toNat
  else if num = 0x182 then some c.task.nestmax.toNat
  else if num = 0x183 then some (s.poolUse c.task.thread)
  else if num = 0x184 then some (vat s.sched.admWait (clusterOf n)).toNat
  else if num = 0x185 then some (vat s.sched.frameCnt d).toNat
  else if num = 0x186 then some (vat s.sched.slipCnt d).toNat
  else if num = 0x187 then some (c.eng.telast % 256)
  else if num = 0x188 then some c.task.tpldir.toNat
  else if num = 0x200 then some c.trap.tvec.toNat
  else if num = 0x201 then some c.trap.tpc.toNat
  else if num = 0x202 then some c.trap.tcause.toNat
  else if 0x203 ≤ num ∧ num < 0x207 then some (vat c.trap.taux (num - 0x203)).toNat
  else if num = 0x207 then some (if c.trap.thm then 1 else 0)
  else if 0x208 ≤ num ∧ num < 0x210 then some (vat c.trap.tstall lo).toNat
  else if num = 0x210 then some (c.trap.yctl s.cyc)
  else if num = 0x211 then some (c.trap.missed.toNat * 2 ^ 32 + c.trap.yielded.toNat)
  else if num = 0x212 then some c.trap.csave.toNat
  else if num = 0x213 then some c.trap.spdirty0.toNat
  else if num = 0x214 then some c.trap.spdirty1.toNat
  else if num = 0x218 then some c.ph.ctl
  else if num = 0x219 then some c.ph.stat
  else if num = 0x270 then some c.task.ptroot
  else if num = 0x280 then some c.dbg.trbase.toNat
  else if num = 0x281 then some c.dbg.trctl
  else if num = 0x282 then some c.dbg.trhead.toNat
  else if num = 0x283 then some c.dbg.trdrop.toNat
  else if num = 0x290 then some c.dbg.dbgctl
  else if 0x291 ≤ num ∧ num < 0x295 then some (vat c.dbg.bp (num - 0x291)).toNat
  else if 0x2A0 ≤ num ∧ num < 0x2A8 then some (vat c.dbg.pmc lo).toNat
  else if 0x2A8 ≤ num ∧ num < 0x2B0 then some (vat c.dbg.pmsel lo).toNat
  else if num = 0x2B0 then some c.dbg.bcmsel.toNat
  else if num = 0x2B1 then some (((c.dbg.bcm.find? fun p => p.1 == c.dbg.bcmsel.toNat).map (·.2)).getD 0 % 2 ^ 32)
  else if num = 0x2C0 then some c.dbg.clkstat
  else if num = 0x2F0 then some (if c.tile.spdbg then 1 else 0)
  else if num = 0x2FF then some s.devid
  else if num = 0x300 then some (s.pwrdie d)
  else if num = 0x301 then some (((s.heldOf n).foldl (fun (a : Nat) x => a + x.2) 0) % 1024)
  else if num = 0x302 then some (zoneOfCore n)
  else none

/-- CSRs that no case of `csrPut` or of the rows below writes: RO, or not listed. -/
def State.csrListed (s : State) (num : Nat) : Bool := (s.csr s.core.num num).isSome

/-! CSRRD (R122). -/

def csrField (f : Fields) : Nat := f.imm.toNat % 4096
def shCsrrd (s : State) (f : Fields) : Shape := { plainTy f with dst := .s, immOk := decide (f.imm.toNat < 4096) && s.csrListed (csrField f) }
def shCsrwr (s : State) (f : Fields) : Shape := { plainTy f with sa := .s, immOk := decide (f.imm.toNat < 4096) && s.csrListed (csrField f) }

/-- R263: the hold of a read of TSHP.Tn, whose new shape is not complete. -/
def tshpReadHold (s : State) : Option State :=
  let n := csrField s.core.q.ir
  if n < 16 ∧ s.cyc < (s.core.reg n).ready then some s else none

/-- CSRRD (R122). -/
def execCsrrd (s : State) : Out :=
  issueWith (shCsrrd s s.core.q.ir) (some 2) tshpReadHold false (fun s =>
    .done (s.writeS 2 s.core.q.ir.dst (BitVec.ofNat 64 ((s.csr s.core.num (csrField s.core.q.ir)).getD 0)))) s

/-! CSRWR (R122). -/

/-- R122: a value that the register's own description refuses. -/
def csrRefused (num v : Nat) : Bool :=
  if num = 0x181 then decide (v = 0 ∨ 65536 < v)
  else if num = 0x182 then decide (v % 64 = 0)
  else if num = 0x200 ∨ num = 0x201 then decide (2 ^ 51 ≤ v) || decide (nbits v 5 2 ≠ 0)
  else if 0x2A8 ≤ num ∧ num < 0x2B0 then decide (9 ≤ v % 16)
  else if num = 0x2B0 then decide (9 < nbits v 5 4)
  else false

/-- A write of a register without behaviour of its own; RO registers and reserved bits keep their values (R6, R7). -/
def CoreSt.csrPut (c : CoreSt) (num : Nat) (v : Word) : CoreSt :=
  let x := v.toNat
  let lo := num % 8
  let stats (f : Stats → Stats) : CoreSt := c.modCnt fun k => { k with stats := f k.stats }
  if num = 0x041 then stats fun k => { k with sat := x }
  else if num = 0x042 then stats fun k => { k with flush := x }
  else if num = 0x043 then stats fun k => { k with nan := x }
  else if num = 0x044 then stats fun k => { k with esc := x }
  else if num = 0x045 then stats fun k => { k with skip := x }
  else if num = 0x046 then c.modCnt fun k => { k with gboob := v }
  else if num = 0x099 then c.modEng fun e => { e with drop := nbits x 32 16 }
  else if 0x0A0 ≤ num ∧ num < 0x0E0 then c.modEng fun e => { e with rsc := vput e.rsc (num - 0x0A0) (BitVec.ofNat 16 x) }
  else if num = 0x103 then c.modCnt fun k => { k with promcnt := v }
  else if num = 0x181 then c.modTask fun t => { t with poolsz := BitVec.ofNat 17 x }
  else if num = 0x182 then c.modTask fun t => { t with nestmax := BitVec.ofNat 6 x }
  else if num = 0x188 then c.modTask fun t => { t with tpldir := BitVec.ofNat 51 (x / 8 * 8) }
  else if num = 0x200 then c.modTrap fun r => { r with tvec := BitVec.ofNat 51 x }
  else if num = 0x201 then c.modTrap fun r => { r with tpc := BitVec.ofNat 51 x }
  else if num = 0x290 then c.modDbg fun d => { d with step := v.getLsbD 4, bpen := BitVec.ofNat 4 x }
  else if 0x291 ≤ num ∧ num < 0x295 then c.modDbg fun d => { d with bp := vput d.bp (num - 0x291) (BitVec.ofNat 51 x) }
  else if 0x2A0 ≤ num ∧ num < 0x2A8 then c.modDbg fun d => { d with pmc := vput d.pmc lo v }
  else if 0x2A8 ≤ num ∧ num < 0x2B0 then c.modDbg fun d => { d with pmsel := vput d.pmsel lo (BitVec.ofNat 4 x) }
  else if num = 0x2B0 then c.modDbg fun d => { d with bcmsel := BitVec.ofNat 9 x }
  else c

/-- R387: a CSRWR sets IRREV but for TSHP, TLOC, LFSR, the STAT counters, GBOOB and PROMCNT. -/
def csrRevocable (num : Nat) : Bool := decide (0x041 ≤ num ∧ num ≤ 0x046) || decide (num = 0x103)

/-- R122: of the write of a PMC and the count of its own instruction (R402) the write is later; what is put before that count. -/
def CoreSt.beforeCount (c : CoreSt) (num : Nat) (v : Word) : Word :=
  if 0x2A0 ≤ num ∧ num < 0x2A8 ∧ vat c.dbg.pmsel (num % 8) = 2 then v - 1 else v
/-- CSRWR (R122). -/
def execCsrwr (s : State) : Out :=
  issue (shCsrwr s s.core.q.ir) none (fun s =>
    let num := csrField s.core.q.ir
    if csrRefused num s.srcA.toNat then illegal 4
    else
      let c := s.core.csrPut num (s.core.beforeCount num s.srcA)
      .done { s with core := if csrRevocable num then c else c.irrevocable }) s

/-! Registers with a behaviour of their own. -/

/-- R52: the hold of a write of TSHP.Tn or TLOC.Tn. -/
def tileCsrHold (lo : Nat) (s : State) : Option State :=
  if s.core.tileBusy s.cyc (csrField s.core.q.ir - lo) true then some s else none

/-- CSRWR_TSHP (R52). -/
def execCsrwrTshp (s : State) : Out :=
  issueWith (shCsrwr s s.core.q.ir) none (tileCsrHold 0) false (fun s =>
    let x := s.srcA.toNat
    if !shapeOk x then illegal 4 else .done (s.configure (csrField s.core.q.ir % 16) x)) s

/-- R174: a location that CSRWR refuses. -/
def tlocRefused (x : Nat) : Bool :=
  let sp := nbits x 20 2
  let off := nbits x 0 20
  decide (sp < 2) || decide (off % 256 ≠ 0) || decide ((if sp = 2 then Config.sizeA else Config.sizeC) < off + 16384)
/-- R174: a register's region moves; a STORED tile's bytes, its elements and scale data (R175), are copied first. -/
def CoreSt.moveTloc (c : CoreSt) (n x : Nat) : CoreSt :=
  let t := c.reg n
  let t' : TileReg := { t with space := BitVec.ofNat 2 (nbits x 20 2), offset := BitVec.ofNat 20 x }
  let stored := t.entry.kind == .stored
  let b := c.regBytes t
  let c := if stored then c.writeBuf t'.buf (TileOut.spans { entry := t.entry, data := b.1, scales := b.2 } t') else c
  c.modReg n fun _ => { t' with
    entry := if stored then { t.entry with payload := plStored t'.space.toNat t'.offset.toNat } else t.entry }
/-- CSRWR_TLOC (R174). -/
def execCsrwrTloc (s : State) : Out :=
  issueWith (shCsrwr s s.core.q.ir) none (tileCsrHold 0x104) false (fun s =>
    let x := s.srcA.toNat
    if tlocRefused x then illegal 4 else .done { s with core := s.core.moveTloc ((csrField s.core.q.ir - 0x104) % 16) x }) s

/-- CSRWR_LFSR (R26): 0 stores 1. -/
def execCsrwrLfsr (s : State) : Out :=
  issue (shCsrwr s s.core.q.ir) none (fun s =>
    let x : BitVec 32 := s.srcA.setWidth 32
    .done (s.modQ fun q => { q with lfsr := if x = 0 then 1 else x })) s

/-- XERR_CLEAR (R229): writing 1 to V clears V, DET and ID. -/
def execXerrClear (s : State) : Out :=
  issue (shCsrwr s s.core.q.ir) none (fun s =>
    let c := s.core.irrevocable
    .done { s with core := if s.srcA.getLsbD 63 then c.modEng fun e => { e with xerr := vput e.xerr (csrField s.core.q.ir - 0x090) 0 } else c }) s

/-- R230: a count above 8. -/
def tokRefused (x : Nat) : Bool := [0, 4, 8, 12].any fun i => decide (8 < nbits x i 4)
/-- CSRWR_TOKCNT (R230). -/
def execCsrwrTokcnt (s : State) : Out :=
  issue (shCsrwr s s.core.q.ir) none (fun s =>
    let x := s.srcA.toNat
    if tokRefused x then illegal 4
    else .done { s with core := (s.core.modEng fun e =>
      { e with lm := nbits x 0 4, ml := nbits x 4 4, ms := nbits x 8 4, sm := nbits x 12 4 }).irrevocable }) s

/-- CSRWR_SPDBG (R211): clearing PEND discards every pending bit. -/
def execCsrwrSpdbg (s : State) : Out :=
  issue (shCsrwr s s.core.q.ir) none (fun s =>
    let on := s.srcA.getLsbD 0
    .done { s with core := (s.core.modTile fun t => { t with spdbg := on, pending := if on then t.pending else [] }).irrevocable }) s

/-- R395: a LOG2N that no ring has. -/
def trctlRefused (num x : Nat) : Bool :=
  let n := nbits x 0 5
  decide (num = 0x281) && (decide (1 ≤ n ∧ n ≤ 6) || decide (25 ≤ n))
/-- CSRWR_TRACE (R395): a write of TRBASE or TRCTL sets TRHEAD to 0. -/
def execCsrwrTrace (s : State) : Out :=
  issue (shCsrwr s s.core.q.ir) none (fun s =>
    let x := s.srcA.toNat
    let num := csrField s.core.q.ir
    if trctlRefused num x then illegal 4
    else
      let c := s.core.modDbg fun d =>
        if num = 0x280 then { d with trbase := BitVec.ofNat 51 (x / 32 * 32), trhead := 0 }
        else { d with cls := BitVec.ofNat 16 (nbits x 16 16), stopfull := s.srcA.getLsbD 7, log2n := BitVec.ofNat 5 x, trhead := 0 }
      .done { s with core := c.irrevocable }) s

/-- R385: a write that changes EN waits as a commit does. -/
def phctlHold (s : State) : Option State :=
  if predOn s.core.q s.core.q.ir && s.srcA.getLsbD 0 != s.core.ph.en then commitHold s else none
/-- CSRWR_PHCTL (R385): a write that changes EN first performs the effect of PHCOMMIT. -/
def execCsrwrPhctl (s : State) : Out :=
  issueWith (shCsrwr s s.core.q.ir) none phctlHold false (fun s =>
    let on := s.srcA.getLsbD 0
    let s := { s with core := s.core.irrevocable }
    let t := if on != s.core.ph.en then s.commitPhase else s
    .done { t with core := t.core.modPh fun p => { p with en := on, retry := BitVec.ofNat 4 (nbits s.srcA.toNat 4 4) } }) s

/-! The tensor table (R154). -/

/-- The tile handles that a command of a core names. -/
def Cmd.named (k : Cmd) : List Nat := if [0x208, 0x20A].contains k.opc then [k.far] else k.handles
/-- A command names an identifier by a handle that carries it (R155). -/
def Cmd.namesTid (tid : Nat) (k : Cmd) : Bool := k.named.any fun h => nbits h 41 10 == tid
def ttinvHold (s : State) : Option State :=
  if s.core.eng.cmds.any (Cmd.namesTid (s.srcA.toNat % 1024)) then some s else none
/-- TTINV (R154). -/
def execTtinv (s : State) : Out :=
  issueWith (shCsrwr s s.core.q.ir) none ttinvHold false (fun s =>
    let tid := s.srcA.toNat % 1024
    .done { s with core := (s.core.modTile fun t => { t with tensors := t.tensors.filter fun p => p.1 != tid }).irrevocable }) s
def ttbaseHold (s : State) : Option State := if s.core.eng.cmds.any fun k => !k.named.isEmpty then some s else none
/-- CSRWR_TTBASE (R154). -/
def execCsrwrTtbase (s : State) : Out :=
  issueWith (shCsrwr s s.core.q.ir) none ttbaseHold false (fun s =>
    .done { s with core := (s.core.modTile fun t =>
      { t with ttbase := BitVec.ofNat 51 (s.srcA.toNat / 2 ^ 17 * 2 ^ 17), tensors := [], cache := [] }).irrevocable }) s

end Sys2Proof.Machine
end

