-- ==== Sys2Proof/Machine/Preempt.lean ====
section
/-! DEFINITION. Taking gangs off their cores: checkpoints, kills and re-queueing, task kills, and the save area (18 R329 to R335,
13 R245). -/

namespace Sys2Proof.Machine

open Sys2Proof Decode

/-! Leaving the cores. -/

/-- A record back in its ready queue: at the front of its level, or at the back. -/
def State.requeue (s : State) (r : Placed) (front : Bool) : State :=
  let (u, s) := s.takeUid
  let r := { r with uid := u, admitted := true }
  if front then
    let peers := s.sched.placed.filter fun x => x.cluster == r.cluster && x.task.level == r.task.level
    let first := peers.foldl (fun (m : Int) x => min m (x.ready.getD m)) s.sched.readyNo
    ({ s with sched := { s.sched with placed := s.sched.placed ++ [{ r with ready := some (first - 1) }] } }.lateSlip r).wakeCluster r.cluster
  else ({ s with sched := { s.sched with placed := s.sched.placed ++ [r] } }).makeReady u
/-- The record a gang came from. -/
def Gang.record (g : Gang) : Placed :=
  { uid := 0, task := g.task, img := { g.img with pwr := g.img.pwr - (if g.task.tt then 6 else 0) }, cluster := g.cluster, space := g.space,
    tpldir := g.tpldir }

/-! The save area (R334, R335). -/

def words (ws : List Nat) : List Byte := ws.flatMap (leBytes 8)
/-- VALID with the dirty regions (R335). -/
def TrapSt.validNow (r : TrapSt) : BitVec 112 := r.valid ||| (r.spdirty1.setWidth 48 ++ r.spdirty0)
/-- The dirty regions of a buffer, by their 16 KiB. -/
def TrapSt.dirtyRegions (r : TrapSt) (b : Nat) : List Nat :=
  (List.range (regionsOf b)).filter fun j =>
    if b = 0 then r.spdirty0.getLsbD j else if b = 1 then r.spdirty1.getLsbD j else r.spdirty0.getLsbD (48 + j)
/-- The parts of the image whose layout R334 and R402 give whole: header, S, full bits, M, shapes and locations, loops, counter
shadows, V, dirty buffer regions. -/
def CoreSt.saveImage (c : CoreSt) (stamp : Nat) : List (Nat × List Byte) :=
  let q := c.q
  let r := c.trap
  let d := c.dbg
  let ns (n : Nat) : List Nat := List.range n
  [(0x0000, leBytes 8 q.pc.toNat ++ leBytes 2 (c.num % 1024) ++ leBytes 1 1 ++ leBytes 1 (if r.vdead then 1 else 0)),
   (0x0010, leBytes 8 stamp ++ leBytes 16 r.validNow.toNat),
   (0x0040, words ((ns 64).map fun i => (q.getS i).toNat)),
   (0x0240, leBytes 8 q.sFull.toNat ++ leBytes 4 q.vFull.toNat),
   (0x0250, words ((ns 8).map fun i => (q.getM i).toNat)),
   (0x0290, words ((ns 16).map (fun i => (c.reg i).tshp) ++ (ns 16).map fun i => (c.reg i).tloc)),
   (0x0390, words ((ns 8).flatMap fun i =>
      let l := vat q.loops i
      [l.start.toNat, l.stop.toNat, l.rem.toNat, l.iter.toNat, l.cfg])),
   (0x0600, words ((ns 8).map (fun i => (vat d.pmc i).toNat) ++ (ns 8).map fun i => (vat d.pmsel i).toNat)),
   (0x0700, words ([d.trbase.toNat, d.trctl, d.trhead.toNat, d.trdrop.toNat, d.dbgctl] ++ (ns 4).map (fun i => (vat d.bp i).toNat) ++
      [(if d.held then 2 ^ 63 else 0) + (if d.broken then 2 ^ 62 else 0) + d.breakCause.toNat * 2 ^ 48 + d.point.toNat] ++ List.replicate 22 0))] ++
  ((ns 4).map fun i => let x := vat d.caps i; (0x0680 + 32 * i, words [x.inCyc, x.outTicks, x.start, (if x.opened then 1 else 0) + (if x.pre then 2 else 0)])) ++
  (if r.vdead then [] else [(0x1000, (ns 32).flatMap fun i => (ns 64).flatMap fun k => leBytes 4 (vat (q.getV i) k).toNat)]) ++
  [0, 1, 2].flatMap fun b => (r.dirtyRegions b).map fun j => (imageBase b + 16384 * j, Mem.readN (c.tile.buf b) (16384 * j) 16384)

/-! R334, R392: the parts that are given a place and not a layout of their own; words of 8 bytes in the order the rule names them
(log 74). -/

def bit (b : Bool) : Nat := if b then 1 else 0
def Stats.list (k : Stats) : List Nat := [k.sat, k.flush, k.nan, k.esc, k.skip]
def LoopSt.words (l : LoopSt) : List Nat := [l.start.toNat, l.stop.toNat, l.rem.toNat, l.iter.toNat, l.cfg]
/-- A command as a queue slot and Record hold it: its words, its WMAX and its queue. -/
def Cmd.image (k : Cmd) : List Byte := leBytes 16 k.raw.toNat ++ leBytes 4 k.wmax ++ leBytes 2 k.q ++ leBytes 2 k.ch
/-- R390, R392: the snapshot. -/
def Snapshot.image (x : Snapshot) : List Byte :=
  words ((List.range 64).map (fun i => (vat x.s i).toNat) ++ (List.range 8).map (fun i => (vat x.m i).toNat) ++
    [x.pc.toNat, bit x.thm, x.tpc.toNat, x.tcause.toNat, x.lfsr.toNat, bit x.fast] ++ x.counts.stats.list ++
    [x.counts.gboob.toNat, x.counts.promcnt.toNat, x.lm, x.ms, x.ml, x.sm, x.loopCount] ++
    (List.range 8).flatMap (fun i => (vat x.loops i).words) ++
    (List.range 8).map (fun i => (vat x.xnext i).toNat) ++ (List.range 8).map fun i => (vat x.xdone i).toNat)
def Cmd.slotImage (k : Cmd) : List Byte :=
  k.image ++ leBytes 8 (bit k.compared) ++ leBytes 8 k.en.toNat ++ (List.range 64).flatMap fun i => leBytes 4 (vat k.idx i).toNat
def EngSt.slotImages (e : EngSt) : List (Nat × List Byte) :=
  ([0, 1, 2, 3].map (fun c => (0, c)) ++ [(1, 0)] ++ [0, 1, 2, 3].map fun c => (2, c)).flatMap fun (q, ch) =>
    (e.cmds.filter fun (k : Cmd) => k.q == q && k.ch == ch).map fun (k : Cmd) =>
      (k.slotOff, k.slotImage)
def Walker.words (w : Walker) : List Nat :=
  [if w.st = .idle then 0 else if w.st = .run then 1 else 2, w.addr, bit w.cherr, w.seqNo.toNat] ++
    (List.range 4).map fun i => nbits w.entry.toNat (64 * i) 64
/-- A weight plane: its kind, flags, KP and NP, then its weights as F32. -/
def Plane.image (p : Plane) : List Byte :=
  words [p.fmt, bit p.stored, bit p.hnan, bit p.hinf, p.kp, p.np, bit p.defined, 0] ++
    p.w.flatMap fun v => leBytes 4 (roundF .f32 {} v { lfsr := 1 }).1
/-- The pending waits of a context: location and time. -/
def SeqSt.waitPairs (q : SeqSt) : List Nat := q.fills.flatMap fun f => match f.waits with
  | some (l, t) => [l.toNat, t.toNat]
  | none => []

def State.saveRest (s : State) (n : Nat) : List (Nat × List Byte) :=
  let c := s.coreAt n
  let w (num : Nat) : Nat := (s.csr n num).getD 0
  let ws (lo k : Nat) : List Nat := (List.range k).map fun i => w (lo + i)
  let marks (f : TileReg → Bool) : Nat := (List.range 16).foldl (fun (m : Nat) i => m + bit (f (c.reg i)) * 2 ^ i) 0
  let pins := (c.tile.cache.filter fun x => x.entry.pin).map fun x => x.tid * 2 ^ 53 + (BitVec.ofInt 53 x.index).toNat
  [(0x04D0, (words ([w 0x040, w 0x102] ++ ws 0x041 6 ++ [w 0x103, w 0x100, w 0x188, w 0x181, w 0x182, w 0x2F0,
      marks (·.lazyMark) + 0xFFFF * 2 ^ 16] ++ pins)).take 256),
   (0x0800, (words ([w 0x200, w 0x207] ++ ws 0x201 6 ++ ws 0x208 8 ++ [w 0x211] ++ c.q.waitPairs)).take 256),
   (0xD000, words (ws 0x0E0 18 ++ ws 0x080 24 ++ [w 0x098] ++ ws 0x0A0 64 ++ (vat c.eng.walkers 0).words ++ (vat c.eng.walkers 1).words ++
      c.eng.events.length :: c.eng.events.map (·.toNat) ++ [w 0x099, w 0x0F8, w 0x187])),
   (0xE000, c.tile.active.image), (0x13000, c.tile.shadow.image)] ++
  [(countsBase, words (c.cnt.cache.flatMap fun x => x.1 :: x.2.list))] ++
  (match c.ph.snap with | some x => [(0x0900, x.image.take 0x500)] | none => []) ++
  [(0x0E00, (c.ph.record.take 16).flatMap fun k => k.image ++ leBytes 8 0)] ++
  c.eng.slotImages ++ (List.range 16).map fun i => c.slotImage i

/-- The context as it is saved (R330, R331, R333, R335); the waits of commands, walkers and
frontiers are kept as the cyc they have lasted. -/
def CoreSt.saved (c : CoreSt) (cyc stamp : Nat) : CoreSt :=
  let r := c.trap
  let fills := c.q.fills.map fun f => match f.src with | .frontier _ _ _ _ _ => { f with due := cyc - f.due } | _ => f
  let c := c.modQ fun q => { q with fills := fills }
  let q := if r.vdead then { c.q with v := Vector.replicate 32 (Vector.replicate 64 0), vFull := BitVec.allOnes 32 } else c.q
  let slots : Vector SaveSlot 16 := tab 16 fun i => c.slotOf (c.reg i)
  let regs : Vector TileReg 16 := tab 16 fun i =>
    let t := c.reg i
    { t with entry := { t.entry with dirty := false }, saved := true, ready := 0 }
  let caps : Vector Capture 4 := tab 4 fun i => let x := vat c.dbg.caps i; if x.opened then { x with left := stamp } else x
  { c with
    q := { q with hist := [], holdFrom := none, vecBusy := 0 }
    tile := { c.tile with slots := slots, t := regs }
    dbg := { c.dbg with caps := caps }
    eng := { c.eng with cmds := c.eng.cmds.map Cmd.left }.turnTimes cyc
    trap := { r with valid := r.validNow, spdirty0 := 0, spdirty1 := 0 } }

/-! Checkpoint (R331). -/

/-- Step 2: nothing of a stopped member is under way but its frontier waits. -/
def State.memberQuiet (s : State) (n : Nat) : Bool :=
  let c := s.coreAt n
  decide (c.status = .stopped) && c.q.verdict.isNone && c.q.lat.isEmpty && c.q.pad.isEmpty &&
    (c.q.fills.all fun f => match f.src with | .frontier _ _ p _ _ => !p | _ => false) &&
    (c.eng.cmds.all fun k => k.compared) && (s.mem.flying.all fun f => f.core != n || f.compared) &&
    c.task.walking.isEmpty && !s.agenda.any fun e => (e.op == .rollback || e.op == .taskKill) && e.arg.n0 == n
/-- Step 3: the engines stand at the end of an element. -/
def CoreSt.enginesStill (c : CoreSt) : Bool :=
  c.eng.halt && (c.eng.cmds.all fun k => decide (k.packets = 0) && !(k.q == 1 && (k.st == .moving || k.st == .completing)) &&
    !(k.underWay && !k.current.isEmpty)) && c.eng.walking.isEmpty &&
    [0, 1].all fun w => decide ((vat c.eng.walkers w).packets = 0)

/-- Steps 4 and 5: every member is saved and the gang leaves its cores. -/
def State.saveGang (s : State) (g : Gang) : State :=
  let live := g.live
  let posted := s.gangPosted g
  let s := live.foldl (fun (s : State) n =>
    let s := (s.leaveTrace n |>.lostCyc n 9 0 (some 16)).2
    let c := s.coreAt n
    let s := (c.saveImage s.stamp ++ s.saveRest n).foldl (fun (s : State) p => s.saveBytes c (c.trap.csave.toNat + p.1) p.2) s
    { s with sched := { s.sched with ckpts := s.sched.ckpts ++ [(g.id, c.saved s.cyc s.stamp)] } }) s
  let s := s.returnHeld g.held
  let s := live.foldl (fun (s : State) n => s.freeCore n (g.img.therm + 1) g.img.pwr g.head) s
  let rem := if g.task.tt then g.task.rem else BitVec.ofNat 24 (g.remNow s.stamp)
  let g := { g with task := { g.task with rem := rem }, held := [], policy := 4, frame := none, head := none, evac := false,
                    posted := posted }
  let s := s.modGang g.id fun _ => g
  (s.requeue { g.record with resume := some g.id } true).wakeCluster g.cluster

/-- CHECKPOINT (R331). -/
def State.checkpointStep (s : State) (i : Nat) : State :=
  match s.sched.gangs.find? fun g => g.id == i with
  | none => s
  | some g =>
    if g.policy ≠ 3 ∨ g.live.isEmpty then s
    else
      let s := g.live.foldl (fun (s : State) n =>
        if s.memberQuiet n then s.modCore n fun c => c.modEng fun e => { e with halt := true } else s) s
      if g.live.all fun n => s.memberQuiet n && (s.coreAt n).enginesStill then s.saveGang g
      else s.schedule 1 .checkpoint { n0 := i }
def execCheckpoint (s : State) : Out := .next (s.checkpointStep s.ev.n0)

/-! Kill and re-queue (R332). -/

/-- The gang is discarded with everything it has under way; its record goes to the back of its level. -/
def State.requeueGang (s : State) (g : Gang) : State :=
  let s := s.returnHeld g.held
  let s := g.live.foldl (fun (s : State) n =>
    ((s.leaveTrace n).dropUncompared n).freeCore n (g.img.therm + 1) g.img.pwr g.head) s
  let s := { s with sched := { s.sched with gangs := s.sched.gangs.filter fun x => x.id != g.id } }
  s.requeue g.record false

/-- KILL_REQUEUE (R332). -/
def State.killRequeueStep (s : State) (i : Nat) : State :=
  match s.sched.gangs.find? fun g => g.id == i with
  | none => s
  | some g =>
    if g.policy ≠ 2 ∨ g.live.isEmpty then s
    else if g.live.all fun n => decide ((s.coreAt n).status = .stopped) then s.requeueGang g
    else s.schedule 1 .killRequeue { n0 := i }
def execKillRequeue (s : State) : Out := .next (s.killRequeueStep s.ev.n0)

/-! Task kill (R332). -/

/-- The counts a context holds are retired poisoned (R280), each by a decrement: what it has retired beyond its own posts was not its
own. -/
def State.poisonCounts (s : State) (c : CoreSt) : State :=
  c.task.counts.foldl (fun (s : State) (l, t, k) => if 0 < k then s.retire1 (dieOf c.num) l t (-k) true else s) s

/-- The quarantine record of a killed member. -/
def CoreSt.quarOf (c : CoreSt) (g : Gang) (code : Nat) : Quar :=
  { die := g.cluster / 2, task := g.task, core := c.num % 1024, code := code, tpc := c.trap.tpc.setWidth 64, tcause := c.trap.tcause,
    taux := c.trap.taux.toList }

/-- A member is dead: its barriers no longer wait for it (R285); what it has posted stays posted (R327). A drop that not every member has
executed takes place when the last one ends (R297, R308). -/
def State.memberDead (s : State) (i n : Nat) (posted : Bool) : State :=
  s.modGang i fun g =>
    let g := { g with dead := g.dead ++ [n], posted := g.posted || posted }
    [0, 1, 2, 3].foldl (fun (g : Gang) b => g.settleBar s.cyc b) g

/-- A task kill of the thread of a core. -/
def State.killThread (s : State) (n code : Nat) : State :=
  let c := s.coreAt n
  let s := (s.leaveTrace n).dropUncompared n
  let s := s.poisonCounts c
  let s := { s with
    pe := { s.pe with
      verdicts := s.pe.verdicts.filter fun m => m.core != n
      colls := s.pe.colls.filter fun k => k.thread != c.task.thread }
    host := if code = 3 then { s.host with relKill := vput s.host.relKill (dieOf n) (min (vat s.host.relKill (dieOf n) + 1) (2 ^ 64 - 1)) } else s.host }
  match s.gangOf c with
  | none => ((s.dropCoreEvents n).returnHeld c.task.held).modCore n CoreSt.emptied
  | some g =>
    let s := s.quarantine (c.quarOf g code)
    let s := s.memberDead g.id n c.task.posted
    ((s.freeCore n (g.img.therm + 1) g.img.pwr g.head).checkEnd g.id).wakeBoth n

/-- TASK_KILL (R332): an update of the thread that is under way arrives first, so that its count is retired too. -/
def execTaskKill (s : State) : Out :=
  let n := s.ev.n0
  let c := s.coreAt n
  if c.status = .idle then .next s
  else
    let waits := match c.q.verdict with
      | some u => (s.pe.updates.any fun x => x.uid == u) || s.pe.joins.any fun j => j.uid == u
      | none => false
    if waits then .next ((s.modCore n fun c => { c with status := .stopped }).schedule 1 .taskKill { n0 := n, n1 := s.ev.n1 })
    else .next (s.killThread n s.ev.n1)

/-- R280, R290: the collectives of a thread that is killed: their counts are among those it holds. -/
def State.dropColls (s : State) (thread : Nat) : State :=
  { s with pe := { s.pe with colls := s.pe.colls.filter fun k => k.thread != thread } }

/-- R415: a saved gang is killed. -/
def State.killSaved (s : State) (i code : Nat) : State :=
  match s.sched.gangs.find? fun g => g.id == i with
  | none => s
  | some g =>
    let mine := s.sched.ckpts.filter fun x => x.1 == i
    let s := { s with sched := { s.sched with
      ckpts := s.sched.ckpts.filter fun x => x.1 != i, placed := s.sched.placed.filter fun r => r.resume != some i } }
    let s := mine.foldl (fun (s : State) x =>
      (((s.poisonCounts x.2).dropColls x.2.task.thread).quarantine (x.2.quarOf g code)).memberDead i x.2.num x.2.task.posted) s
    s.checkEnd i

end Sys2Proof.Machine
end

