-- ==== Sys2Proof/Machine/CoolEvents.lean ====
section
/-! DEFINITION. Valve controllers, sensor traps, the evacuation of a dry channel, and module power (26 R406, R413 to R419). What the
sensors measure comes with the device steps. -/

namespace Sys2Proof.Machine

open Sys2Proof Decode

/-! Zones. -/

/-- The cores of a zone that are not idle. -/
def State.zoneCores (s : State) (z : Nat) : List CoreSt :=
  s.cores.filter fun c => zoneOfCore c.num == z && decide (c.status ≠ .idle)
/-- The clusters of a zone's die look at their heads. -/
def State.wakeZone (s : State) (z : Nat) : State :=
  if z < 96 then s.wakeBoth (z / 12 * 128) else s
/-- R413, R422: a report to the coolant event ring, which raises vector 1; of a ring that COOLRING has set up, the newest entries stay (log
131). -/
def State.coolReport (s : State) (z cause : Nat) : State :=
  let v := s.zone z
  let r := leBytes 8 s.stamp ++ leBytes 1 z ++ leBytes 1 cause ++ leBytes 1 v.step.toNat ++ leBytes 1 v.flow ++ leBytes 1 v.temp0
    ++ leBytes 1 v.temp1 ++ leBytes 18 0
  let size := Config.settingField (26 * 4096 + 0x030) 1 s.cool.ringReg
  let ring := s.cool.ring ++ [r]
  { s with cool := { s.cool with ring := if s.cool.ringReg = 0 ∨ ring.length ≤ size then ring else ring.drop (ring.length - size) }, host := { s.host with vector1 := s.host.vector1 + 1 } }
/-- The issue throttle of a zone's cores. -/
def State.throttleZone (s : State) (z n : Nat) : State :=
  (s.zoneCores z).foldl (fun (s : State) c => s.modCore c.num fun c => c.modTask fun t => { t with throttle := n }) s
/-- R404: the trap of a zone forces its cluster's clock down. -/
def State.breakZone (s : State) (z cause : Nat) : State := if z < 96 then s.breakLock (z / 12) cause else s

/-- R414, step 6: FLOW is within 10% of expected, and the two sensors are within 2 °C of each other. -/
def Zone.inRange (v : Zone) : Bool :=
  decide (9 * v.alloc ≤ 10 * v.flow ∧ 10 * v.flow ≤ 11 * v.alloc) && decide (v.temp0 ≤ v.temp1 + 2 ∧ v.temp1 ≤ v.temp0 + 2)
/-- VALVE_CONTROL_STEP (R406): FREE VALUE: by how much, at most 8 steps, the opening moves toward the target. -/
def State.valveStep (s : State) (z flow : Nat) : State :=
  let (d, s) := s.freeCyc 0 8
  s.modZone z fun v =>
    let v := { v with flow := min flow 255 }
    if v.st = 1 ∨ v.low ∨ !s.cool.enable then v
    else if v.alloc = 0 then { v with opening := 0 }
    else if flow < v.alloc then { v with opening := min 255 (v.opening + d) }
    else if v.alloc < flow then { v with opening := v.opening - d }
    else v
/-- The latest sample of a zone: FLOW in bits 7:0 of the word, the two temperatures in 15:8 and 23:16. While step 6 of an evacuation lasts,
its check is made on every sample (R414). -/
def State.sample (s : State) (z : Nat) (w : Word) : State :=
  s.modZone z fun v =>
    let v := { v with flow := nbits w.toNat 0 8, temp0 := nbits w.toNat 8 8, temp1 := nbits w.toNat 16 8 }
    { v with verified := v.verified && v.inRange }
/-- R406: the controllers of every zone take their step; FREE VALUE: the samples they act on. -/
def State.valveSteps (s : State) : State :=
  (List.range 100).foldl (fun (s : State) z =>
    let (w, s) := s.freeWord
    (s.sample z w).valveStep z (nbits w.toNat 0 8)) s
/-- VALVE_CONTROL_STEP: of one zone with the flow that is measured, or (`n0` = 100) of every zone, every 10 µs. -/
def execValveControlStep (s : State) : Out :=
  if s.ev.n0 < 100 then .next (s.valveStep s.ev.n0 s.ev.n1)
  else if s.ev.n0 = 100 then .next (s.valveSteps.schedule (nsCyc 10000) .valveControlStep { n0 := 100 })
  else .next s

/-! Evacuation (R414 to R416). -/

/-- The gangs with a member in a zone. -/
def State.gangsIn (s : State) (z : Nat) : List Gang :=
  s.sched.gangs.filter fun g => g.policy != 4 && g.live.any fun n => zoneOfCore n == z

/-- Step 1: the cores of a zone stop at their next instruction boundary; a core that drains goes on. -/
def State.stopZone (s : State) (z : Nat) : State :=
  (s.zoneCores z).foldl (fun (s : State) c =>
    if c.status = .running ∧ c.q.verdict.isNone ∧ c.task.throttle ≠ 8 then
      (s.modCore c.num fun c => { c with status := .stopped }).markStopped c.num
    else s) s

/-- R329: a yield request to the members of a gang outside a zone, and the end of the gang's removal. -/
def State.yieldOutside (s : State) (g : Gang) (z : Nat) : State :=
  let s := (g.live.filter fun n => zoneOfCore n != z).foldl (fun (s : State) n =>
    (s.modCore n fun c => c.modTrap fun r => { r with yreq := true, left := s.cyc + s.sched.ydl }).schedule (s.sched.ydl + 1) .yieldDeadline { n0 := n }) s
  s.schedule 1 (if g.policy = 2 then .killRequeue else .checkpoint) { n0 := g.id }

/-- R415: a gang is treated; one that drains resumes its stopped members at one instruction in 8 cyc. -/
def State.treatGang (s : State) (z : Nat) (g : Gang) : State :=
  let policy := if g.policy = 0 then s.policyFor g 0 else g.policy
  let g' := { g with policy := policy, evac := true, evacZones := z :: g.evacZones }
  let s := s.modGang g.id fun x => { x with policy := policy, evac := true, evacZones := z :: x.evacZones }
  if policy = 1 then
    (g.live.filter fun n => zoneOfCore n == z).foldl (fun (s : State) n => s.modCore n fun c =>
      { (c.modTask fun t => { t with throttle := 8 }) with status := if c.status = .stopped then .running else c.status }) s
  else if g.policy = 0 then s.yieldOutside g' z
  else s

/-- R416: a timetabled gang of the current frame with a member in the zone raises slip cause 4. -/
def State.evacSlip (s : State) (z : Nat) : State :=
  let d := z / 24
  let f := s.frameNow d
  if z < 96 && ((s.gangsIn z).any fun g => g.timed d f) && !s.sched.slips.any fun x => x.1 == d && x.2.1 == 4 then
    let s := s.slip d 4
    { s with sched := { s.sched with slips := s.sched.slips ++ [(d, 4, s.cyc)] } }
  else s
/-- R416: the cause clears once every such gang has exited or stopped; where the zone fails meanwhile, at the tick (R313). -/
def State.clearSlip (s : State) (d : Nat) : State :=
  let f := s.frameNow d
  if !s.evacOpen d && s.sched.slips.any fun x => x.1 == d && x.2.1 == 4 then
    let s := s.slipTrace d 4 f
    { s with sched := { s.sched with slips := s.sched.slips.filter fun x => !(x.1 == d && x.2.1 == 4) } }
  else s

/-- R414: an evacuation of a zone starts: steps 1 and 2. -/
def State.startEvac (s : State) (z : Nat) : State :=
  if (s.zone z).st ≠ 0 then s
  else
    let s := s.modZone z fun v => { v with st := 1, step := 1, retries := 0 }
    let s := (s.evacSlip z).stopZone z
    let s := (s.gangsIn z).foldl (fun (s : State) g => s.treatGang z g) s
    let s := s.modZone z fun v => { v with step := 2 }
    let s := s.schedule (nsCyc s.cool.evDrain) .evacDrainExpire { n0 := z }
    (s.wakeZone z).schedule 1 .evacGangsStopped { n0 := z }

/-- EVAC_GANGS_STOPPED (R414): step 2 ends, and the valve closes. -/
def State.evacPoll (s : State) (z : Nat) : State :=
  let v := s.zone z
  if v.st ≠ 1 ∨ v.step ≠ 2 then s
  else
    let s := (s.stopZone z).clearSlip (z / 24)
    if (s.gangsIn z).all fun g => g.live.all fun n => decide ((s.coreAt n).status = .stopped) then
      (s.modZone z fun v => { v with step := 3, opening := 0 }).schedule (nsCyc s.cool.valveSettle) .evacValveSettled { n0 := z }
    else s.schedule 1 .evacGangsStopped { n0 := z }
def execEvacGangsStopped (s : State) : Out := .next (s.evacPoll (s.ev.n0 % 100))

/-- EVAC_DRAIN_EXPIRE (R415): a gang that has not drained is checkpointed, or killed with code 5 where it allows none. -/
def State.drainExpired (s : State) (z : Nat) : State :=
  if (s.zone z).st ≠ 1 ∨ (s.zone z).step ≠ 2 then s
  else
    ((s.gangsIn z).filter fun g => g.evac && g.policy == 1).foldl (fun (s : State) g =>
      if g.task.nockpt then
        g.live.foldl (fun (s : State) n => (s.modCore n fun c => { c with status := .stopped }).schedule 0 .taskKill { n0 := n, n1 := 5 }) s
      else
        let g := { g with policy := 3 }
        let s := s.modGang g.id fun x => { x with policy := 3 }
        let s := (g.live.filter fun n => zoneOfCore n == z).foldl (fun (s : State) n =>
          s.modCore n fun c => c.modTask fun t => { t with throttle := 0 }) s
        (s.stopZone z).yieldOutside g z) s
def execEvacDrainExpire (s : State) : Out := .next (s.drainExpired (s.ev.n0 % 100))

/-- EVAC_VALVE_SETTLED (R414): step 4. -/
def execEvacValveSettled (s : State) : Out :=
  let z := s.ev.n0 % 100
  if (s.zone z).st = 1 ∧ (s.zone z).step = 3 then
    .next ((s.modZone z fun v => { v with step := 4 }).schedule (nsCyc s.cool.evAct) .evacPurgeEnd { n0 := z })
  else .next s

/-- Step 6: the check begins. -/
def State.startVerify (s : State) (z : Nat) : State :=
  (s.modZone z fun v => { v with step := 6, verified := v.inRange }).schedule (nsCyc s.cool.verifyT) .evacVerifyEnd { n0 := z }

/-- EVAC_PURGE_END (R414): step 5. -/
def execEvacPurgeEnd (s : State) : Out :=
  let z := s.ev.n0 % 100
  let v := s.zone z
  if v.st = 1 ∧ v.step = 4 then
    let t := openingFor v.alloc
    let s := s.modZone z fun v => { v with step := 5, target := t, opening := 0 }
    if t = 0 then .next (s.startVerify z) else .next (s.schedule (nsCyc s.cool.rampStep) .evacRampStep { n0 := z })
  else .next s

/-- EVAC_RAMP_STEP (R414). -/
def execEvacRampStep (s : State) : Out :=
  let z := s.ev.n0 % 100
  let v := s.zone z
  if v.st = 1 ∧ v.step = 5 then
    let s := s.modZone z fun v => { v with opening := min v.target (v.opening + 1) }
    if v.target ≤ v.opening + 1 then .next (s.startVerify z) else .next (s.schedule (nsCyc s.cool.rampStep) .evacRampStep { n0 := z })
  else .next s

/-- STATE := 2: the zone has failed; a gang that its evacuation has checkpointed, or is checkpointing, is killed with code 5 (R415). -/
def State.failZone (s : State) (z : Nat) : State :=
  let s := s.modZone z fun v => { v with st := 2, step := 0 }
  (s.sched.gangs.filter fun g => g.evacZones.contains z).foldl (fun (s : State) g =>
    if g.policy = 4 then s.killSaved g.id 5
    else if g.policy = 3 then
      g.live.foldl (fun (s : State) n => (s.modCore n fun c => { c with status := .stopped }).schedule 0 .taskKill { n0 := n, n1 := 5 }) s
    else s) s

/-- EVAC_VERIFY_END (R414, R413): step 7, or the way back to step 4, or EVACFAIL, by the samples since step 6 began. -/
def State.verifyEnd (s : State) (z : Nat) : State :=
  let v := s.zone z
  if v.st ≠ 1 ∨ v.step ≠ 6 then s
  else
    if v.verified && v.inRange then
      let s := s.modZone z fun v => { v with st := 0, step := 0 }
      let s := s.throttleZone z (if v.hot then 4 else 0)
      let s := ((s.zoneCores z).filter fun c => c.task.gang.isNone).foldl (fun (s : State) c => s.modCore c.num fun c =>
        { c with status := if c.status = .stopped then .running else c.status }) s
      s.wakeZone z
    else if v.retries < s.cool.evRetry then
      (s.modZone z fun v => { v with step := 4, retries := v.retries + 1 }).schedule (nsCyc s.cool.evAct) .evacPurgeEnd { n0 := z }
    else (s.coolReport z 0x1C).failZone z
def execEvacVerifyEnd (s : State) : Out := .next (s.verifyEnd (s.ev.n0 % 100))

/-! Sensor traps (R413). The device step of a trap comes when its condition has held for the time the rule gives; it brings the
latest sample, and takes effect only where that sample meets the condition. -/

/-- TMAX of a zone. -/
def State.tmax (s : State) (z : Nat) : Nat := max (s.zone z).temp0 (s.zone z).temp1
/-- A trap with its sample: `cond` of the state after the sample; the condition has held for the ns that `n1` gives (log 131). -/
def State.sensed (s : State) (cond : Nat → State → Bool) (act : Nat → State → State) (held : Nat := 0) : State :=
  let z := s.ev.n0 % 100
  let t := s.sample z s.ev.w
  if cond z t && decide (held ≤ s.ev.n1) then act z t else t

/-- A trap of a zone: where the zone is not normal it is only reported. -/
def State.zoneTrap (s : State) (z cause : Nat) (act : State → State) : State :=
  let t := s.coolReport z cause
  if (s.zone z).st ≠ 0 then t else act t

/-- OVERTEMP (R413). -/
def execOvertemp (s : State) : Out :=
  .next (s.sensed (fun z t => decide (t.cool.ttrip ≤ t.tmax z)) (held := s.cool.overFor) fun z t =>
    t.zoneTrap z 0x18 fun s => (((s.modZone z fun v => { v with hot := true }).throttleZone z 4).breakZone z 1).wakeZone z)
/-- OVERTEMP_CLEAR (R413). -/
def execOvertempClear (s : State) : Out :=
  .next (s.sensed (fun z t => (t.zone z).hot && decide (t.tmax z < t.cool.twarn)) fun z t =>
    let t := t.modZone z fun v => { v with hot := false }
    (if (t.zone z).st = 0 then t.throttleZone z 0 else t).wakeZone z)
/-- TCRIT (R413). -/
def execTcrit (s : State) : Out := .next (s.sensed (fun z t => decide (t.cool.tcrit ≤ t.tmax z)) fun z t => t.startEvac z)
/-- LOWFLOW (R413). -/
def execLowflow (s : State) : Out :=
  .next (s.sensed (fun z t => decide (100 * (t.zone z).flow < t.cool.lowPct * (t.zone z).alloc)) (held := s.cool.lowFor) fun z t =>
    t.zoneTrap z 0x19 fun s => (((s.modZone z fun v => { v with low := true, opening := 255 })).breakZone z 2).wakeZone z)
/-- LOWFLOW_CLEAR (R413). -/
def execLowflowClear (s : State) : Out :=
  .next (s.sensed (fun z t => decide (t.cool.clearPct * (t.zone z).alloc ≤ 100 * (t.zone z).flow)) fun z t => (t.modZone z fun v => { v with low := false }).wakeZone z)
/-- LOWFLOW_PERSIST (R413). -/
def execLowflowPersist (s : State) : Out := .next (s.sensed (fun z t => (t.zone z).low) (held := s.cool.persistFor) fun z t => t.startEvac z)
/-- DRY (R413); `n2` is TMAX of 100 µs before. -/
def execDry (s : State) : Out :=
  .next (s.sensed (fun z t => decide (100 * (t.zone z).flow < t.cool.dryPct * (t.zone z).alloc) && decide (s.ev.n2 + t.cool.dryRise ≤ t.tmax z))
    (held := s.cool.dryFor) fun z t => t.zoneTrap z 0x1A fun s => (s.breakZone z 3).startEvac z)
/-- R413: OPEN and FLOW disagree by more than the controller's range (log 131). -/
def Zone.disagrees (v : Zone) (range : Nat) : Bool :=
  decide (v.opening + range < openingFor v.flow ∨ openingFor v.flow + range < v.opening)
/-- VALVE (R413). -/
def execValve (s : State) : Out :=
  .next (s.sensed (fun z t => (t.zone z).disagrees t.cool.valveRange) (held := s.cool.valveFor) fun z t => (t.coolReport z 0x1B).failZone z)

/-! Power and allocations (R407, R418, R419). -/

/-- POWER_OVERLIMIT (R418): every limit is lowered. FREE VALUE: by how much, one unit at least. -/
def execPowerOverlimit (s : State) : Out :=
  if s.ev.n0 ≤ 11600 then .next s
  else
    .next ((List.range 5).foldl (fun (s : State) d =>
      let (x, s) := s.freeFrom 0
      let old := vat s.cool.limits d
      let now := old - 1 - x % max 1 old
      { s with cool := { s.cool with limits := vput s.cool.limits d now, setLimits := vput s.cool.setLimits d now } })
      { s with cool := { s.cool with average := s.ev.n0 } })
/-- POWER_HARD_THROTTLE (R418). -/
def execPowerHardThrottle (s : State) : Out :=
  if s.ev.n0 ≤ 12800 then .next s else .next { s with cool := { s.cool with average := s.ev.n0, throttled := true } }
/-- POWER_THROTTLE_END (R418). -/
def execPowerThrottleEnd (s : State) : Out :=
  if 12000 ≤ s.ev.n0 then .next s else .next { s with cool := { s.cool with average := s.ev.n0, throttled := false } }

/-- R405, R407: a FLOOR that would bring the zone above FMAX or leave the pool negative is refused. -/
def State.floorRefused (s : State) (z n : Nat) : Bool :=
  let v := s.zone z
  decide (64 < n ∨ 64 < n + v.sched + v.prog ∨ s.poolFree + v.floor < n)

end Sys2Proof.Machine
end

