-- ==== Sys2Proof/Machine/FabricRx.lean ====
section
/-! DEFINITION. What the module does with packets, control flits and timers of the fabric (23 R367 to R381, 27 R421). -/

namespace Sys2Proof.Machine

open Sys2Proof Decode

/-! Flow destinations (R375, R376). -/

def State.dstOf (s : State) (p : Packet) : Option FlowDst := s.fab.dsts.find? fun d => d.snode == p.snode && d.flow == p.flow
def State.putDst (s : State) (d : FlowDst) : State :=
  { s with fab := { s.fab with dsts := s.fab.dsts.map fun (x : FlowDst) => if x.snode = d.snode ∧ x.flow = d.flow then d else x } }
/-- A packet back to the source of a packet. -/
def State.replyTo (s : State) (p : Packet) (kind : BitVec 4) : Packet :=
  { s.packetTo kind p.ddie.toNat p.snode.toNat p.sdie.toNat p.ord with flow := p.flow }
/-- FACK naming a cumulative FSEQ. -/
def State.sendFack (s : State) (p : Packet) (n : BitVec 32) : State :=
  s.sendPacket { s.replyTo p kFACK with aux := n.setWidth 48 }

/-- The line of a key is poisoned, or the address does not exist. -/
def State.badSpan (s : State) (die pa len : Nat) : Bool :=
  !paExists (pa + len - 1) || s.mem.badLines.any fun l => decide (paKey die pa / 64 ≤ l ∧ l ≤ (paKey die pa + len - 1) / 64)

/-- A READ is applied: its RESP is sent (R376). -/
def State.applyRead (s : State) (p : Packet) : State :=
  let d := p.ddie.toNat
  let n := p.nbytes.toNat
  let bad := decide (0 < n) && s.badSpan d p.pa.toNat n
  let bs := if bad then List.replicate n 0 else s.readView d (paKey d p.pa.toNat) n
  s.sendPacket { s.replyTo p kRESP with fseq := p.fseq, nbytes := p.nbytes, pa := p.pa, payload := bs, aux := if bad then 1 else 0 }
/-- A WRITE is applied: its home die accepts it; bytes at addresses that do not exist go nowhere. -/
def State.applyWrite (s : State) (p : Packet) : State :=
  if p.payload.isEmpty ∨ !paExists (p.pa.toNat + p.payload.length - 1) then s
  else s.emitWrite p.ddie.toNat (spanAt (paKey p.ddie.toNat p.pa.toNat) p.payload)
/-- A RED is applied: each element takes its operand at the home (R289). -/
def State.applyRed (s : State) (p : Packet) : State :=
  let op := nbits p.aux.toNat 0 3
  let ty : BitVec 4 := BitVec.ofNat 4 (nbits p.aux.toNat 4 4)
  let d := p.ddie.toNat
  let w := atomicBytes ty
  if p.payload.isEmpty ∨ !paExists (p.pa.toNat + p.payload.length - 1) then s
  else (List.range (p.payload.length / w)).foldl (fun (s : State) i =>
    let key := paKey d (p.pa.toNat + w * i)
    s.emitWrite d (spanAt key (leBytes w (atomicNew op ty (s.readLE d key w) (leNat ((p.payload.drop (w * i)).take w)) 0)))) s
/-- A PBATCH is applied, each of its items to the instance it names (R278); its items are laid out as log 17 says. Its place in the sender's
order is the FSEQ of the ordered flow that brings it. -/
def State.applyBatch (s : State) (p : Packet) : State :=
  let items := (List.range (p.payload.length / 24)).map fun i =>
    let b := (p.payload.drop (24 * i)).take 24
    (BitVec.ofNat 64 (leNat (b.take 8)), BitVec.ofNat 64 (leNat ((b.drop 8).take 8)), (BitVec.ofNat 32 (leNat ((b.drop 16).take 4))).toInt)
  let marks := (List.range (p.payload.length / 24)).map fun i => (p.payload.getD (24 * i + 20) 0).getLsbD 0
  ((items.zip marks).foldl (fun (l : List (BitVec 32)) x => if l.contains (locInst x.1.1) then l else l ++ [locInst x.1.1]) []).foldl (fun (s : State) i =>
    let mine := (items.zip marks).filter fun x => locInst x.1.1 == i
    let (u, s) := s.takeUid
    s.applyUpdate { uid := u, sender := p.ddie.toNat, home := p.ddie.toNat, inst := i, batch := 0, items := mine.map (·.1), marks := mine.map (·.2) }) s
/-- A COLLD is applied: a part of a contribution has arrived (log 17). -/
def State.applyColl (s : State) (p : Packet) : State :=
  let f (lo n : Nat) : Nat := leNat ((p.payload.drop lo).take n)
  s.addPart { loc := BitVec.ofNat 64 (f 0 8), time := BitVec.ofNat 64 (f 8 8), off := f 16 4, dst := f 20 2,
              src := nbits p.aux.toNat 32 16, bytes := p.payload.drop 24 }
/-- What a packet of a flow does at its destination. -/
def State.applyPacket (s : State) (p : Packet) : State :=
  if p.kind = kWRITE then s.applyWrite p
  else if p.kind = kREAD then s.applyRead p
  else if p.kind = kRED then s.applyRed p
  else if p.kind = kPBATCH then s.applyBatch p
  else if p.kind = kCOLLD then s.applyColl p
  else s

/-- R376: buffered packets whose turn has come are applied, in order; `n` bounds them. -/
def State.drainFlow : Nat → State → FlowDst → State × FlowDst
  | 0, s, d => (s, d)
  | n + 1, s, d =>
    match d.buf.find? fun p => p.fseq == d.applied + 1 with
    | some p => State.drainFlow n (s.applyPacket p) { d with applied := d.applied + 1, buf := d.buf.filter fun q => q.fseq != p.fseq }
    | none => (s, d)
/-- R376: on an unordered flow the cumulative FSEQ follows what has been applied. -/
def FlowDst.advance : Nat → FlowDst → FlowDst
  | 0, d => d
  | n + 1, d =>
    if d.early.contains (d.applied + 1) then
      FlowDst.advance n { d with applied := d.applied + 1, early := d.early.filter fun x => x != d.applied + 1 }
    else d

/-- R376: a packet of a flow arrives: applied once, within the window, in order on an ordered flow; then FACK. -/
def State.flowArrive (s : State) (p : Packet) : State :=
  match s.dstOf p with
  | none => s
  | some d =>
    let ahead := (p.fseq - d.applied).toNat
    if ahead = 0 ∨ 16 < ahead then s.sendFack p d.applied
    else if d.ord then
      let d := if d.buf.any fun q => q.fseq == p.fseq then d else { d with buf := d.buf ++ [p] }
      let r := State.drainFlow 16 s d
      (r.1.putDst r.2).sendFack p r.2.applied
    else if d.early.contains p.fseq then s.sendFack p d.applied
    else
      let d := FlowDst.advance 17 { d with early := d.early ++ [p.fseq] }
      ((s.applyPacket p).putDst d).sendFack p d.applied

/-- WRITE (R376). -/
def execWrite (s : State) : Out := .next (s.flowArrive { s.ev.p with kind := kWRITE })
/-- READ (R376). -/
def execRead (s : State) : Out := .next (s.flowArrive { s.ev.p with kind := kREAD })
/-- RED_PACKET (R369, R289). -/
def execRedPacket (s : State) : Out := .next (s.flowArrive { s.ev.p with kind := kRED })
/-- PBATCH (R278). -/
def execPbatch (s : State) : Out := .next (s.flowArrive { s.ev.p with kind := kPBATCH })
/-- COLLD (R378). -/
def execColld (s : State) : Out := .next (s.flowArrive { s.ev.p with kind := kCOLLD })

/-- R375: a flow of a source stands in a later incarnation than a packet: one that is less than half of the 16 incarnations ahead. -/
def FlowDst.after (d : FlowDst) (p : Packet) : Bool :=
  let k := (d.flow.toNat % 16 + 16 - p.flow.toNat % 16) % 16
  d.snode == p.snode && d.flow.toNat / 16 == p.flow.toNat / 16 && decide (1 ≤ k ∧ k < 8)
/-- R375: an open creates the state of the flow, ends that of an older incarnation, and is answered by FACK 0; one of an older incarnation
is discarded. -/
def State.openFlow (s : State) (p : Packet) : State :=
  if s.fab.dsts.any fun d => d.after p then s else
  let s := match s.dstOf p with
    | some _ => s
    | none => { s with fab := { s.fab with
        dsts := { snode := p.snode, flow := p.flow, ord := p.ord } :: s.fab.dsts.filter fun d =>
          !(d.snode == p.snode && d.flow.toNat / 16 == p.flow.toNat / 16) } }
  s.sendFack p (((s.dstOf p).map FlowDst.applied).getD 0)
/-- FOPEN (R375). -/
def execFopen (s : State) : Out := .next (s.openFlow s.ev.p)
/-- FCLOSE (R375). -/
def execFclose (s : State) : Out :=
  let p := s.ev.p
  .next { s with fab := { s.fab with dsts := s.fab.dsts.filter fun d => !(d.snode == p.snode && d.flow == p.flow) } }

/-! Flow sources (R375 to R377). -/

/-- The flow a packet answers. -/
def State.srcOf (s : State) (p : Packet) : Option FlowSrc :=
  s.fab.srcs.find? fun x => flowField x == p.flow && decide (x.node = p.snode.toNat)

/-- A packet has been acknowledged: what waited for it goes on. -/
def State.acked (s : State) (u : FlowUse) : State :=
  match u with
  | .cmd c v => (s.modCmd c v fun k => { k with packets := k.packets - 1 }).noteElems c v
  | .store c v =>
    if s.usePending (.store c v) then s
    else match s.flight v with
      | some f => (s.dropFlight v).linkArrived f
      | none => s
  | .batch v => if s.usePending (.batch v) then s else s.schedule 0 .countUpdateApply { n0 := v }
  | .coll v => s.modColl v fun k => { k with packets := k.packets - 1 }
  | _ => s

/-- An idle flow is looked at after 1 ms. -/
def State.watchIdle (s : State) (slot : Nat) : State :=
  match s.srcAt slot with
  | some x => if x.unacked.isEmpty && x.queue.isEmpty then s.schedule (nsCyc 1000000) .flowIdleClose { n0 := slot } else s
  | none => s

/-- FACK (R376): FACK 0 opens the flow; a cumulative FSEQ releases the packets up to it, a READ only by its RESP. -/
def State.fackStep (s : State) (p : Packet) : State :=
  match s.srcOf p with
  | none => s
  | some x =>
    let n : BitVec 32 := p.aux.setWidth 32
    let done (it : FlowItem) : Bool := decide (it.p.kind ≠ kREAD) && decide ((n - it.p.fseq).toNat < 2 ^ 31)
    let gone := x.unacked.filter done
    let ahead := decide (n ≠ x.acked ∧ (n - x.acked).toNat < 2 ^ 31)
    let moved := ahead || !x.opened
    let s := s.modSrc x.slot fun (y : FlowSrc) => { y with
      opened := true, acked := if ahead then n else y.acked, unacked := y.unacked.filter fun it => !done it,
      since := if moved then s.cyc else y.since, timeouts := if moved then 0 else y.timeouts }
    let s := gone.foldl (fun (s : State) it => s.acked it.use) s
    (s.flowPump (x.queue.length + 1) x.slot).watchIdle x.slot
def execFack (s : State) : Out := .next (s.fackStep s.ev.p)

/-- The bytes of a RESP reach what waits for them (R202, R237, R239). -/
def State.respond (s : State) (it : FlowItem) (bs : List Byte) (bad : Bool) : State :=
  let got := spanAt it.va bs
  match it.use with
  | .fill c u =>
    let upd (f : Fill) : Fill := if f.uid = u then
      { f with src := match f.src with | .remote l ps p g n => .remote l ps p (g ++ got) (n - 1) | x => x } else f
    if bad then s.schedule 1 .longLatencyFill { n0 := c, n1 := u, n2 := 1 }
    else (s.modCore c fun k => k.modQ fun q => { q with fills := q.fills.map upd }).schedule 1 .longLatencyFill { n0 := c, n1 := u }
  | .cmd c u =>
    if bad then s.readFails c u it.va it.p.nbytes.toNat 10
    else (s.modCmd c u fun k => { k with packets := k.packets - 1, got := k.got ++ got }).schedule 0 .engineCommandBegin { n0 := c, n1 := u }
  | .fetch c u =>
    if bad then s.modCore c fun k => k.modQ fun q => q.farFails u
    else s.modCore c fun k => k.modQ fun q =>
      { q with far := q.far.map fun f => if f.uid = u then { f with got := some bs } else f }
  | .far u =>
    if bad then s.modFar u fun f => { f with left := f.left - 1, bad := true }
    else s.modFar u fun f => { f with left := f.left - 1, got := f.got ++ got }
  | .walker c w =>
    let s := s.modCore c fun k => k.modEng fun e =>
      { e with walkers := vput e.walkers w { vat e.walkers w with packets := 0, got := (vat e.walkers w).got ++ got } }
    if bad then s.modCore c fun k => k.walkerStops w
    else s.schedule 0 .chainEntryRead { n0 := c, n1 := w, n2 := (vat (s.coreAt c).eng.walkers w).kick }
  | _ => s

/-- RESP (R202, R376): it acknowledges its READ. -/
def State.respStep (s : State) (p : Packet) : State :=
  match s.srcOf p with
  | none => s
  | some x =>
    match x.unacked.find? fun it => it.p.kind == kREAD && it.p.fseq == p.fseq with
    | none => s
    | some it =>
      let s := s.modSrc x.slot fun (y : FlowSrc) => { y with
        unacked := y.unacked.filter fun i => !(i.p.kind == kREAD && i.p.fseq == p.fseq) }
      let s := s.respond it p.payload (p.aux.getLsbD 0)
      (s.flowPump (x.queue.length + 1) x.slot).watchIdle x.slot
def execResp (s : State) : Out := .next (s.respStep s.ev.p)

/-- FTIMEOUT (R377). -/
def State.flowTimeout (s : State) (slot : Nat) : State :=
  match s.srcAt slot with
  | none => s
  | some x =>
    let t := nsCyc s.fab.ftimeout
    if x.opened && x.unacked.isEmpty && x.queue.isEmpty then s
    else if (s.route x.node).isNone then s.flowFail slot
    else if s.cyc - x.since < t then s.schedule (t - (s.cyc - x.since)) .ftimeout { n0 := slot }
    else if s.fab.fretry ≤ x.timeouts then s.flowFail slot
    else
      let s := s.modSrc slot fun y => { y with timeouts := y.timeouts + 1, since := s.cyc }
      let s := if x.opened then x.unacked.foldl (fun (s : State) it => s.sendPacket it.p) s
        else s.sendPacket { s.packetTo kFOPEN 0 x.node 0 x.ord with flow := flowField x }
      s.schedule t .ftimeout { n0 := slot }
def execFtimeout (s : State) : Out := .next (s.flowTimeout s.ev.n0)

/-- FLOW_IDLE_CLOSE (R375): flows of the Progress Engines stay open (R374). -/
def State.idleClose (s : State) (slot : Nat) : State :=
  match s.srcAt slot with
  | none => s
  | some x =>
    if x.unacked.isEmpty && x.queue.isEmpty && decide (nsCyc 1000000 ≤ s.cyc - x.since) && decide (x.ctx < 2 ^ 32) then
      let s := { s with fab := { s.fab with srcs := s.fab.srcs.filter fun y => y.slot != slot } }
      s.sendPacket { s.packetTo kFCLOSE 0 x.node 0 x.ord with flow := flowField x }
    else s
def execFlowIdleClose (s : State) : Out := .next (s.idleClose s.ev.n0)

/-! Link receivers (R370). -/

/-- The device step of a packet for this module. -/
def arrivalOf (k : BitVec 4) : Option Instr :=
  if k = kWRITE then some .write else if k = kREAD then some .read else if k = kRESP then some .resp else if k = kRED then some .redPacket
  else if k = kPBATCH then some .pbatch else if k = kCOLLD then some .colld else if k = kFOPEN then some .fopen
  else if k = kFCLOSE then some .fclose else if k = kFACK then some .fack else none

/-- R373: a packet for this module is delivered; one for another is sent on with one hop less. -/
def State.deliver (s : State) (p : Packet) : State :=
  if p.dnode = s.fab.node then
    (match arrivalOf p.kind with
    | some op => s.schedule 0 op { p := p }
    | none => s)
  else if p.hops = 0 then { s with fab := { s.fab with hopDrop := min (s.fab.hopDrop + 1) (2 ^ 64 - 1) } }
  else s.sendPacket { p with hops := p.hops - 1 }

/-- Both ends retrain, which ends within 800 ns. -/
def State.retrain (s : State) (i : Nat) : State :=
  if (vat s.fab.links i).retraining then s
  else (s.modLink i fun l => { l with retraining := true }).scheduleIn 1 1520 .retrainDone { n0 := i }
/-- LANE_FAILED (R371): it is declared, and DEGRADE names it. -/
def State.laneFails (s : State) (i lane : Nat) : State :=
  let l := vat s.fab.links i
  if l.failedLanes.getLsbD lane then s
  else ((s.linkControl i 2 lane).modLink i fun l => { l with failedLanes := setBit l.failedLanes lane true }).retrain i
/-- R371: CRC failures traced to a lane: 8 of them in 1 ms declare it failed. -/
def State.laneError (s : State) (i lane : Nat) : State :=
  let l := vat s.fab.links i
  let errs := (lane, s.cyc) :: l.laneErr.filter fun e => decide (s.cyc - e.2 < nsCyc 1000000)
  let s := s.modLink i fun l => { l with laneErr := errs }
  if 8 ≤ (errs.filter fun e => e.1 == lane).length then
    (s.modLink i fun l => { l with laneErr := l.laneErr.filter fun e => e.1 != lane }).laneFails i lane
  else s

/-- LINK_PACKET_RECEIVE (R370): a control flit is handed to its step; a sequenced packet is accepted in order only. R371: a CRC failure may be
traced to a lane, one less than `lane`. -/
def State.linkReceive (s : State) (i : Nat) (p : Packet) (lane : Nat := 0) : State :=
  let l := vat s.fab.links i
  if !l.usable || l.retraining || l.noLock != 0 then s
  else
    let ok := packetOk p
    let s := if p.crc = packetCrc p then s else s.modLink i fun l => { l with crcFails := bumpField l.crcFails }
    let s := if p.crc = packetCrc p ∨ lane = 0 then s else s.laneError i ((lane - 1) % 16)
    if ok ∧ p.kind = kLCTL then
      let n := nbits p.aux.toNat 16 16
      match nbits p.aux.toNat 0 2 with
        | 0 => s.schedule 0 .ack { n0 := i, w := BitVec.ofNat 64 n }
        | 1 => s.schedule 0 .nak { n0 := i, w := BitVec.ofNat 64 n }
        | 2 => s.schedule 0 .degrade { n0 := i, n1 := n }
        | _ => s
    else if ok ∧ p.lseq = l.rxLast + 1 then
      ((s.modLink i fun l => { l with rxLast := p.lseq, discarded := false }).ackSoon i).deliver p
    else if l.discarded then s
    else (s.modLink i fun l => { l with discarded := true, naks := bumpField l.naks }).linkControl i 1 l.rxLast.toNat
def execLinkPacketReceive (s : State) : Out := .next (s.linkReceive (s.ev.n0 % 16) s.ev.p s.ev.n2)

/-- LINK_ACK_TIMER (R370): a cumulative ACK, and the next one while the link is up. -/
def execLinkAckTimer (s : State) : Out :=
  let i := s.ev.n0 % 16
  let l := vat s.fab.links i
  let s := s.modLink i fun l => { l with ackDue := false }
  if !l.usable then .next s
  else .next (((if l.retraining then s else s.linkControl i 0 l.rxLast.toNat)).ackSoon i)

/-! Link transmitters (R370). -/

/-- Packets up to a named LSEQ leave the replay buffer; what waits may be sent. -/
def State.linkRelease (s : State) (i : Nat) (n : BitVec 16) : State :=
  s.modLink i fun l =>
    let l' := releaseTo n l
    let l' := if l'.replay.length = l.replay.length then l' else { l' with since := s.cyc }
    l'
def State.linkGo (s : State) (i : Nat) : State :=
  let l := vat s.fab.links i
  let l' := linkPump (l.txq.length + 1) l
  let s := s.modLink i fun _ => l'
  if l.replay.isEmpty && !l'.replay.isEmpty then
    (s.modLink i fun l => { l with since := s.cyc }).schedule (nsCyc s.fab.ltimeout) .ltimeout { n0 := i }
  else s
/-- Every unacknowledged packet is sent again, in order. -/
def State.linkReplay (s : State) (i : Nat) : State :=
  s.modLink i fun l => { l with wire := l.wire ++ l.replay, replays := l.replay.foldl (fun n _ => bumpField n) l.replays, since := s.cyc }

/-- ACK (R370). -/
def execAck (s : State) : Out :=
  let i := s.ev.n0 % 16
  .next ((s.linkRelease i (s.ev.w.setWidth 16)).linkGo i)
/-- NAK (R370). -/
def execNak (s : State) : Out :=
  let i := s.ev.n0 % 16
  .next (((s.linkRelease i (s.ev.w.setWidth 16)).linkReplay i).linkGo i)
/-- LTIMEOUT (R370). -/
def State.linkTimeout (s : State) (i : Nat) : State :=
  let l := vat s.fab.links i
  let t := nsCyc s.fab.ltimeout
  if l.replay.isEmpty || !l.usable then s
  else if l.retraining then s.schedule t .ltimeout { n0 := i }
  else if s.cyc - l.since < t then s.schedule (t - (s.cyc - l.since)) .ltimeout { n0 := i }
  else (s.linkReplay i).schedule t .ltimeout { n0 := i }
def execLtimeout (s : State) : Out := .next (s.linkTimeout (s.ev.n0 % 16))

/-! Lanes and retraining (R371, R372, R381, R421). -/

def execLaneFailed (s : State) : Out := .next (s.laneFails (s.ev.n0 % 16) (s.ev.n1 % 16))
/-- DEGRADE (R371). -/
def execDegrade (s : State) : Out :=
  let i := s.ev.n0 % 16
  .next ((s.modLink i fun l => { l with failedLanes := setBit l.failedLanes (s.ev.n1 % 16) true }).retrain i)

/-- R372: a link is down: its packets go on the alternate route, and flows without a route fail (R377). -/
def State.linkFalls (s : State) (i : Nat) : State :=
  let l := vat s.fab.links i
  let s := s.modLink i fun l => { l with up := false, retraining := false, replay := [], txq := [], half := none }
  let s := (l.replay ++ l.txq).foldl (fun (s : State) p => s.sendPacket p) s
  let lost := s.fab.srcs.filter fun x => (s.route x.node).isNone
  lost.foldl (fun (s : State) x => s.flowFail x.slot) s
def execLinkDown (s : State) : Out := .next (s.linkFalls (s.ev.n0 % 16))

/-- RETRAIN_DONE (R371): at full width without a failed lane, at the half that holds none, or down; NAK, then replay. -/
def State.retrained (s : State) (i : Nat) : State :=
  let l := vat s.fab.links i
  let low := l.failedLanes.toNat % 256
  let high := l.failedLanes.toNat / 256
  if !l.retraining then s
  else if low ≠ 0 ∧ high ≠ 0 then s.linkFalls i
  else
    let half := if l.failedLanes = 0 then none else some (if low = 0 then 0 else 1)
    let s := s.modLink i fun l => { l with up := true, retraining := false, half := half, noLock := 0 }
    ((s.linkControl i 1 (vat s.fab.links i).rxLast.toNat).linkGo i).ackSoon i
def execRetrainDone (s : State) : Out := .next (s.retrained (s.ev.n0 % 16))

/-- LINK_RETRAIN (R381). -/
def execLinkRetrain (s : State) : Out := .next (s.retrain (s.ev.n0 % 16))
/-- LANE_REQUALIFY (R371, R381): the lane counts as good again, and the link retrains. -/
def execLaneRequalify (s : State) : Out :=
  let i := s.ev.n0 % 16
  .next ((s.modLink i fun l => { l with failedLanes := setBit l.failedLanes (s.ev.n1 % 16) false }).retrain i)
/-- SYMBOL_LOCK_LOST (R371, R421): a lane without lock for 100 ns is declared failed. -/
def execSymbolLockLost (s : State) : Out :=
  let i := s.ev.n0 % 16
  let lane := s.ev.n1 % 16
  .next ((s.modLink i fun l => { l with noLock := setBit l.noLock lane true }).schedule 190 .laneFailed { n0 := i, n1 := lane })
/-- SYMBOL_LOCK_REGAINED (R421). -/
def execSymbolLockRegained (s : State) : Out :=
  let i := s.ev.n0 % 16
  let lane := s.ev.n1 % 16
  let s := s.modLink i fun l => { l with noLock := setBit l.noLock lane false }
  .next (s.cancel fun e => e.op == .laneFailed && e.arg.n0 == i && e.arg.n1 == lane)

end Sys2Proof.Machine
end

