-- ==== Sys2Proof/Machine/Fills.lean ====
section
/-! DEFINITION. LONG_LATENCY_FILL for every long-latency producer (03 R66, 16 R271, 25 R404, 26 R410). -/

namespace Sys2Proof.Machine

open Sys2Proof Decode

/-- R410, R411: a coolant request is applied to the table; its fill lands when it is due. -/
def State.applyRequest (s : State) (core uid : Nat) : State :=
  match (s.coreAt core).q.fillOf uid with
  | none => s
  | some f =>
    let answer : Option (Word × State) := match f.src with
      | .request 1 a b => some (s.coolApply core false a b)
      | .request 2 a b => some (s.coolApply core true a b)
      | .request 3 a _ => some (s.coolStat a, s)
      | _ => none
    match answer with
    | none => s
    | some (w, s) =>
      let s := s.modCore core fun c => c.modQ fun q => { q with fills := q.fills.map fun (x : Fill) =>
        if x.uid = uid then { x with src := .value (.word w) } else x }
      s.schedule (f.due - s.cyc) .longLatencyFill { n0 := core, n1 := uid }

/-- A fill that is due: PSREG and CLKLOCK are decided as they fill (R271, R404). -/
def State.fillDue (s : State) (core uid : Nat) (failed : Bool) : State :=
  match (s.coreAt core).q.fillOf uid with
  | none => s
  | some f =>
    match f.src with
    | .request 0 a _ =>
      let c := s.coreAt core
      let who : Nat × Nat := (1025, uid)
      let ws := s.tableWants c (s.farAnswered who 0) a
      if !s.farAnswered who 0 ws then
        (s.askFar who 0 (peCtx (dieOf core)) (dieOf core) true ws).schedule 1 .longLatencyFill { n0 := core, n1 := uid }
      else
        let r := if s.farBad who 0 ws then (BitVec.ofNat 64 (2 ^ 63 + 4), s) else s.registerTemplate core a
        (r.2.farDone who).landFill core f (.word r.1)
    | .request 4 p _ =>
      let r := s.decideLock core p
      r.2.landFill core f (.word r.1)
    | _ => s.fillStep core uid failed

/-- LONG_LATENCY_FILL (R66): stage 0 lands, 1 fails, 2 applies a coolant request. -/
def execLongLatencyFill (s : State) : Out :=
  .next (if s.ev.n2 = 2 then s.applyRequest s.ev.n0 s.ev.n1 else s.fillDue s.ev.n0 s.ev.n1 (s.ev.n2 = 1))

end Sys2Proof.Machine
end

