-- ==== Sys2Proof/Machine/Sha.lean ====
section
/-! DEFINITION. SHA-512 (28 R428, R429), with its constants from the roots of primes that define them. -/

namespace Sys2Proof.Machine

open Sys2Proof Decode

/-- The largest `r` with r^k ≤ n, from its bits below `i` down. -/
def rootBits (k n : Nat) : Nat → Nat → Nat
  | 0, r => r
  | i + 1, r => let t := r + 2 ^ i; rootBits k n i (if t ^ k ≤ n then t else r)
/-- The primes below 410: the first eighty. -/
def shaPrimes : List Nat := (List.range 410).filter fun n => decide (1 < n) && (List.range n).all fun d => decide (d < 2 ∨ n % d ≠ 0)
/-- 64 bits of the fraction of the k-th root of a prime. -/
def rootFraction (k p : Nat) : BitVec 64 := BitVec.ofNat 64 (rootBits k (p * 2 ^ (64 * k)) 69 0)
def shaK : List (BitVec 64) := shaPrimes.map (rootFraction 3)
def shaInit : List (BitVec 64) := (shaPrimes.take 8).map (rootFraction 2)

/-- The message with its padding. -/
def shaPad (bs : List Byte) : List Byte :=
  let n := bs.length
  bs ++ [0x80] ++ List.replicate ((239 - n % 128) % 128) 0 ++ (leBytes 16 (8 * n)).reverse
/-- One word more of the schedule. -/
def shaWord (w : List (BitVec 64)) : List (BitVec 64) :=
  let at_ (i : Nat) : BitVec 64 := w.getD (w.length - i) 0
  let r (x : BitVec 64) (a b c : Nat) : BitVec 64 := x.rotateRight a ^^^ x.rotateRight b ^^^ (x >>> c)
  w ++ [r (at_ 2) 19 61 6 + at_ 7 + r (at_ 15) 1 8 7 + at_ 16]
/-- A block, as words. -/
def shaBlock (h : List (BitVec 64)) (blk : List Byte) : List (BitVec 64) :=
  let w0 := (List.range 16).map fun i => BitVec.ofNat 64 (leNat ((blk.drop (8 * i)).take 8).reverse)
  let w := (List.range 64).foldl (fun w _ => shaWord w) w0
  let v := (w.zip shaK).foldl (fun (v : List (BitVec 64)) (x : BitVec 64 × BitVec 64) =>
    let g (i : Nat) : BitVec 64 := v.getD i 0
    let s1 := (g 4).rotateRight 14 ^^^ (g 4).rotateRight 18 ^^^ (g 4).rotateRight 41
    let ch := (g 4 &&& g 5) ^^^ (~~~ (g 4) &&& g 6)
    let t1 := g 7 + s1 + ch + x.2 + x.1
    let s0 := (g 0).rotateRight 28 ^^^ (g 0).rotateRight 34 ^^^ (g 0).rotateRight 39
    let maj := (g 0 &&& g 1) ^^^ (g 0 &&& g 2) ^^^ (g 1 &&& g 2)
    [t1 + (s0 + maj), g 0, g 1, g 2, g 3 + t1, g 4, g 5, g 6]) h
  (h.zip v).map fun x => x.1 + x.2
/-- The digest of bytes. -/
def sha512 (bs : List Byte) : List Byte :=
  let m := shaPad bs
  let h := (List.range (m.length / 128)).foldl (fun h i => shaBlock h ((m.drop (128 * i)).take 128)) shaInit
  h.flatMap fun x => (leBytes 8 x.toNat).reverse

end Sys2Proof.Machine
end

