-- ==== Sys2Proof/Machine/Ed25519.lean ====
section
/-! DEFINITION. Ed25519 (RFC 8032), by which the device verifies images (28 R428) and signs its quotes (28 R430, R434). The scheme is
the RFC's (log 10). -/

namespace Sys2Proof.Machine

open Sys2Proof Decode

/-- The field's prime and the order of the base point. -/
def edP : Nat := 2 ^ 255 - 19
def edL : Nat := 2 ^ 252 + 27742317777372353535851937790883648493
/-- Powers modulo the prime, over the low bits of an exponent. -/
def edPow (x e : Nat) : Nat → Nat
  | 0 => 1
  | n + 1 =>
    let r := edPow x e n
    let r := r * r % edP
    if e / 2 ^ (254 - n) % 2 = 1 then r * x % edP else r
def edPower (x e : Nat) : Nat := edPow x e 255
def edInv (x : Nat) : Nat := edPower x (edP - 2)
def edSub (x y : Nat) : Nat := (x + edP - y % edP) % edP
def edD : Nat := edSub 0 (121665 * edInv 121666)

/-- A point in extended coordinates: x = X/Z, y = Y/Z, x·y = T/Z. -/
structure EdPoint where
  x : Nat
  y : Nat
  z : Nat
  t : Nat
deriving DecidableEq, Repr

def EdPoint.zero : EdPoint := { x := 0, y := 1, z := 1, t := 0 }
def EdPoint.add (p q : EdPoint) (d2 : Nat) : EdPoint :=
  let a := edSub p.y p.x * edSub q.y q.x % edP
  let b := (p.y + p.x) * (q.y + q.x) % edP
  let c := p.t * d2 % edP * q.t % edP
  let d := 2 * p.z * q.z % edP
  let e := edSub b a
  let f := edSub d c
  let g := (d + c) % edP
  let h := (b + a) % edP
  { x := e * f % edP, y := g * h % edP, z := f * g % edP, t := e * h % edP }
/-- A multiple of a point, from the high bits of `k` down: those above its lowest 256 - n. -/
def EdPoint.mulGo (p : EdPoint) (k d2 : Nat) : Nat → EdPoint
  | 0 => .zero
  | n + 1 =>
    let r := p.mulGo k d2 n
    let r := r.add r d2
    if k / 2 ^ (255 - n) % 2 = 1 then r.add p d2 else r
def EdPoint.mul (p : EdPoint) (k : Nat) : EdPoint := p.mulGo k (2 * edD % edP) 256
def EdPoint.plus (p q : EdPoint) : EdPoint := p.add q (2 * edD % edP)
def EdPoint.same (p q : EdPoint) : Bool :=
  p.x * q.z % edP == q.x * p.z % edP && p.y * q.z % edP == q.y * p.z % edP
/-- The x of a y and a sign, where the point is on the curve (RFC 8032 5.1.3). -/
def edX (y sign : Nat) : Option Nat :=
  let x2 := edSub (y * y) 1 * edInv (edD * (y * y % edP) + 1) % edP
  let r := edPower x2 ((edP + 3) / 8)
  let r := if r * r % edP = x2 then r else r * edPower 2 ((edP - 1) / 4) % edP
  if edP ≤ y ∨ r * r % edP ≠ x2 ∨ (r = 0 ∧ sign = 1) then none else some (if r % 2 = sign then r else edP - r)
def edPoint (bs : List Byte) : Option EdPoint :=
  let w := leNat bs
  let y := w % 2 ^ 255
  (edX y (w / 2 ^ 255)).map fun x => { x := x, y := y, z := 1, t := x * y % edP }
def EdPoint.bytes (p : EdPoint) : List Byte :=
  let i := edInv p.z
  leBytes 32 (p.y * i % edP + p.x * i % edP % 2 * 2 ^ 255)
/-- The base point: y is 4/5, x even. -/
def edBase : EdPoint :=
  let y := 4 * edInv 5 % edP
  let x := (edX y 0).getD 0
  { x := x, y := y, z := 1, t := x * y % edP }
/-- The scalar of a seed, and the second half of its hash. -/
def edSecret (seed : List Byte) : Nat × List Byte :=
  let h := sha512 seed
  (leNat (h.take 32) / 8 * 8 % 2 ^ 254 + 2 ^ 254, h.drop 32)
/-- The public key of a seed. -/
def ed25519Public (seed : List Byte) : List Byte := (edBase.mul (edSecret seed).1).bytes
/-- The signature of a message under a seed. -/
def ed25519Sign (seed msg : List Byte) : List Byte :=
  let a := edSecret seed
  let r := leNat (sha512 (a.2 ++ msg)) % edL
  let rs := (edBase.mul r).bytes
  let k := leNat (sha512 (rs ++ ed25519Public seed ++ msg)) % edL
  rs ++ leBytes 32 ((r + k * a.1) % edL)
/-- Whether a signature of a message holds under a key: 8·S·B = 8·R + 8·k·A. -/
def ed25519Verify (key msg sig : List Byte) : Bool :=
  let s := leNat (sig.drop 32)
  match edPoint key, edPoint (sig.take 32) with
  | some a, some r =>
    let k := leNat (sha512 (sig.take 32 ++ key ++ msg)) % edL
    key.length == 32 && sig.length == 64 && decide (s < edL) && ((edBase.mul s).mul 8).same ((r.plus (a.mul k)).mul 8)
  | _, _ => false

end Sys2Proof.Machine
end

