-- ==== Sys2Proof/Machine/Charsets.lean ====
section
/-! DEFINITION. The tables of the WHATWG Encoding Standard that R355 names (20), PRESUMED from outside the spec (log 10): a row holds
16 bits for each second byte (or each byte of an upper half), 0 where the standard has no code point. -/

namespace Sys2Proof.Machine

/-- Entry `k` of a row. -/
def rowAt (r k : Nat) : Option Nat := let c := r / 2 ^ (16 * k) % 65536; if c = 0 then none else some c

/-- Bytes 0x80 to 0xFF of the single-byte sets by MIBenum. The standard reads the labels us-ascii and iso-8859-1 as windows-1252 and
iso-8859-9 as windows-1254. -/
def upperHalves : List (Nat × Nat) :=
  [(3, 0xff00fe00fd00fc00fb00fa00f900f800f700f600f500f400f300f200f100f000ef00ee00ed00ec00eb00ea00e900e800e700e600e500e400e300e200e100e000df00de00dd00dc00db00da00d900d800d700d600d500d400d300d200d100d000cf00ce00cd00cc00cb00ca00c900c800c700c600c500c400c300c200c100c000bf00be00bd00bc00bb00ba00b900b800b700b600b500b400b300b200b100b000af00ae00ad00ac00ab00aa00a900a800a700a600a500a400a300a200a100a00178017e009d0153203a0161212202dc201420132022201d201c201920180090008f017d008d015220390160203002c6202120202026201e0192201a008120ac),
   (4, 0xff00fe00fd00fc00fb00fa00f900f800f700f600f500f400f300f200f100f000ef00ee00ed00ec00eb00ea00e900e800e700e600e500e400e300e200e100e000df00de00dd00dc00db00da00d900d800d700d600d500d400d300d200d100d000cf00ce00cd00cc00cb00ca00c900c800c700c600c500c400c300c200c100c000bf00be00bd00bc00bb00ba00b900b800b700b600b500b400b300b200b100b000af00ae00ad00ac00ab00aa00a900a800a700a600a500a400a300a200a100a00178017e009d0153203a0161212202dc201420132022201d201c201920180090008f017d008d015220390160203002c6202120202026201e0192201a008120ac),
   (5, 0x2d9016300fd00fc017100fa016f015900f700f6015100f400f3014801440111010f00ee00ed011b00eb011900e9010d00e70107013a00e4010300e200e1015500df016200dd00dc017000da016e015800d700d6015000d400d3014701430110010e00ce00cd011a00cb011800c9010c00c70106013900c4010200c200c10154017c017e02dd017a0165015f016100b802c7015b013e00b4014202db010500b0017b017d00ad01790164015e016000a800a7015a013d00a4014102d8010400a0009f009e009d009c009b009a0099009800970096009500940093009200910090008f008e008d008c008b008a0089008800870086008500840083008200810080),
   (6, 0x2d9015d016d00fc00fb00fa00f9011d00f700f6012100f400f300f200f1000000ef00ee00ed00ec00eb00ea00e900e800e70109010b00e4000000e200e100e000df015c016c00dc00db00da00d9011c00d700d6012000d400d300d200d1000000cf00ce00cd00cc00cb00ca00c900c800c70108010a00c4000000c200c100c0017c000000bd0135011f015f013100b800b7012500b500b400b300b2012700b0017b000000ad0134011e015e013000a800a70124000000a400a302d8012600a0009f009e009d009c009b009a0099009800970096009500940093009200910090008f008e008d008c008b008a0089008800870086008500840083008200810080),
   (7, 0x2d9016b016900fc00fb00fa017300f800f700f600f500f40137014d01460111012b00ee00ed011700eb011900e9010d012f00e600e500e400e300e200e1010100df016a016800dc00db00da017200d800d700d600d500d40136014c01450110012a00ce00cd011600cb011800c9010c012e00c600c500c400c300c200c10100014b017e014a016701230113016100b802c7013c012900b4015702db010500b000af017d00ad016601220112016000a800a7013b012800a401560138010400a0009f009e009d009c009b009a0099009800970096009500940093009200910090008f008e008d008c008b008a0089008800870086008500840083008200810080),
   (8, 0x45f045e00a7045c045b045a0459045804570456045504540453045204512116044f044e044d044c044b044a0449044804470446044504440443044204410440043f043e043d043c043b043a0439043804370436043504340433043204310430042f042e042d042c042b042a0429042804270426042504240423042204210420041f041e041d041c041b041a0419041804170416041504140413041204110410040f040e00ad040c040b040a04090408040704060405040404030402040100a0009f009e009d009c009b009a0099009800970096009500940093009200910090008f008e008d008c008b008a0089008800870086008500840083008200810080),
   (9, 0x65206510650064f064e064d064c064b064a064906480647064606450644064306420641064000000000000000000000063a0639063806370636063506340633063206310630062f062e062d062c062b062a0629062806270626062506240623062206210000061f000000000000061b000000000000000000000000000000000000000000000000000000ad060c000000000000000000000000000000a400000000000000a0009f009e009d009c009b009a0099009800970096009500940093009200910090008f008e008d008c008b008a0089008800870086008500840083008200810080),
   (10, 0x3ce03cd03cc03cb03ca03c903c803c703c603c503c403c303c203c103c003bf03be03bd03bc03bb03ba03b903b803b703b603b503b403b303b203b103b003af03ae03ad03ac03ab03aa03a903a803a703a603a503a403a3000003a103a0039f039e039d039c039b039a0399039803970396039503940393039203910390038f038e00bd038c00bb038a0389038800b703860385038400b300b200b100b02015000000ad00ac00ab037a00a900a800a700a620af20ac00a32019201800a0009f009e009d009c009b009a0099009800970096009500940093009200910090008f008e008d008c008b008a0089008800870086008500840083008200810080),
   (11, 0x200f200e0000000005ea05e905e805e705e605e505e405e305e205e105e005df05de05dd05dc05db05da05d905d805d705d605d505d405d305d205d105d020170000000000000000000000000000000000000000000000000000000000000000000000000000000000000000000000000000000000000000000000000000000000be00bd00bc00bb00f700b900b800b700b600b500b400b300b200b100b000af00ae00ad00ac00ab00d700a900a800a700a600a500a400a300a2000000a0009f009e009d009c009b009a0099009800970096009500940093009200910090008f008e008d008c008b008a0089008800870086008500840083008200810080),
   (12, 0xff015f013100fc00fb00fa00f900f800f700f600f500f400f300f200f1011f00ef00ee00ed00ec00eb00ea00e900e800e700e600e500e400e300e200e100e000df015e013000dc00db00da00d900d800d700d600d500d400d300d200d1011e00cf00ce00cd00cc00cb00ca00c900c800c700c600c500c400c300c200c100c000bf00be00bd00bc00bb00ba00b900b800b700b600b500b400b300b200b100b000af00ae00ad00ac00ab00aa00a900a800a700a600a500a400a300a200a100a00178009e009d0153203a0161212202dc201420132022201d201c201920180090008f008e008d015220390160203002c6202120202026201e0192201a008120ac),
   (13, 0x13800fe00fd00fc00fb00fa017300f8016900f600f500f400f3014d014600f000ef00ee00ed011700eb011900e9010d012f00e600e500e400e300e200e1010100df00de00dd00dc00db00da017200d8016800d600d500d400d3014c014500d000cf00ce00cd011600cb011800c9010c012e00c600c500c400c300c200c10100014b016b2015017e016701610111013c00b701370129012b01230113010500b0014a016a00ad017d016601600110013b00a701360128012a01220112010400a0009f009e009d009c009b009a0099009800970096009500940093009200910090008f008e008d008c008b008a0089008800870086008500840083008200810080),
   (109, 0x2019017e017c00fc016b015b0142017300f700f600f5014d00f3014601440161013c012b013701230117017a00e9010d0113011900e500e401070101012f010500df017d017b00dc016a015a0141017200d700d600d5014c00d3014501430160013b012a013601220116017900c9010c0112011800c500c401060100012e010400e600be00bd00bc00bb015700b900f800b700b600b5201c00b300b200b100b000c600ae00ad00ac00ab015600a900d800a700a6201e00a400a300a2201d00a0009f009e009d009c009b009a0099009800970096009500940093009200910090008f008e008d008c008b008a0089008800870086008500840083008200810080),
   (110, 0xff017700fd00fc00fb00fa00f900f81e6b00f600f500f400f300f200f1017500ef00ee00ed00ec00eb00ea00e900e800e700e600e500e400e300e200e100e000df017600dd00dc00db00da00d900d81e6a00d600d500d400d300d200d1017400cf00ce00cd00cc00cb00ca00c900c800c700c600c500c400c300c200c100c01e611e851e841ef31e601e831e571e811e5600b61e411e40012101201e1f1e1e017800ae00ad1ef21e0b1e8200a91e8000a71e0a010b010a00a31e031e0200a0009f009e009d009c009b009a0099009800970096009500940093009200910090008f008e008d008c008b008a0089008800870086008500840083008200810080),
   (111, 0xff00fe00fd00fc00fb00fa00f900f800f700f600f500f400f300f200f100f000ef00ee00ed00ec00eb00ea00e900e800e700e600e500e400e300e200e100e000df00de00dd00dc00db00da00d900d800d700d600d500d400d300d200d100d000cf00ce00cd00cc00cb00ca00c900c800c700c600c500c400c300c200c100c000bf01780153015200bb00ba00b9017e00b700b600b5017d00b300b200b100b000af00ae00ad00ac00ab00aa00a9016100a7016000a520ac00a300a200a100a0009f009e009d009c009b009a0099009800970096009500940093009200910090008f008e008d008c008b008a0089008800870086008500840083008200810080),
   (112, 0xff021b011900fc00fb00fa00f90171015b00f6015100f400f300f20144011100ef00ee00ed00ec00eb00ea00e900e800e700e6010700e4010300e200e100e000df021a011800dc00db00da00d90170015a00d6015000d400d300d20143011000cf00ce00cd00cc00cb00ca00c900c800c700c6010600c4010200c200c100c0017c01780153015200bb0219010d017e00b700b6201d017d0142010c00b100b0017b017a00ad017900ab021800a9016100a70160201e20ac01410105010400a0009f009e009d009c009b009a0099009800970096009500940093009200910090008f008e008d008c008b008a0089008800870086008500840083008200810080)]
def sjisRows0 : List Nat :=
  [0x25ef000000000000000000b620212020266a266d266f2030212b0000000000000000000000000000222c222b2235221d223d221a226b226a2252226122072202231222a52220000000000000000000000000000000000000000000002203220021d421d2ffe222282227000000000000000000000000000000002229222a2283228222872286220b220800000000000000000000000000000000000000000000301321932191219021923012203b25bc25bd25b225b325a025a125c625c725ce25cf25cb2605260600a7ff20ff0aff06ff03ff05ffe1ffe0ff04ffe521032033203200b0264026422234221e22672266ff1eff1c2260ff1d00f700d700b1ff0dff0b30113010300f300e300d300c300b300a30093008ff5dff5bff3dff3b30153014ff09ff08201d201c2019201820252026ff5c2225ff5eff3cff0f2010201530fc3007300630054edd3003309e309d30fe30fdff3fffe3ff3e00a8ff4000b4309c309bff01ff1fff1bff1a30fbff0eff0c300230013000,
   0x3093309230913090308f308e308d308c308b308a3089308830873086308530843083308230813080307f307e307d307c307b307a3079307830773076307530743073307230713070306f306e306d306c306b306a3069306830673066306530643063306230613060305f305e305d305c305b305a3059305830573056305530543053305230513050304f304e304d304c304b304a3049304830473046304530443043304230410000000000000000ff5aff59ff58ff57ff56ff55ff54ff53ff52ff51ff50ff4fff4eff4dff4cff4bff4aff49ff48ff47ff46ff45ff44ff43ff42ff41000000000000000000000000ff3aff39ff38ff37ff36ff35ff34ff33ff32ff31ff30ff2fff2eff2dff2cff2bff2aff29ff28ff27ff26ff25ff24ff23ff22ff210000000000000000000000000000ff19ff18ff17ff16ff15ff14ff13ff12ff11ff10000000000000000000000000000000000000000000000000000000000000,
   0x3c903c803c703c603c503c403c303c103c003bf03be03bd03bc03bb03ba03b903b803b703b603b503b403b303b203b10000000000000000000000000000000003a903a803a703a603a503a403a303a103a0039f039e039d039c039b039a0399039803970396039503940393039203910000000000000000000000000000000030f630f530f430f330f230f130f030ef30ee30ed30ec30eb30ea30e930e830e730e630e530e430e330e230e130e030df30de30dd30dc30db30da30d930d830d730d630d530d430d330d230d130d030cf30ce30cd30cc30cb30ca30c930c830c730c630c530c430c330c230c130c030bf30be30bd30bc30bb30ba30b930b830b730b630b530b430b330b230b130b030af30ae30ad30ac30ab30aa30a930a830a730a630a530a430a330a230a1,
   0x2542253825252530251d253f25372528252f2520254b253b252b253325232517251b2513250f25032501253c25342524252c251c251425182510250c250225000000000000000000000000000000000000000000000000000000044f044e044d044c044b044a0449044804470446044504440443044204410440043f043e043d043c043b043a04390438043704360451043504340433043204310430000000000000000000000000000000000000000000000000000000000000042f042e042d042c042b042a0429042804270426042504240423042204210420041f041e041d041c041b041a04190418041704160401041504140413041204110410,
   0x0,
   0x0,
   0x222a2229223522bf221f222022a5221a2211222e222b22612252337c337d337e32393232323132a832a732a632a532a4212133cd2116301f301d337b0000000000000000000000000000000033a133c4338f338e339e339d339c333b334a332b33233326330d335733513336330333273318334d332233143349000021692168216721662165216421632162216121602473247224712470246f246e246d246c246b246a2469246824672466246524642463246224612460,
   0x852d80e46deb98f25f1559fb56e054e154bd537051419c2f828b83287a3290386ea258f14e0078ef90c180b257df4ea54e95533b907a90558b028863840e80c37def7dad79fb7570754f70ba690566136170610f60df5c095a0159d4593756f250494f9d4f4d4f0a4ee5674f978d95c76848669763095eb55b8988b77c9f62169b8e7dbe7d6298f4867b59d05b9b627165a1572768939bf582a6846665ed6e2563e160aa7a50831c8475902259f66328611b54c0963f5a0355164e9c0000000000000000000000000000000000000000000000000000000000000000000000000000000000000000000000000000000000000000000000000000000000000000000000000000000000000000000000000000000000000000000000000000000000000000000000000000000000000000000000000000000000000000000000000000000000000000000000000000000000000000000000000000000000000000000000000000000000000000000000000000000000000000,
   0x653962d0621261d060626094602a5feb5efb58ca584a56de89e34f1a4ecb99d5991396c58cc086fe82bd81e5753b725962115ce84fc4868a971e904e8fe68ca856298ab2876683d383ef8377830482db82b17b877a3c79be798d73c2706b6cb36b4c67b6679c668779d15be15bb65ac1590f560953ef52a04f734fa14f3d4f554eee53164e0b97f37a4f6e29606953784ffa4e597261687681c661b65c4b5104837b6c965ca19ec49d0e9d2c89567fc1738b6bb46b276a2a65fa62bc5fdc5f805965592e51f975256c5a65bc58699d1b925b9060859782d182767e01733f71d571597114708e6f146cbf63f463a960285ef65bb4594458305712518653ad698e95b28d8a8b0160a699c576ca75ab6db292ed8a60885b82f198347a4e76c8745b6d296cf36c38680466f366205f715b3055b653e1990c834f96f2904b4e915642958f74dc6d6653a959e59c3b851a6b1d550456186e2681fc78934e117aba9d5c536f96e88fc27fbd70cf5b8753f3540b97fb96a096709662,
   0x68c468cb671f65e265d7673a63ee5fcc5e7e5e0c5c905bc45b09594757fa5668559c53714f0e4f0198589854981196c18d0b7feb5ca9773c764c73a95dcc5cb8542b4e388218992897d3966595a295919593945190848cab8acc89b3839e8266809d7ff07f367de97c217ba17aff770b76e3751874b06f456f976f226c576b536b3e68fa685367d1656263db61be6163611f60a35e795e725bdb5b985b8c59e6582a559a5dfb52e752d8520a5bd251a04f834e7e74e682c552087ca58431830568229d28565b938c91dc84b27ac3515c682a97846a3a691b53f69c394e148f448910845b6ed16e076d3b62ec6070559d52726f5f9c0d68b66a7f6a2b7b20639b984e984d697d5cb35b669769969495a390ed8f038d6b89d2899a7a6b78ba73726bbb6838683c64b962e15ed3540456875283920e86ce67ff57a386d999a86d6c9ab893a78a72885784cb788d6daf698261685d165bb354b3591652be51f18c9d968e958b87f982a57d757686754c70706d7768b066669b41,
   0x5c485c5191e76adb4e32968590475bd350767a7a55b0865e611a517799d299c899c68eaf82e677e9739672d7533a53e550364e5d9280541f91d18fd18b39895f887f83cc82b97dca7b4b79bd798174346b3d6b2365a493265dfe574752e450c57c8168507389697566f25c40696d66815c2d51dd4ef09a5a995797ff93e190f7854e8208810580f877ef72ed72c26cc16a4b6559631f606d6050602f5f4a5f375ce1588355ac53eb537f5321535451f651717af6514750d14fa04f9b4eac4eab4ea89b5a79a66f0192f88ddd8a31865a6e20631962e062d25de85c4553bb725b65e77d667cfe7d1a7b087aae7a76740370786ce36c726c42673d655160255f135bae543853ca4f114ec74e454e1890068650811a5ba253749ecd677578278a706a58685455ab5403540997a083ca63ac8b708abc87fb7fa97947759172a06b3a64ec6280622f5b9c59935100507d4e809b3c9a0e98e28f1d8ecc8d778cb48a18898f5fbd7d007a005b637948757f6c7d6c176bc55e306a5f,
   0x541153e3539a52fe52b9529f516c5149501650194faf4f7c4ea49bc94e5e91908b778aa48a9e7881745a6a8e68a7609f5fa15f8c5a2f543e544953484f0d4e924e949f13986796c792378de88a87864e83f080e180a188b47cca72d06e5667af654562385f275eab5df15b6459d156fa547c53e4500b4e4e96508afa8a0082377d4373fe73846e906e1b5f265e7b53b3539f51439e789a139855967a937590638ed28ce28b19898b80a9770c7d79786f7814732e72ac727d6a29691c637262f361f861b25efa5acc5805570f55a752635238517c5065502650394ef667088a2388407d507a746f546c7a6b205091684196996fc06483621f52879be88fce82b89d8f981a8efd8b668a638a0886cd834a830e7f6b7e4b7d997d4c7cfb7a3d75666e136842666f656c643a63b261a96167617660755f845f625951578b73ea572d55535144521150be4fc279418888536690e18ecd7fa48a1385ab541b52f2936c68517e7068177c829688718a7aaa8f6197746c937a9f6398,
   0x5237518a53197b399bad685c932f7d227b567a8467f567146628643e548b524a4f5c9dfa789557fc5d0e54b280b4698a583a962a574251b48ca17f6a675057285264969b8f0988c183dc7d30658e796d78267815728091c7707d6e086b73683d63a1624d5f695bb059bb585e54c96700518d50ac50b5632b5ea7575088df93968a50780274736c9967fb5dee5de65d6f550653c94f504e9b9b42826e7d3a75d56df768b168396606660f61c760685a5a58be576456f04eca98036b648fbc72db9aa860da5ffd751181706f0973449ed29d6091777a4056fd544a523b514b9eb98f5f8c6a6fe062f758d5540853f752ab525b9d3b9ad899999805964d95a492fc783f9271917590ca8cfc8ca28b1b8861884c8352822a818f815480b180af800380157db17d5e7d187d057ce07a3f786c768775326e9d6e2f6d696d2a6c5f69cb68976821676d66f466436602653b63a762d86297614c60525f185eb75e9a5e835e785df75de75de55b8f5b5d5b54597d57a257515589540e,
   0x546853ce56da97007dac6a3963885bff546a53d75112999691528da3816b7a2e73e072e96b8a6731624b5b8853d64e3b60f95f315bc282e5932b91c8914c7235707c67535c3a52fa501f90aa86c7906e8eca8b1d80057d17793e716e659c8d6663685c045199820e7e1e854a5c61829d67f450727be085005b9f8cea75be6f066e7f60895ba45ac9593157f753f14e0396eb5b8d8ef87afa9d2b8b585f0f9e7f6c508f9e849481ea8033800c793a78c175d474bd723e6cbb6ecb6b216642630161485bfa5b5751504f8d4f3c4e8b6b6f98fc96cc8cdc8cc78aee8a8c8a668a698a5e899681f3810280a27d2b7d197cf879c1794973456c0f6b7b6b62679d65e865bd65af5b5c652f6307601d5fd75e2b5e025c4d5b5059ff59c959cb58eb56db55e353f253f8523a4f7f4f3a4ed44ed56b8b66ab65ac991091788cdb8b8386957e827b97752373ca71e6685f6563649260e85c7153c250984e09665276bf9bab9306634c9bd6769096d185a96bba672d64e664ae62f65bdf,
   0x98fe57f45631932091b88b7284b87a63757372b66d446756676164fe60c55e385b2258cc583457ce527051974e574e1e4e084e0a9798969c9418937e926691a48cde8c618a738a548a3c8a1f88f3885d8549848b83d680967d397ca77b117ae079f079657901785d770175c771677126713c6e586e096d886cbc6a356a1f68a2677e6676662d660c66076377638c62db6284627f5f705ee05e8a5e845c1a5c115c0f5c065bb55a3c59be596856175531554654e853ec5347532052dd511f50b7966492e460555f905e8f597353d952a98af885f785af66f87f727dd25eb66e1a66d966916240521d51e69806918790755de17d1476fe6f646e966df36b89696f65ec5faa51c699ff821c7ae377ac66255cfb4fca8ff0885351fa719f587e7c9b7e2e795d6dd15bbf591953d4928391cd7e2673636e0b6c4167d4620e5f93534151454f4f4ec0919c96c6916c914b90318f2f8e748b90897288468490821f81ed7fd27e4d7d4279cb79c06d3262fe61014fee5dde5c315b97,
   0x7dda7bad7a7f65cb717d714e6f5c67d36d176d456cc96834681364b0624762265ddd5c165c025ba35360534351484ed98749820c7d7696ea8aac7bc07a838a2d6298644263a562d9520778a98e5f8de18d648cac810a7e3e7c4d7a4d77f36790661465a5621a60dc5e2d96bb81067a0e6589975997529192901d8acb8a938aa0897f88fd58f080567cbe76db751f72726e056b63681668f26674661f6574653f621060275f8159d352e2523651c4662f755d702c4e165bf8647a6f8488fe96c0981783c569196749636e96db8da867a265705d695d079ac4745e968f931893109154904288707fe07c8b7761708a6c3463a85e2557825439901753a856f3916298088acf7b25976d96638fc58a0a814e5c3d751a5c0b58ec587552034ec14eba970791dd90328f9b8eab8a3a89aa85aa82af81e37d3379e6795e771f75b975336df16d78699b68ee664b65b0632f614e5fc35be95bdd5a2055074fb54fe14f385c3b8fb1875598df89e6827280777e5471ed6b96690d62ed]
def sjisRows1 : List Nat :=
  [0x53ea86f851e783388afe6fc194388a1774226fef6ca262d3629e62585b855544535370276edd9df9984c918d7b2c592753f04ee39bdb9edb968a902e90008cb8888b82d4817f80ce6ede6cf066ff6234614b60205f855e2f5cb180105bfe58064f539a2899c496406955823567c1625360f059a55815553e8a516c70592a591a4ed6905c6751640d5c0a5b6b5b5863c35176889653527d9a65cf8cca5c5e4fd7901f8db36e2c675f6349606f5373524750744fc390208d08853581d3618e589750cf9a12971c9397906d90018d7088c585fb84bc846c8358834980617d9c7dcf7cdf7a9376f875e94e8971e56f1569fd69cd5de366f965e964cd63bb633f6383635c60f360e3531d5c645b8b723d594f58ee55aa500953e253cc527550e79f209061963b8a3486077d447d207c9779df7956790e758e758f72d9695a66fd66fe63aa5ca85851564c7cce81b37e557985516871366f385584524d9bae9583929192ad907790788df58cce8a6e85a68239821b817a7fa87e4a,
   0x90138e448ae68a0282477de07a0b798e78876c4068af63d0633a62b5608c5f1f5ef75ead5e955e1d5b9a582454488c9e52435075505c4f4e4ead9db491e3540a722a7d2c5b2c58f7576a6f70693f93547db485268fbb67d86f2c4f4369fb63b46802585a901a75db939a8ffd69cc690e589c6d25967393ae8cc373cd6c88671576f4635752c59ce598029577929a8df38d858adc8abf8776817881398074773a753a72526f6e671d66a2631161f25fb45f6b5f355f145e815e335e165bf5558b51cb51464e018caf845782e7732a70266a1799d092f3914e8a3b8877866b6ce867f1663c62bd5fe05b994ef24e2d77405ae183367a9279e9901084c47b517af9755c7bc999b39045871881f47f6e7a1a75f46c60667a60655f1b573077e550248ac775376bb56a80669665ad5f3e58c756e3935b8a9586cb80c6803d7dbb7baa7aef77ed70ad6e5b6de16b4e65e663a262c55766560653584e398ab06a3d9c4872f88c3768da8fbf7aea5dfd8131596a8fb090544f4653e9,
   0x51654e7365e55eff867980898cd153028fe95f105c3c4e8c6c5d96e38edf6960535775777e0499b46962934b637a70588b0e859951ea4e4d518590a35948920d66c75451981390418c5a6c8c656660c75c6f5678701e91495bc582eb9cf65c4a69347a8151f86a6168038aad72ec6bd27be479bf776372796d9c5fb35f97533f9d075ce092859053840480f47ae577b36d1e649e61a75c0e5802540c52d550cd95d89a30982d96769419900f90038e0f8c468b048a0e85e48569846352307d717cd67b527b547b49797775d85f5371c8706f6d9b6e6f6dd876d768df68bc68436771642d629560bc5d8b5cf65b955957585858545510520051cd51ac515a501260125974571f5ea652aa783a7825934d90fd90148ced83df767b6e21675c65975f925c6059ac585758355410514e96fb75306fb16bbf4f1d70b9985b8ee28cbc751c7e8f6dfb5e975c555929586b517892448fed8f4d64a45fb954f26eba93d190697b1b76846ef4657564e264586ce59f0e91d8912d90b8,
   0x7f8e770974356bd867875fae5c3e50997c386a0b98db975e907f8cbb8ab988ab80a57f777dcb79d8789176ae75b26ccc6bd4659062ab6279624960b25f7c5e87598354265351532a86ee854378d076e4756a6669633d98ef9812716991c67bc48ca985e9822c7e41755473ed72af72486c4e6c3e677f6591642c5e0653db53cd534a52244f3496bc86e45859567a9ce995a57b4f629c7f704f109aea9197767a6e8c9262516b75607551808c5e616ae87b4880877bb878727bb151fd9ea699c183ab7e1b72066f2066dd8feb858482367c957b94767d6cca67cf62cd535a52654f2f842977e779e4877f9019966a8ce058f28cb772fd7164697368855a9257f9500d914d8f2980ba80cc724c76c3676f6557639262dd5ec34ff399ac82ad7f755a46783474366d3e6ce26777898764ad628a5df486a489978fb281bf813380fd7d0d6fc360a956a257dc4e4b5efc4e437c9871c3649a637b5ff55e7471b1732b84715be7796279b06fe18a8d5fcd598a4efb97ee5c3f5982,
   0x670b65b9653e636762b15e965d295cef5cf05b9d59495831544653054ff8502383e97c3f6bcd66ae620a6155589352df7a428f1488dc752b6b696355570392ea82174fdd97ad5f015a2952c94fbf904d8fd48fba7de87bc772475909504f7b86851177a5522578a7765658c150fb98017c73965b9589853d4e2667c45f0a5e735e63584051754f754e19805e658796f07d1b7cde7c89596e711a626e61a458b35674543b52069b9272694ecf6cb862555f176df5898689078179798f670d5e455fa9526f4f0f8557847a98a869535c0190e8856a8461821e6b6664ab4fae9644961c8d748ce68ca08b5c8299819a81507b2672366d6e666e65a76577627660165e9c5e0351a85bcc5a66592b57e04ed84e0d74f6654f983b8cd38ca770156d5c658c5f6c54c19c2d86ed849c92f2932882d779d275c563cf5edf8c798a558868796874e26f026c376a195f6a4ff58b2c767e7d105a9b59eb6867903c7b4675625fc55f3c809883f1819d5f669aed758b53397a1767ca9f3b,
   0x76526cb961086109945385ae67f397568e8d8a3385ac7d045f79538477e25f2591ce8036723a591c51b64e5f530195807d0b60b6554f8cb07c7e623b5c24990552ff676276ee9ed967285132849980177db276f2731b6bdb5b5f598483026a2164789eba97627dec7dbf68c9514d6ec5725d59ea9cf492988ff776df660e547d540d51a55a185a7f690b9d61972777db725f7121592252d977206c117c8d599981087a1484d16e4a871c5bc65cac7b955df39b45672a547385136f2b6e8061624e079ebf7e6d4fad8fc46cab672b62b953c84fe34ea6685d9c5267fe9baa6795819c5e5569d954e96bce679a662759b957cb9ebb9b5478e8646976c651e17ffb672c59545e4c58006b866ca152c391e67a4677667267673464b258a8535c50d55317982c54209632927e8cbf8c8c8b0081a880aa7d21519268d267d0671b66b4623f5fd95fd85e3d59a8574a5256508d4ea14e4f9d6c9cf398fd92d290a68c4a8a2a8912870284ec840c82b380de7e2b783270f96ce16cd5,
   0x806f7df47c3e71496f236190604b5ec988c270c852a352176b7466a69f629e97970a96f696b7923482d3793c73b2601c5dba52b151b74f8b4f364ee4985e7d2f6d99584174609e9f9c5796a38f2a81e8743371d06dcb67975398502b7dd1529b9818967591cf907c8ad2826f7ce77a1c77ad7642731f6dbc688165995bee51cc4e2150da4eae4e86865c65c5616e4fb69f8d7adc96867c92786b755974096e9c6d415289756563a0844e7acb73875f8b967896e291cc88e188cf75e27483740668a8674e5c65540f522989a7862d85cd6feb6b045d5053754e71916a843d7d616d1b96f7983c83b1676588f887ba7f856dc07ffc7fcc6d746c836b326291617e990a967d90658e0a8b21898184c9844980007f8a7aaf752871946eb66d0b69d8694a66dc64c163fa63da5eb85bb959965e7c50ad98108f3f8a894e0e4f594e885915878d96c490f59091904a8a9888d579507531733773366d8c6e6767da670963d6618260a05e7d5ba553cb52c7512a4f51552f8f388aed,
   0x50b250b45085509a50805078506c5056505a504850505055670350475043500650114fef4ffe502c502950214ff64f1c50055025502a50145028501a4fe54fe44fd04fda4fd14fdb4fd84fce4fdf4fd451184f964f864f6f4f914f704f694f7b4f984f8f4f884f764f474f574f5d4f5b4f304f5a4f094ef74edf4eed4ede4ed74ec24ec64ec44ecd4ece4eb64eb34eb04ea24ea04e9f4e9e4e8e5f0d82124e8a8c6b4e854e824e584e564e424e3f4e3c4e364e314e2a4e154e105f0c0000000000000000000000000000000000000000000000000000000000000000000000000000000000000000000000000000000000000000000000000000000000000000000000000000000000000000000000000000815578976e7e6900856885c18a6b9c104e984e999df267a060d181078cc46b6a8a71548c502d8ad69332808b79849e93516d90ce874b807e80017bed72fc72626f0f6d6a6994697c67175f045eca5a4152b497328def8cc270896ad39b6f5442932c902384ee,
   0x54a854c854c454ac54a554b854a254c754865490548454765480547b5492547054775471545f548e5475548f544e541d54295436542e543c542d542c5440543d540153fa53ed53e853ee71ee66fc53df96d97c1253c353b653b053ae53a553a653a0539653825377537b5918536e5369535e51d6534d53494e17534553465340533853335331532f5323531a5315530f5310530d75385308530652f952f852f552f352e098ed52e652e352de52d752cd52c152b552bc52ad52ac8fa78fa852915288527152925294528d527d527f527352695274526a5254525e524c524b5244524f52395233522e522a5227520e5214520b520451fe51f551f051ed51e9865551e051db51c951c551bd51b551b051b251b151b351ab51aa51a951a251a651a45196519551935191518f5189518c56d851825180516e516a51697af851625154514c51525140513f513b513c5137513a5121511a51145115511651025101510950f550f950ee50e350ed50e550de50d650c250b350ca50c9,
   0x5969596c5967596059625958595a594e595059557ad2593e59385932592d592c592568a6591b5910590a590258fd58fc58fb58f958fa58ef58df58e458dc58e558d858d958d758d158d358c558ae58b858bb58de58ba58ab589f58b958855879583d58526bc05870584b586258215872581d5819580b57e357d6580a57d357d257d457c657c357b057aa57a457b357a057935789577f5761578857c05769574f5740573b574e573857375726571c55c7571657185713570d570b57085709570456ff570056f956ee56d756d356d156ce56c856c056c356c156bc56c256b456b656ae56a5568f569456a0568a56805686566a566c562f5664566b563856325636563471df5650564e55f9561b55fd55fe561655f7561455d455e455dc55c455df55c555da55a8558755a95583557c55ae559e5598557e557b559f558a54af55805599555d55335538555755565545555c552e554c55635540553954e254fa54ed54ee54fd5514550f54e654e554d854bc54be54a454c254ab,
   0x5ecf5ed05ec85ec25ec15ea05e7f9ebc5e7a5e765e755e475e645e625e5f5e545e575e4e5e405e435e445e375e365e1b5e115e195e1a5e0b5df55df25deb5ddb5dd65dd25dd35dcd5dc95dbc5db75d905dbd5dae5dac5d9d5da25d825d845d875d765d735d6c5d4b5d4e5d525d4c5d185d195d1a5d225d145d115d1b5d1f5d5c5d175d155d0b5cea5d8c5ced5cfa5cfd5ce95cd95cc75cbe5cc55cb75cbc5cb65cbb5cab599b5c945c915c8c5c795c764e625c6e5c6c5b715c4f5c505c535c4e5c465c415c395c385c285c225c205c135c0d5c085c075c055bf35bf65bf05beb5be55bde5be25be65be45bd05bd45bc95bc75bc35bb85ba65b835b805b7a65885b785b755b735b705b695b655b5b5b5a5b555b515b405b455b435b3e5b365b2a5ad05b325b165b0b5b0c5afb5afa5ad65ae95ae65ad75ae35abd5ac25acb5abe5abc5a9a5a6a5a625a365a355a495a6c5a405a1a5a095a1c5a115a1f5a2559da59d9598d59dc59e859c659b259a34fab4f5e599d59815978,
   0x621b6214620c620d62096208620061fe61fc61fd61ff61f461fa61f661e361e661cd7f7961cb61ba61c661c361c861f761c961ca61cc61ae61ab6191618a619a619461ac61876196619961756153615d615f61716165616f6174616b615a615961586177617361446142613d6134612c613c613f614a61276128613e6147610e610d60f160fb6121610360fa60f4610060f760f661066115614d60d860b560c660bd5ff060b460d360e060b860e1608b60a7609260976096609b6084609a608360e7608d60816059606b606c6042606460436063604d6046604a605f6077606a6041605a603a600f6026602b6015601b6031600e602960106019606060215fff60b35fdd5ff15ff85fe45ffb5fd65fbc5fad5fa85fa05f985f995f9e5f875f915f885f8a5f7f5f825f835f775f735f6d5f615f595f575f565f515f2f5f4e5f4c5f485f415f385f2d5f295f165f115f0b5f5c5f5d5f095f035efe5ef85ef45ef05ef35ef15eec5ee95ee85ee15ee25edb5eda5edd5ee35ed6,
   0x66bc66be66c966b966c1669d669866846689668e6688668366706662665f666866676664665d665e664166496644664f661c663466366635677365fb6603660a677265f165e165e065d965db65d265cc65c465c165c665c365b765ab659f659b8b8a6583658265786572655d655e6558654d655565566548754b65386536653765356534652b652365246505651c651864fd650064fa64f264f464f6652c64ef64e362ac64e164e0820964e764f164c264d864bb64c764c564d264da64bc648864a964a564936495652a644e6476646f6467640f64286417651d64366426641364066434641663c463f663d263c963e363c663c063e963be6369636b63b5639f6389638f63a3637663ab6380638e6396634f641c634d633e635062f562ef63086302632762f162ee630c62c9629b62c762c262ca62cc62dc62c864d462c662ff62cf62bb62d162d76294628362d4629662936292627e62896282627c62686260625b6263625e624e6241623362326230622e622a6221621e,
   0x6aa36aa26a846aa06a8d6a906a226a386a486a666a596a626a476a786a366a726a0c6a446a136a236ac16a126a0a69eb6a1469ed6a1e69b16a0569e769f269f96b0a69ff6a1b6a0269e869de69b46995699c69a069916a2e69a769c369bb69dd69ca5be869ce69be69d369c169bf69d069ae69b2696a6981695d695e696169306959693d69746939696e697e6954696b6978695c6977697968c669216923691a692a692868ef68e068f9692568e368d769046912693668d568e768d468cd690c68e16926692268d8690868ca6901687e688d690f68ba68a068b5687468b96aae6883689b689d689468ad688f689f687f687768636859682b68b3684e6832684d684068296846681e6a9c67e767c667ce67b967ee67e267dd67de67e467b867e967b367ec67b467ef67b7678567a167a6678b678c676a677c67a9677067896764676367596760675e67466737673867416736673f672e973867276726671e6716670f66f766f566f066e966e6663f66e066da66d666b866c4,
   0x6ecc6f326eef6f316ef26f3f6efe6ef86eec704c6f116f416e9f6ec26ea56e8f6ed56ed46eb26ec46eaf6ebd6ed36eb76ec96e986eaa6e826e386e1d6eff6e246e4e6e3a6e436e1f6e4d6e766e2b6e6b6e236e3e6e5f6e726e196e2e6e6e6e2d6dee6dea6dd56de46dd96dfa6dc56dd26de86dcc6dde6dec6dc66db86de66dc76db56e0a6e156df96d856fe46d956d8e6d596d796d5a6d646d936d636d0c6d126d336d356d196d386d3d6d2b6d36884d6d1f6cea6cd96cef6cdb6cba6cbe6cb16cae6cdd6cc56cd76cbd6cd36cf16cc46c906c926c736c686c7e6c9b6c816c9a6c8d6c826c6a6c626c556c5e6c236c246c1b6c146c136c089ebe6bef6bf36beb6bec6bdf6bd36bcb6bc66bbc6bb76bb36bb16bb26baf6bab6baa6ba46b9e6b956b986b8d6b836b846b806b7f6b796b786b616b5f6b5b6b546b596b506b496b436b4798ee6b3976dc6b376b386b1f9b316b166b126afa86166b056afb6aea6ada6aaa6adf6ad16ade6aac6ab36ab86ac26ac36abb86176a97,
   0x73f174d474cf74ca74a7749e748b747e7476746a746374707469745c74417459745f743f7455743a743273f87425746f740574a273de73ee73e573c073bb73ce73b373c8737a737b7375737873707368736a73579ed8734f734e733e73257329732f7334731d7316731c730a7317500f72f772f972e172e072e272d272ce72c472c672c372b272b972a772a272967292728772817282727e72747258724b72467240723f723c723b72327230722c722d7228721b7210720d71ff71f971fc71f571e771ec71e071ce71d471c971d271be71b971d771ac71a87195718471fb718f716c7156714c716271667188715571657119711c70fd710970d970dd70cb70df70ae70b370b870ac70f170af70927099706370517032703e7030701f7018701d6f74701a701b6ffe700f700170116ffa700b70096fdb6fee6ff16fd86fd46fec6fd56fdf6faa6fc66fb96fa46fa16fa36fb36f666fc26f916f8e6f586f7c6f826f6d6ff36f5b6f6f6f806f816f786f7a6f866ef76f136f3e]
def sjisRows2 : List Nat :=
  [0x78ec78ca78c578bc78be78d478cb78c678d178af78aa78b578a3788c789a787c78867874788e7845792a782079267812780c77fc77ee77e377dc77da77d777cd77c777bb77bd77bc77bf77b977b677b0779e77a07791778b778e7779777e777f7765775b776b7768775a774777387737771b77267725771e7724772977047707770876fb862f76ea76e776e576e176de76d276d676cd76c276ba76b976b876b476b0769a769976937696768e768b768876837680767c7678767676727670766c7667766a76697668766276617658765c764676487647763b7630763476247622762176207627761f7609760d760b75f375f275fa75f0760175fc75ff75fe75de75e375d975d275ca75cd75b175bc75b875bd75b575c375b375c275a375a5759d759a759475827589758a75747587758675767578756d756b756775647569755a7546755b7549754a754d7544753c752c7526751e75137515750d750e750c75057503750474f774f874f174f074f274ee74e974e774e374e0,
   0x7d067cfa7cf67cf47cf27cef9b3b7ce27cdc7cd27cd87cc27cc57cc07cbd7cb97cae7cb17cb27cb37ca87ca17cab7ca27cad7ca47c907c837c757c6c7c657c567c647c5f7c587c507c407c4f7c547c437c4c7c3d7c2b7c377c1f7c2a7c277c237bf67c0d7c177bf77bf37c137c077c007c607be57be67c147c117be97bdd7bc67bb47bcf7bcc7bc17bcb7b997b5d7b8f7b927b8b7b9a7b9c7b8d7b9f7b987b9d7b6e7b6c7b717b707b677b747b657b757b457b4c7b0b7b4d7b047b7a7b507b367b287b357b1e7b197b187b337b067b0a7b0f7b027af07aed7ae67ae27ae17add7ada7ad97ad37ad57acf7acd7aca7ac790837abf7ac47ac57ab67ab07ac87aa97a967a987a957a977a887a7d7a797a709f9d7a697a627a617a497a577a437a377a3e7a3b7a3179807a1f7a207a197a187a0d7a0879e379e179ec79e779d579c979ba79b979b379ae79aa9f4b79a7799d798a797f797a79537955795a795f795779607940792b792c791979117912790778f478fd78da78e7,
   0x814b812f81238129811b80f180ef810980d680da80c480dd80d980e580db80ac519080ad809a8093809b808580868084807f807d8079807680708072807380688062805f805a805880528046804a803b803f80288021801c801980188012800b8004800698dc7ff97ff37fe97fe67fe17fd47fd57fca7fc67fc58b717fb87fb67fae7fb97fb27faf7fa37f9a7f9d7f9e7f947f8c7f877f887f837f867f827f787f677f697f687f607f5f7f587f547f557f517f507f4e7f4d7f4c7f457f3a7f387e9c7e9b7e8e7e967e947e937e907e927e8c7e897e887e7f8fae7e7d7dd57e837e7b7e7c7e697e6a7e797e5a7e597e5e7e567e5d7e677e3a7e327e377e437e397e357e3b7e667e467e227e0b7e097e1f7e317e127e217e237e0a7e057de17df27dfb7dde7de47ddd7dd87db07d9f7db87ddc7daf7da27e3d7dab7dbd7dc77db57da37dae7dba7d9b7d7d7d8f7d5b7d897d937d637d4f7d6e7d687d727d4e7d567d737d467d357d3f7d327d2e7d4b7d457d0a7d157d1c7d02,
   0x854885588563854084fc85148515851f852c8518851784f484ff852184a184d684c684c184d084da84bb84cd84d9849f84bf84b9846284ca84358479846f842c844684698482846e84ad846b84778484855a843c842a846d83fb8506843883bd84208422840d83f283e0840783f783c1840b83d8840383fd83ce83eb841383f483a8838983a08375837383b5837c838a8387838e8323839683a2839f83aa839a838583188317832b832f83458350833983408331833283168334833582d9830982dc830682de82f982fb8303839382fa82f382f482d282df82e382e182ac82bb829f82ab8292828d827e827882778271822e826b826a826882628264825f825a825d82588259824082338238822b822982168210820d820a820782058202820181fe81fb81fa81e781e081df81da81c881d881d981d181cd81c981ba81c281c081bd81b881be81b581b081a98193815f81a381a4819581a081828180818a81888183817481668165816e817180fc81518153813e8146968b,
   0x895e8960891d894c89388936893b89448941892b892a8925891e89438913890a890c890488f288e888f488fc890288f988dd88d988d888d488c488c388b188bf88b088a4888d88a2889988ae889288978882887288b5887d8875889e887e8881886b8862885e8859885288428844883b88278839883688318821882288158816881187d2880e87f787f687fe880d880f87e087f287ef87bb87c687c787b387c487ab96d687d087c087bd87cb87af8782879f87a28805876a876387538759876e876887578774874e874c8778875f8760871a87298725873b8737873f8734870a86f9870d8709871186fb8703870087088706871286ef86db86df86ec86e986de86d486ab882386c986b086c686c486af86b6868c868b86aa86a986a3869386718667865f86544e55864d863f8630861a8622860685fa85fe860b8613860a85f985dc85e585dd85d585d085b985cf85ba85c98590857e8577859c858785ea859b8594856d85a8858a8591858885a485808555854b86028541,
   0x8e4a8e348e308e358e428e1f8e108e1e8e1d8dff8e098e088dfc8de38ddf8deb8dea8dcb8ddb8dcc8dd68dda8dcf8dba8dbe8dc28d998d818d738d718d6d8d678d168d148ccd8d139f4e8d108d0d8d0f8d078d0a8d058d048cfb8cfa8cfd8cda8ce38ce48cc18cc88cb68cae8cb38cb28cbd8caa8cad621d8c988c7c8c948c8e8c8d8c8a8c858c898c828c7a8c788c6c8c628c558c508c4e8c4c8c488c3f8c418c3a8b9a8b998b968b938b928b8e8b8c8b808b7d8b748b6f8b6c8b5f8b6b8b5a8b5b8b568b498b4e8b4f8b4c8b418b288b3e8b2b8b2697ab8b338b208b178b108b168ae18b1a8b078b0c8adb8ade8af78ae28ae08b148af18ae48ae78af38aeb8ada8ac28acd8ac48aa38a9a8aa68aa58a918aa18aa88a848a828a858a628a6c8a6d8a7c8a488a468a528a5b8a418a368a258a1d8a1b8a0c8a108a168a0389f889f489e789dd89dc89da89c089bf89bd89ba89b289af89ac89a689a989a189988993898a89888983897e89778974896f896a896d89648966,
   0x932e934492fa930f92e992b792b992cf925a929b92939296929c9250924b923f929592489264924992459257925e92119215922c921491ff921e91f691f591fc91db91e191df91d691d091cb91c991c191c091ba91b491b591aa91af91ab91a291829189918b9172917391699165916391589156914a9130913291199112910290db624890e490e290b590b190af90a8908f9089908a90809081907d9082907296a89076906f9068905e90589056903e9049900e905290519050904f8ff89039903590369027900b9016901e900d9021901590118ffa8ff990058ff490878fef8fea8fe28fe58fda8fb78faf8fad8fa38f9f8f9c8f648f638f628f5c8f578f4e8f468f498f4c8f3e8f428f458f398f3b8f338f268f0c8f1b8f1f8f1c8f138f198f128f158f058f0a8efe8eeb8efb8efc8ee38edb8ecb8ec88ec58ebe8eb18ec68eb08eac8ea18eaa8e998e948e918e938e8a8e8b8e848e858e878e818e7c8e728e768e558e638e2a8e608e648e598e488e508e4c8e498e47,
   0x9870986f986b984b984f9846983d9837982198249838980c980f97f597f67adf97f29f4f97ed97dc97cb97c897c697c397b497b397a397a697a8979c9790978f978b9786977a9781977c978597799771976b52d29768976697649760975c97499742974897469744973e973d97399730972a972497199716970f9711970e971397089706970496f996d5970d96dc894d96cd96c996cb96ce96b996b896b696b496b096b296b196a796aa969796959698968d966c96729666965f965d965e965c9677964b964f964c9642962f962e9628962195e295e595e195dc95d695d495d595cc95cd95c36ff695ca95be95b995bb95bc95ad95a795a895a09599959895969594958a95879582947f9481947e947c945a947d9477947594709229946a945e94629460945b944494529441943a94219435942b943694109407940394139414941a93e493c893d093dd93c393d893e593e893d793d693b9939493ad93ac93b09356936e937c9360935c933b9335933a9323931a93229319,
   0x9d489d469d3e9d3f9d419d129d159d449d1f9d239daf9d269d2a9d069d039ceb9d089d099cf09cec9ce79c789c769c679c609c5a9c3e9c469c329c479c309c219c249c259c1b9c2e9c049c0a9c129c089c069c0c9c139c099c149c159bf09bf19bf29c3a9be19bd49be49be29be39bd29bd19bcf9bc69bb99bca9bc09bb49ba89ba09b9f9b979b969b919b839b939b749b589b519b4e9b4d9b4f9b439b449b329b2f9b2e9b2a9b299b289b279b259b239b229b1f9b1a9b189b069afb9af79af19af49aee9aeb9aef9ae69ae39ae29adf9ade9ad49ad39ad19acf9ac09abc9ab09aad9a6a9a6b9a699a649a659a629a5f9a579a5b9a4d9a559a3e9a439a409a429a459a379a2b9a1999e29a059a0f9a0199f899fb99f299f199ee99ed99d199d899dd99db99df99bc99ae99ad99a5999899979955994c99529951994b9950994599499942993e993d992e992c99209924991e991d99219918991499129909990398eb98e998c698c398c498b698b198af98aa987398749871,
   0x719951dc7464905969c7582f9fa09f9c9f959f769f729f779f6a9f6c9f679f669f619f609f5f9f639f549f529f4a9f3e9f2c9f219f1576b79f089f079efd9efc9efb9ef99ef79ef69ef49eef9ee89ee59ee09edd9ede9edc9ed49ed09ecf9ece9ecc97619ead9eaa9eb89ea99ea59e9d9e919e959e929e8c9e8b9e889e819e7d9e799e759e1e9e1b9e1a9dfd9def9ded9de69df89dd39dd99dc29dcf9dc69dba9db89dbb9dc19dc49db29da99da49d9a9d7a9d6f9dab9d879d899d729d599d509d519d649d5e9d5d,
   0x0,
   0x0,
   0x72b171fe71c1fa1571477146715c7104710f70ab70857028700770056ff56fb56f886ebf6e3c6e276e5c6e396dfc6df26df86dcf6dac6d966d6f6d876d046cda6c6f6c866c5c6c3f6bd66ae46ae26a7e6a736a466a6b6a3069e26998fa146968fa1368cf6844680167c0685267bb6766f929670e66fa66bf66b266a066996673fa126659665766656624661e662e6609663b66156600654e64ce649d646063f562a66213619861306137611160f2612060d560de608a6085605d5fde5fb75f675f345f215dd05db95db85d6d5d42fa115d535d275cf55cba5ca65c1e5bec5bd8752f5bc05b5659ba59a45963595d595b5953590b58b2589efa10fa0f57c757c857ac57655759558654ff54a9548a549cfa0e53dd53b25393537253245307530052db52c052a6529c521551ec51be519d5164514a50d850f45094504250705046501e4fff502250404fcd4f944f9a4f8a4f924f564f394f034f004efc4ee14e285f4566fb92f968c8663170bb4fc984dc92889348891c7e8a,
   0xff02ff07ffe4ffe22179217821772176217521742173217221712170000000009ed19e19fa2d9d6b9d709c009bbb9bb19b8f9b729b759adc9ad99a4e999efa2c9927fa2bfa2a9865985797559751974f974d9743973b973396af969dfa29f9dc959294489445943193f893de93c693a4935793709302931d92ff931efa2892fb9321932592d392e092d5fa2792d092d992d792e79278927792a79267923992519259924e923c9240923a920a9210920691e591e491ee91ed91de91d791da91279115fa2690de9067fa25fa248ecffa238d768d128cf48cf08b7f8b538af6fa228adf8abe8aa78a798a378a1288f58807fa21fa2085b0fa1f856b8559855384b4844883f683c7837f83628301fa1e7fa17f477e527dd67da07db77d5c7d48fa1d7b9e7aebfa1c7ae77ad1799bfa1b7994fa1afa19fa187930787a7864784e782152af7746fa1776a6769b769e769c7682756f7501749f74897462742e7429742a742673f5740773d273e373d673c973bd7377fa16732472be,
   0x0,
   0xe0bbe0bae0b9e0b8e0b7e0b6e0b5e0b4e0b3e0b2e0b1e0b0e0afe0aee0ade0ace0abe0aae0a9e0a8e0a7e0a6e0a5e0a4e0a3e0a2e0a1e0a0e09fe09ee09de09ce09be09ae099e098e097e096e095e094e093e092e091e090e08fe08ee08de08ce08be08ae089e088e087e086e085e084e083e082e081e080e07fe07ee07de07ce07be07ae079e078e077e076e075e074e073e072e071e070e06fe06ee06de06ce06be06ae069e068e067e066e065e064e063e062e061e060e05fe05ee05de05ce05be05ae059e058e057e056e055e054e053e052e051e050e04fe04ee04de04ce04be04ae049e048e047e046e045e044e043e042e041e040e03fe03ee03de03ce03be03ae039e038e037e036e035e034e033e032e031e030e02fe02ee02de02ce02be02ae029e028e027e026e025e024e023e022e021e020e01fe01ee01de01ce01be01ae019e018e017e016e015e014e013e012e011e010e00fe00ee00de00ce00be00ae009e008e007e006e005e004e003e002e001e000]
def sjisRows3 : List Nat :=
  [0xe177e176e175e174e173e172e171e170e16fe16ee16de16ce16be16ae169e168e167e166e165e164e163e162e161e160e15fe15ee15de15ce15be15ae159e158e157e156e155e154e153e152e151e150e14fe14ee14de14ce14be14ae149e148e147e146e145e144e143e142e141e140e13fe13ee13de13ce13be13ae139e138e137e136e135e134e133e132e131e130e12fe12ee12de12ce12be12ae129e128e127e126e125e124e123e122e121e120e11fe11ee11de11ce11be11ae119e118e117e116e115e114e113e112e111e110e10fe10ee10de10ce10be10ae109e108e107e106e105e104e103e102e101e100e0ffe0fee0fde0fce0fbe0fae0f9e0f8e0f7e0f6e0f5e0f4e0f3e0f2e0f1e0f0e0efe0eee0ede0ece0ebe0eae0e9e0e8e0e7e0e6e0e5e0e4e0e3e0e2e0e1e0e0e0dfe0dee0dde0dce0dbe0dae0d9e0d8e0d7e0d6e0d5e0d4e0d3e0d2e0d1e0d0e0cfe0cee0cde0cce0cbe0cae0c9e0c8e0c7e0c6e0c5e0c4e0c3e0c2e0c1e0c0e0bfe0bee0bde0bc,
   0xe233e232e231e230e22fe22ee22de22ce22be22ae229e228e227e226e225e224e223e222e221e220e21fe21ee21de21ce21be21ae219e218e217e216e215e214e213e212e211e210e20fe20ee20de20ce20be20ae209e208e207e206e205e204e203e202e201e200e1ffe1fee1fde1fce1fbe1fae1f9e1f8e1f7e1f6e1f5e1f4e1f3e1f2e1f1e1f0e1efe1eee1ede1ece1ebe1eae1e9e1e8e1e7e1e6e1e5e1e4e1e3e1e2e1e1e1e0e1dfe1dee1dde1dce1dbe1dae1d9e1d8e1d7e1d6e1d5e1d4e1d3e1d2e1d1e1d0e1cfe1cee1cde1cce1cbe1cae1c9e1c8e1c7e1c6e1c5e1c4e1c3e1c2e1c1e1c0e1bfe1bee1bde1bce1bbe1bae1b9e1b8e1b7e1b6e1b5e1b4e1b3e1b2e1b1e1b0e1afe1aee1ade1ace1abe1aae1a9e1a8e1a7e1a6e1a5e1a4e1a3e1a2e1a1e1a0e19fe19ee19de19ce19be19ae199e198e197e196e195e194e193e192e191e190e18fe18ee18de18ce18be18ae189e188e187e186e185e184e183e182e181e180e17fe17ee17de17ce17be17ae179e178,
   0xe2efe2eee2ede2ece2ebe2eae2e9e2e8e2e7e2e6e2e5e2e4e2e3e2e2e2e1e2e0e2dfe2dee2dde2dce2dbe2dae2d9e2d8e2d7e2d6e2d5e2d4e2d3e2d2e2d1e2d0e2cfe2cee2cde2cce2cbe2cae2c9e2c8e2c7e2c6e2c5e2c4e2c3e2c2e2c1e2c0e2bfe2bee2bde2bce2bbe2bae2b9e2b8e2b7e2b6e2b5e2b4e2b3e2b2e2b1e2b0e2afe2aee2ade2ace2abe2aae2a9e2a8e2a7e2a6e2a5e2a4e2a3e2a2e2a1e2a0e29fe29ee29de29ce29be29ae299e298e297e296e295e294e293e292e291e290e28fe28ee28de28ce28be28ae289e288e287e286e285e284e283e282e281e280e27fe27ee27de27ce27be27ae279e278e277e276e275e274e273e272e271e270e26fe26ee26de26ce26be26ae269e268e267e266e265e264e263e262e261e260e25fe25ee25de25ce25be25ae259e258e257e256e255e254e253e252e251e250e24fe24ee24de24ce24be24ae249e248e247e246e245e244e243e242e241e240e23fe23ee23de23ce23be23ae239e238e237e236e235e234,
   0xe3abe3aae3a9e3a8e3a7e3a6e3a5e3a4e3a3e3a2e3a1e3a0e39fe39ee39de39ce39be39ae399e398e397e396e395e394e393e392e391e390e38fe38ee38de38ce38be38ae389e388e387e386e385e384e383e382e381e380e37fe37ee37de37ce37be37ae379e378e377e376e375e374e373e372e371e370e36fe36ee36de36ce36be36ae369e368e367e366e365e364e363e362e361e360e35fe35ee35de35ce35be35ae359e358e357e356e355e354e353e352e351e350e34fe34ee34de34ce34be34ae349e348e347e346e345e344e343e342e341e340e33fe33ee33de33ce33be33ae339e338e337e336e335e334e333e332e331e330e32fe32ee32de32ce32be32ae329e328e327e326e325e324e323e322e321e320e31fe31ee31de31ce31be31ae319e318e317e316e315e314e313e312e311e310e30fe30ee30de30ce30be30ae309e308e307e306e305e304e303e302e301e300e2ffe2fee2fde2fce2fbe2fae2f9e2f8e2f7e2f6e2f5e2f4e2f3e2f2e2f1e2f0,
   0xe467e466e465e464e463e462e461e460e45fe45ee45de45ce45be45ae459e458e457e456e455e454e453e452e451e450e44fe44ee44de44ce44be44ae449e448e447e446e445e444e443e442e441e440e43fe43ee43de43ce43be43ae439e438e437e436e435e434e433e432e431e430e42fe42ee42de42ce42be42ae429e428e427e426e425e424e423e422e421e420e41fe41ee41de41ce41be41ae419e418e417e416e415e414e413e412e411e410e40fe40ee40de40ce40be40ae409e408e407e406e405e404e403e402e401e400e3ffe3fee3fde3fce3fbe3fae3f9e3f8e3f7e3f6e3f5e3f4e3f3e3f2e3f1e3f0e3efe3eee3ede3ece3ebe3eae3e9e3e8e3e7e3e6e3e5e3e4e3e3e3e2e3e1e3e0e3dfe3dee3dde3dce3dbe3dae3d9e3d8e3d7e3d6e3d5e3d4e3d3e3d2e3d1e3d0e3cfe3cee3cde3cce3cbe3cae3c9e3c8e3c7e3c6e3c5e3c4e3c3e3c2e3c1e3c0e3bfe3bee3bde3bce3bbe3bae3b9e3b8e3b7e3b6e3b5e3b4e3b3e3b2e3b1e3b0e3afe3aee3ade3ac,
   0xe523e522e521e520e51fe51ee51de51ce51be51ae519e518e517e516e515e514e513e512e511e510e50fe50ee50de50ce50be50ae509e508e507e506e505e504e503e502e501e500e4ffe4fee4fde4fce4fbe4fae4f9e4f8e4f7e4f6e4f5e4f4e4f3e4f2e4f1e4f0e4efe4eee4ede4ece4ebe4eae4e9e4e8e4e7e4e6e4e5e4e4e4e3e4e2e4e1e4e0e4dfe4dee4dde4dce4dbe4dae4d9e4d8e4d7e4d6e4d5e4d4e4d3e4d2e4d1e4d0e4cfe4cee4cde4cce4cbe4cae4c9e4c8e4c7e4c6e4c5e4c4e4c3e4c2e4c1e4c0e4bfe4bee4bde4bce4bbe4bae4b9e4b8e4b7e4b6e4b5e4b4e4b3e4b2e4b1e4b0e4afe4aee4ade4ace4abe4aae4a9e4a8e4a7e4a6e4a5e4a4e4a3e4a2e4a1e4a0e49fe49ee49de49ce49be49ae499e498e497e496e495e494e493e492e491e490e48fe48ee48de48ce48be48ae489e488e487e486e485e484e483e482e481e480e47fe47ee47de47ce47be47ae479e478e477e476e475e474e473e472e471e470e46fe46ee46de46ce46be46ae469e468,
   0xe5dfe5dee5dde5dce5dbe5dae5d9e5d8e5d7e5d6e5d5e5d4e5d3e5d2e5d1e5d0e5cfe5cee5cde5cce5cbe5cae5c9e5c8e5c7e5c6e5c5e5c4e5c3e5c2e5c1e5c0e5bfe5bee5bde5bce5bbe5bae5b9e5b8e5b7e5b6e5b5e5b4e5b3e5b2e5b1e5b0e5afe5aee5ade5ace5abe5aae5a9e5a8e5a7e5a6e5a5e5a4e5a3e5a2e5a1e5a0e59fe59ee59de59ce59be59ae599e598e597e596e595e594e593e592e591e590e58fe58ee58de58ce58be58ae589e588e587e586e585e584e583e582e581e580e57fe57ee57de57ce57be57ae579e578e577e576e575e574e573e572e571e570e56fe56ee56de56ce56be56ae569e568e567e566e565e564e563e562e561e560e55fe55ee55de55ce55be55ae559e558e557e556e555e554e553e552e551e550e54fe54ee54de54ce54be54ae549e548e547e546e545e544e543e542e541e540e53fe53ee53de53ce53be53ae539e538e537e536e535e534e533e532e531e530e52fe52ee52de52ce52be52ae529e528e527e526e525e524,
   0xe69be69ae699e698e697e696e695e694e693e692e691e690e68fe68ee68de68ce68be68ae689e688e687e686e685e684e683e682e681e680e67fe67ee67de67ce67be67ae679e678e677e676e675e674e673e672e671e670e66fe66ee66de66ce66be66ae669e668e667e666e665e664e663e662e661e660e65fe65ee65de65ce65be65ae659e658e657e656e655e654e653e652e651e650e64fe64ee64de64ce64be64ae649e648e647e646e645e644e643e642e641e640e63fe63ee63de63ce63be63ae639e638e637e636e635e634e633e632e631e630e62fe62ee62de62ce62be62ae629e628e627e626e625e624e623e622e621e620e61fe61ee61de61ce61be61ae619e618e617e616e615e614e613e612e611e610e60fe60ee60de60ce60be60ae609e608e607e606e605e604e603e602e601e600e5ffe5fee5fde5fce5fbe5fae5f9e5f8e5f7e5f6e5f5e5f4e5f3e5f2e5f1e5f0e5efe5eee5ede5ece5ebe5eae5e9e5e8e5e7e5e6e5e5e5e4e5e3e5e2e5e1e5e0,
   0xe757e756e755e754e753e752e751e750e74fe74ee74de74ce74be74ae749e748e747e746e745e744e743e742e741e740e73fe73ee73de73ce73be73ae739e738e737e736e735e734e733e732e731e730e72fe72ee72de72ce72be72ae729e728e727e726e725e724e723e722e721e720e71fe71ee71de71ce71be71ae719e718e717e716e715e714e713e712e711e710e70fe70ee70de70ce70be70ae709e708e707e706e705e704e703e702e701e700e6ffe6fee6fde6fce6fbe6fae6f9e6f8e6f7e6f6e6f5e6f4e6f3e6f2e6f1e6f0e6efe6eee6ede6ece6ebe6eae6e9e6e8e6e7e6e6e6e5e6e4e6e3e6e2e6e1e6e0e6dfe6dee6dde6dce6dbe6dae6d9e6d8e6d7e6d6e6d5e6d4e6d3e6d2e6d1e6d0e6cfe6cee6cde6cce6cbe6cae6c9e6c8e6c7e6c6e6c5e6c4e6c3e6c2e6c1e6c0e6bfe6bee6bde6bce6bbe6bae6b9e6b8e6b7e6b6e6b5e6b4e6b3e6b2e6b1e6b0e6afe6aee6ade6ace6abe6aae6a9e6a8e6a7e6a6e6a5e6a4e6a3e6a2e6a1e6a0e69fe69ee69de69c,
   0x6d6f6d876d046cda6c6f6c866c5c6c3f6bd66ae46ae26a7e6a736a466a6b6a3069e26998fa146968fa1368cf6844680167c0685267bb6766f929670e66fa66bf66b266a066996673fa126659665766656624661e662e6609663b66156600654e64ce649d646063f562a66213619861306137611160f2612060d560de608a6085605d5fde5fb75f675f345f215dd05db95db85d6d5d42fa115d535d275cf55cba5ca65c1e5bec5bd8752f5bc05b5659ba59a45963595d595b5953590b58b2589efa10fa0f57c757c857ac57655759558654ff54a9548a549cfa0e53dd53b25393537253245307530052db52c052a6529c521551ec51be519d5164514a50d850f45094504250705046501e4fff502250404fcd4f944f9a4f8a4f924f564f394f034f004efc4ee14e285f4566fb92f968c8663170bb4fc984dc92889348891c7e8a2235212121163231ff02ff07ffe4ffe221692168216721662165216421632162216121602179217821772176217521742173217221712170,
   0x9ad99a4e999efa2c9927fa2bfa2a9865985797559751974f974d9743973b973396af969dfa29f9dc959294489445943193f893de93c693a4935793709302931d92ff931efa2892fb9321932592d392e092d5fa2792d092d992d792e79278927792a79267923992519259924e923c9240923a920a9210920691e591e491ee91ed91de91d791da91279115fa2690de9067fa25fa248ecffa238d768d128cf48cf08b7f8b538af6fa228adf8abe8aa78a798a378a1288f58807fa21fa2085b0fa1f856b8559855384b4844883f683c7837f83628301fa1e7fa17f477e527dd67da07db77d5c7d48fa1d7b9e7aebfa1c7ae77ad1799bfa1b7994fa1afa19fa187930787a7864784e782152af7746fa1776a6769b769e769c7682756f7501749f74897462742e7429742a742673f5740773d273e373d673c973bd7377fa16732472be72b171fe71c1fa1571477146715c7104710f70ab70857028700770056ff56fb56f886ebf6e3c6e276e5c6e396dfc6df26df86dcf6dac6d96,
   0x9ed19e19fa2d9d6b9d709c009bbb9bb19b8f9b729b759adc]
/-- Shift_JIS: rows of 188 for lead bytes 0x81 to 0x9F and 0xE0 to 0xFC. -/
def sjisRows : List Nat := sjisRows0 ++ sjisRows1 ++ sjisRows2 ++ sjisRows3
def uhcRows0 : List Nat :=
  [0xad13ad12ad10ad0ead0bad0aad09ad08ad07ad05ad03ad02ad01acffacfeacfbacfaacf9acf8acf7acf4acf2aceeacedacebace9ace6ace5ace3ace2acdfacdeacddacdcacdbacdaacd9acd8acd6acd4acd3acd2acd1acd0accfacceaccdaccbaccaacc9acc7acc6acc5acc3acc2acc0acbfacbeacbaacb7acb6acb5acb4acb3acb2acb1acaeacadacabaca7aca6aca5aca4aca3aca2ac9eac9bac9aac99ac98ac97ac96ac95ac93ac92ac91ac8fac8eac8dac88ac87ac82ac7fac7eac7dac7cac7bac79ac76ac75ac73ac72ac6fac6eac6dac6cac6bac6aac69ac68ac67ac66ac65ac64ac63ac62ac61ac60ac5fac5eac5dac5bac5aac59ac57ac56000000000000000000000000ac55ac53ac52ac51ac50ac4fac4eac4cac4aac49ac48ac47ac46ac45ac44ac43ac42ac41ac3fac3eac3dac3bac3aac37ac36ac35000000000000000000000000ac34ac33ac32ac2eac2bac2aac29ac28ac27ac26ac25ac23ac22ac21ac1fac1eac18ac0fac0eac0dac0cac0bac06ac05ac03ac02,
   0xadf7adf6adf5adf4adf3adf2adf1adf0adefadeeadedadecadebadeaade9ade8ade7ade6ade5ade3ade2ade1addfaddeadddaddbaddaadd9add8add7add6add5add4add2adcfadceadcdadccadcbadcaadc9adc7adc6adc5adc3adc2adbfadbeadbdadbcadbbadbaadb9adb8adb6adb5adb4adb3adb2adb1adb0adafadaeadadadacadabadaaada9ada8ada7ada6ada5ada3ada2ada1ada0ad9fad9ead9bad9aad99ad98ad97ad96ad95ad94ad93ad92ad91ad8fad8ead8dad8bad8aad87ad86ad85ad84ad83ad80ad7ead7aad79ad78ad77ad72ad71ad6fad6ead6bad6aad69ad68ad67ad66ad65ad64ad62ad60ad5fad5ead5dad5cad5bad5aad59000000000000000000000000ad57ad56ad55ad53ad52ad51ad4fad4ead4dad4cad4bad4aad48ad46ad43ad42ad41ad40ad3fad3ead3dad3bad3aad39ad37ad36000000000000000000000000ad33ad32ad31ad30ad2fad2ead2bad2aad28ad27ad26ad25ad24ad23ad22ad21ad1fad1ead1dad1bad1aad19ad17ad16ad15ad14,
   0xaee5aee4aee3aee2aee1aee0aedfaedeaeddaedbaedaaed7aed6aed5aed4aed3aed2aeceaecbaecaaec9aec8aec7aec6aec5aec3aec2aec1aebfaebbaebaaeb9aeb8aeb7aeb6aeb5aeb4aeb3aeb2aeb1aeb0aeafaeaeaeadaeacaeabaeaaaea9aea8aea7aea6aea5aea4aea3aea2aea1aea0ae9fae9eae9dae9cae9bae9aae99ae98ae97ae96ae95ae94ae93ae92ae91ae90ae8fae8eae8dae8bae8aae89ae88ae87ae86ae83ae82ae81ae80ae7fae7eae7aae77ae76ae75ae74ae73ae72ae71ae6fae6eae6dae6bae6aae67ae66ae64ae63ae62ae5eae5bae5aae59ae58ae57ae55ae53ae52ae51ae4fae4bae49ae48ae47ae44ae42ae3fae3eae3d000000000000000000000000ae3cae3bae39ae36ae35ae33ae32ae2fae2eae2dae2cae2bae2aae29ae28ae27ae26ae25ae24ae23ae22ae21ae20ae1fae1eae1d000000000000000000000000ae1cae1bae1aae19ae18ae17ae16ae15ae13ae12ae11ae10ae0fae0eae0cae0aae07ae06ae05ae04ae03ae02adfeadfdadfbadfa,
   0xafbeafbdafbbafbaafb7afb6afb5afb4afb3afb2afb1afb0afafafaeafadafacafabafaaafa9afa8afa7afa6afa5afa4afa3afa2afa1afa0af9faf9eaf9daf9baf9aaf99af98af97af96af94af93af92af8faf8eaf8daf8caf8baf8aaf89af87af86af85af83af82af81af7faf7eaf7daf7caf7baf7aaf78af77af76af75af74af73af72af71af70af6faf6eaf6daf6caf6baf6aaf69af68af67af66af63af62af61af60af5faf5eaf5baf5aaf59af58af57af56af55af54af53af52af51af4faf4eaf4daf4caf4baf4aaf47af46af45af44af40af3eaf3baf3aaf39af38af37af36af35af33af31af2faf2eaf2baf2aaf29af28af27af26af25af24000000000000000000000000af23af22af21af20af1faf1eaf1daf1caf1baf1aaf19af18af17af16af15af14af13af12af11af0faf0eaf0caf0baf0aaf09af06000000000000000000000000af05af04af03af02af01af00aeffaefeaefdaefbaefaaef9aef7aef6aef5aef3aef2aef1aef0aeefaeeeaeecaeeaaee9aee7aee6,
   0xb0a4b0a3b09eb09db09bb097b096b095b094b093b092b090b08eb08bb08ab089b088b087b086b085b083b082b081b07fb07eb07bb07ab079b078b077b076b075b074b073b072b071b070b06fb06eb06db06cb06bb06ab069b068b067b066b065b064b063b062b061b060b05fb05eb05cb05bb05ab058b056b052b051b050b04fb04db04bb049b047b046b043b042b041b040b03fb03eb03db03cb03bb03ab039b038b037b036b035b034b033b032b031b030b02fb02eb02db02cb02bb02ab029b027b026b025b024b023b022b021b020b01fb01eb01bb01ab019b018b017b016b015b013b012b011b00fb00eb00db00bb00ab009b008b007b006b005000000000000000000000000b003b002afffaffeaffdaffcaffbaffaaff9aff7aff6aff5aff3aff2afefafeeafedafecafebafeaafe7afe6afe5afe4afe3afe2000000000000000000000000afe1afe0afdfafdeafddafdbafdaafd9afd8afd7afd6afd5afd3afd2afd1afd0afcfafccafcaafc6afc5afc4afc3afc2afc1afbf,
   0xb19db19bb19ab199b197b196b195b191b190b18fb18eb18cb18ab187b186b185b184b183b181b17fb17eb17db17bb17ab177b176b175b174b173b172b171b170b16fb16eb16db16cb16bb16ab169b168b167b166b165b164b163b162b161b15fb15eb15db15bb15ab159b157b156b153b152b14fb14eb14db14cb14bb14ab149b147b146b145b143b142b13fb13eb13db13cb13bb13ab136b133b132b131b130b12fb12eb12db12bb12ab129b127b126b122b121b120b11fb11eb11ab117b116b115b114b111b10fb10eb10db10ab107b106b105b104b103b102b101b100b0ffb0feb0fdb0fcb0fbb0fab0f9b0f8b0f7b0f6b0f5b0f4b0f3b0f2b0f1000000000000000000000000b0f0b0efb0eeb0edb0ecb0ebb0eab0e9b0e8b0e7b0e6b0e4b0e3b0e2b0e1b0dfb0deb0ddb0dcb0dbb0dab0d9b0d7b0d6b0d5b0d3000000000000000000000000b0d2b0cfb0ceb0cdb0ccb0cbb0cab0c6b0c3b0c2b0c1b0c0b0bfb0beb0bdb0bbb0bab0b9b0b7b0b6b0b2b0b0b0aab0a7b0a6b0a5,
   0xb26eb26db26cb26bb26ab267b266b265b264b263b262b261b25fb25eb25db25bb25ab259b257b256b255b254b253b252b251b250b24fb24eb24db24cb24bb24ab249b248b247b246b245b244b243b242b241b240b23fb23eb23db23bb23ab239b238b237b236b235b233b232b231b230b22fb22eb22db22cb22bb22ab229b228b227b226b225b224b223b222b221b21fb21eb21db21cb21bb21ab218b216b213b212b211b210b20fb20eb20db20ab209b207b206b203b202b201b200b1ffb1feb1fcb1fab1f8b1f7b1f6b1f5b1f4b1f3b1f2b1f1b1efb1eeb1edb1ebb1eab1e7b1e6b1e5b1e4b1e3b1e2b1e1b1e0b1deb1dbb1dab1d9b1d8b1d7b1d6000000000000000000000000b1d5b1d3b1d2b1d1b1cfb1ceb1cdb1cbb1cab1c9b1c8b1c7b1c6b1c5b1c4b1c3b1c2b1c1b1c0b1bfb1beb1bdb1bcb1bbb1bab1b9000000000000000000000000b1b8b1b7b1b6b1b5b1b4b1b3b1b2b1b1b1b0b1afb1aeb1adb1acb1abb1aab1a9b1a7b1a6b1a5b1a4b1a3b1a2b1a1b1a0b19fb19e,
   0xb363b362b361b360b35db35ab359b357b353b352b351b350b34fb34eb34db34cb34bb34ab349b348b347b346b345b344b343b342b341b340b33fb33eb33db33cb33bb33ab339b338b337b336b335b334b333b332b331b330b32fb32eb32db32cb32bb32ab329b328b327b326b325b324b323b322b321b320b31fb31eb31db31bb31ab319b318b317b316b312b30fb30eb30db30cb30bb30ab309b307b306b305b303b302b2feb2fdb2fcb2f6b2f2b2f1b2f0b2eab2e9b2e7b2e3b2e1b2e0b2dfb2deb2dcb2dab2d7b2d6b2d5b2d4b2d3b2d1b2cfb2ceb2cdb2cbb2cab2c7b2c6b2c5b2c4b2c3b2c2b2c1b2c0b2bfb2beb2bdb2bcb2bbb2bab2b9b2b8000000000000000000000000b2b7b2b6b2b5b2b3b2b2b2b1b2afb2aeb2adb2abb2a9b2a8b2a7b2a4b2a2b29fb29eb29db29cb29bb297b296b295b293b292b28f000000000000000000000000b28eb28db28cb28bb28ab288b287b286b283b282b281b280b27fb27eb27db27bb27ab279b278b277b276b273b272b271b270b26f,
   0xb444b443b442b441b440b43fb43eb43db43cb43bb43ab439b438b437b436b435b433b432b431b430b42fb42eb42db42cb42ab427b426b425b424b423b422b421b41fb41eb41db41bb41ab419b417b416b415b414b413b412b411b40fb40eb40db40cb40bb40ab409b408b407b406b405b404b403b402b401b400b3ffb3feb3fdb3fbb3fab3f9b3f8b3f7b3f6b3f5b3f4b3f3b3f2b3f1b3f0b3efb3eeb3edb3ecb3ebb3eab3e9b3e7b3e6b3e5b3e3b3e2b3e1b3dfb3deb3dcb3dab3d8b3d6b3d3b3d2b3d1b3cfb3cdb3cab3c9b3c7b3c6b3c3b3c2b3c1b3c0b3bfb3beb3bdb3bcb3bbb3bab3b9b3b8b3b7b3b6b3b5b3b4b3b3b3b2b3b1b3b0b3afb3ae000000000000000000000000b3adb3abb3aab3a9b3a7b3a6b3a5b3a4b3a3b3a2b39fb39eb39db39cb39bb39ab399b398b397b396b395b393b392b391b38fb38e000000000000000000000000b38db38bb38ab389b388b387b386b382b37fb37eb37db37cb37bb37ab379b377b376b375b373b372b36fb36db36cb36ab368b366,
   0xb51db51ab519b517b516b513b512b511b510b50fb50eb50db50cb50bb50ab509b508b507b506b505b504b503b502b501b500b4ffb4feb4fdb4fcb4fbb4fab4f9b4f7b4f6b4f5b4f4b4f3b4f2b4f0b4eeb4ebb4eab4e9b4e8b4e7b4e5b4e2b4e1b4dfb4deb4dbb4dab4d9b4d8b4d7b4d6b4d4b4d3b4d2b4d1b4cfb4ceb4cdb4ccb4cbb4cab4c9b4c7b4c6b4c5b4c3b4c2b4c1b4bfb4beb4bdb4bcb4bbb4bab4b8b4b6b4b4b4b3b4b2b4b1b4b0b4afb4aeb4adb4abb4aab4a9b4a7b4a6b4a5b4a3b4a2b4a1b4a0b49fb49eb49cb49bb49ab499b498b497b496b495b494b493b492b491b490b48fb48eb48db48cb48bb48ab489b487b486b485b484b483000000000000000000000000b482b481b47fb47eb47db47cb47bb47ab479b478b477b476b475b474b473b472b471b470b46fb46eb46db46bb46ab469b468b467000000000000000000000000b466b464b462b45fb45eb45db45cb45bb45ab459b457b456b455b453b452b44fb44eb44db44cb44bb44ab449b448b447b446b445,
   0xb5ffb5feb5fdb5fcb5fbb5fab5f9b5f8b5f7b5f6b5f5b5f4b5f3b5f2b5f1b5f0b5efb5eeb5edb5ebb5eab5e9b5e8b5e7b5e6b5e5b5e4b5e3b5e2b5e1b5e0b5dfb5deb5ddb5dcb5dbb5dab5d9b5d7b5d6b5d5b5d4b5d3b5d2b5ceb5cbb5cab5c9b5c8b5c7b5c6b5c5b5c3b5c2b5c1b5bfb5beb5bab5b9b5b8b5b7b5b6b5b2b5afb5aeb5adb5acb5a9b5a7b5a6b5a5b5a3b5a2b59fb59eb59db59cb59bb59ab599b598b597b596b595b594b593b592b591b590b58fb58eb58db58cb58bb58ab589b588b587b586b585b584b583b582b581b580b57fb57eb57db57cb57bb57ab579b578b577b576b575b574b573b572b571b570b56fb56eb56db56cb56b000000000000000000000000b56ab569b568b567b566b565b564b563b562b55eb55bb55ab559b558b557b556b555b553b552b551b54fb54eb54ab549b548b547000000000000000000000000b546b542b53fb53eb53db53cb53bb53ab539b537b536b535b533b532b52fb52eb52db52cb52bb526b523b522b521b520b51fb51e,
   0xb6c2b6c1b6c0b6bfb6beb6bdb6bcb6bbb6bab6b9b6b8b6b7b6b6b6b5b6b4b6b3b6b2b6b0b6afb6aeb6adb6aab6a9b6a8b6a7b6a6b6a5b6a3b6a2b6a1b69fb69eb69bb69ab699b698b697b696b695b694b693b692b691b690b68fb68eb68db68cb68bb68ab689b688b687b686b685b684b683b682b681b680b67fb67eb67db67cb67bb67ab679b678b677b676b675b674b673b672b671b670b66fb66eb66db66cb66bb66ab669b667b666b665b663b662b661b660b65fb65eb65db65cb65bb65ab659b658b657b656b655b654b653b652b651b650b64fb64eb64db64cb64bb64ab649b647b646b645b644b643b642b641b640b63fb63eb63db63cb63b000000000000000000000000b63ab639b638b637b636b635b633b632b631b630b62fb62eb62db62bb62ab629b628b627b626b624b623b622b621b620b61fb61e000000000000000000000000b61db61cb61bb61ab619b617b616b615b613b612b60fb60eb60db60cb60bb60ab609b608b607b606b605b604b603b602b601b600,
   0xb79eb79db79bb79ab795b794b793b78eb78bb78ab789b788b787b786b785b783b782b781b77fb77eb77bb77ab779b778b777b776b774b772b76fb76eb76db76cb76bb76ab769b767b766b765b763b762b761b75fb75eb75db75cb75bb75ab759b758b757b756b753b752b751b750b74fb74eb74db74bb74ab749b747b746b745b743b742b741b740b73fb73eb73db73cb73ab737b736b735b734b733b732b731b72eb72db72bb72ab727b726b725b724b723b722b721b720b71fb71eb71db71cb71bb71ab719b718b717b716b715b714b713b712b711b710b70fb70eb70db70cb70bb70ab709b708b707b706b704b703b702b6ffb6feb6fdb6fcb6fb000000000000000000000000b6fab6f9b6f7b6f6b6f5b6f3b6f2b6f1b6efb6eeb6edb6ecb6ebb6eab6e9b6e8b6e7b6e6b6e5b6e4b6e3b6e2b6e1b6e0b6dfb6de000000000000000000000000b6ddb6dcb6dbb6dab6d9b6d8b6d7b6d6b6d5b6d3b6d2b6d1b6d0b6cfb6ceb6cdb6ccb6cbb6cab6c9b6c8b6c7b6c6b6c5b6c4b6c3,
   0xb884b883b882b881b880b87fb87eb87db87bb87ab879b877b876b875b874b873b872b870b86eb86bb86ab869b868b867b866b865b863b862b861b85fb85eb85bb85ab859b858b857b856b855b854b852b850b84fb84eb84db84cb84bb84ab849b848b847b846b845b843b842b841b83fb83eb83db83cb83bb83ab836b833b832b831b830b82fb82eb82db82bb82ab829b827b826b823b822b821b820b81fb81eb81cb81ab817b816b815b814b813b812b811b80fb80eb80db80bb80ab806b805b804b803b802b7feb7fbb7fab7f9b7f8b7f7b7f6b7f5b7f3b7f2b7f1b7efb7eeb7ebb7eab7e9b7e8b7e7b7e6b7e5b7e4b7e3b7e2b7e1b7e0b7dfb7de000000000000000000000000b7ddb7dcb7dbb7dab7d9b7d8b7d7b7d6b7d5b7d4b7d3b7d2b7d1b7d0b7cfb7ceb7cdb7ccb7cbb7cab7c8b7c6b7c5b7c4b7c3b7c2000000000000000000000000b7c1b7c0b7bfb7beb7bdb7bcb7bbb7bab7b9b7b7b7b6b7b3b7b2b7b1b7b0b7afb7aeb7aab7a7b7a6b7a5b7a4b7a3b7a2b7a1b79f,
   0xb957b956b955b954b953b952b950b94eb94db94bb94ab949b948b947b946b945b943b942b941b93fb93eb93bb93ab939b938b937b936b935b934b933b932b931b930b92fb92eb92db92cb92bb92ab929b928b927b926b925b924b923b922b921b91fb91eb91db91cb91bb91ab919b917b916b915b914b913b912b911b910b90fb90eb90db90cb90bb90ab909b908b907b906b905b903b902b901b900b8ffb8feb8fcb8fab8f7b8f6b8f5b8f4b8f3b8f2b8f1b8efb8eeb8edb8ebb8eab8e7b8e6b8e5b8e4b8e3b8e2b8e0b8deb8dcb8dbb8dab8d9b8d8b8d7b8d6b8d5b8d3b8d2b8d1b8cfb8ceb8cdb8cbb8cab8c9b8c8b8c7b8c6b8c4b8c2b8bfb8be000000000000000000000000b8bdb8bcb8bbb8bab8b9b8b7b8b6b8b5b8b3b8b2b8b1b8afb8aeb8adb8acb8abb8aab8a9b8a7b8a6b8a5b8a4b8a3b8a2b8a1b8a0000000000000000000000000b89fb89eb89db89cb89bb89ab899b898b897b896b895b894b893b892b891b890b88fb88eb88cb88bb88ab889b888b887b886b885,
   0xba46ba45ba44ba43ba41ba3fba3eba3dba3bba3aba37ba36ba35ba34ba33ba32ba31ba30ba2fba2eba2dba2cba2bba2aba29ba28ba27ba26ba25ba24ba23ba22ba21ba20ba1fba1eba1dba1cba1bba1aba19ba18ba17ba16ba14ba13ba12ba11ba10ba0fba0eba0dba0cba0bba0aba09ba07ba06ba05ba04ba03ba02b9ffb9feb9fdb9fcb9fbb9f6b9f3b9f2b9f1b9f0b9efb9eeb9edb9ebb9eab9e9b9e7b9e6b9e2b9e0b9dfb9dcb9dab9d7b9d6b9d5b9d4b9d3b9cdb9cbb9cab9c7b9c6b9c5b9c4b9c3b9c2b9c0b9beb9bbb9bab9b9b9b8b9b7b9b6b9b5b9b3b9b2b9b1b9afb9aeb9abb9aab9a9b9a8b9a7b9a6b9a5b9a4b9a3b9a2b9a1b9a0b99f000000000000000000000000b99eb99db99cb99bb99ab999b998b997b996b995b994b993b992b991b990b98fb98cb98bb988b986b983b982b981b980b97fb97e000000000000000000000000b97db97bb97ab979b977b976b973b972b971b970b96fb96eb96cb96ab967b966b965b964b963b962b961b95fb95eb95db95bb95a]
def uhcRows1 : List Nat :=
  [0xbb27bb26bb25bb24bb23bb22bb21bb1fbb1ebb1dbb1bbb1abb19bb17bb16bb15bb14bb13bb12bb10bb0ebb0cbb0bbb0abb09bb08bb07bb06bb05bb03bb02bb01baffbafebafdbafbbafabaf9baf8baf7baf6baf5baf4baf3baf2baf1baf0baefbaeebaedbaecbaebbaeabae9bae8bae7bae6bae5bae4bae3bae2bae1bae0badfbadebaddbadcbadbbadabad7bad6bad5bad4bad3bad2bad1bad0bacfbacebacdbaccbacbbacabac9bac7bac6bac5bac3bac2bac1bac0babfbabebabcbababab7bab6bab5bab4bab3bab1baafbaaebaadbaaabaa7baa6baa5baa4baa3baa2baa1baa0ba9fba9eba9dba9cba9bba9aba99ba98ba97ba96ba95ba94ba93000000000000000000000000ba92ba91ba90ba8fba8eba8dba8bba8aba89ba88ba86ba82ba81ba80ba7fba7eba7dba7cba7bba7aba79ba77ba76ba75ba73ba72000000000000000000000000ba6fba6eba6dba6cba6bba6aba66ba63ba62ba61ba60ba5fba5eba5dba5bba5aba59ba57ba56ba52ba51ba50ba4fba4cba4aba47,
   0xbc01bbfebbfdbbfbbbfabbf7bbf6bbf5bbf4bbf3bbf2bbf1bbf0bbefbbeebbedbbecbbebbbeabbe9bbe8bbe7bbe6bbe5bbe4bbe3bbe2bbe1bbe0bbdfbbdebbddbbdcbbdbbbdabbd9bbd8bbd7bbd6bbd5bbd4bbd2bbd1bbcfbbcebbcdbbccbbcbbbcabbc9bbc7bbc6bbc5bbc3bbc2bbc1bbbfbbbebbbdbbbcbbbbbbbabbb9bbb8bbb6bbb5bbb3bbb2bbb1bbb0bbafbbaebbadbbabbbaabba9bba7bba6bba5bba3bba2bba1bba0bb9fbb9ebb9dbb9cbb9bbb9abb99bb98bb97bb96bb95bb94bb93bb92bb91bb8fbb8ebb8dbb8bbb8abb89bb87bb86bb85bb84bb83bb82bb81bb80bb7fbb7ebb7dbb7cbb7bbb7abb79bb78bb77bb76bb75bb74bb73bb72000000000000000000000000bb71bb70bb6fbb6ebb6dbb6bbb6abb69bb68bb67bb66bb65bb64bb62bb60bb5fbb5ebb5dbb5cbb5bbb5abb59bb57bb56bb55bb53000000000000000000000000bb52bb51bb4ebb4cbb4bbb4abb48bb46bb43bb42bb41bb40bb3fbb3abb39bb37bb33bb32bb31bb30bb2fbb2ebb2dbb2cbb2abb28,
   0xbcfdbcfbbcfabcf9bcf7bcf3bcf2bcf1bcf0bcefbceebcedbcecbcebbceabce9bce8bce7bce6bce5bce4bce3bce2bce1bce0bcdfbcdebcddbcdbbcdabcd9bcd7bcd6bcd4bcd3bcd2bccebcccbccbbccabcc9bcc8bcc7bcc6bcc5bcc3bcc2bcc1bcbfbcbebcbbbcbabcb9bcb8bcb7bcb6bcb2bcafbcaebcadbcacbcabbcaabca9bca6bca5bca3bca2bc9fbc9ebc9dbc9cbc9bbc98bc96bc93bc92bc91bc90bc8fbc8dbc8abc89bc87bc86bc83bc82bc81bc80bc7fbc7ebc7dbc7cbc7bbc7abc79bc78bc77bc76bc75bc74bc73bc72bc71bc70bc6fbc6ebc6dbc6cbc6bbc6abc69bc68bc67bc66bc65bc64bc63bc62bc61bc60bc5fbc5ebc5cbc5bbc5a000000000000000000000000bc59bc58bc57bc56bc55bc54bc53bc52bc51bc4fbc4ebc4bbc4abc48bc47bc46bc42bc3fbc3ebc3dbc3cbc3bbc3abc39bc37bc36000000000000000000000000bc35bc33bc32bc2fbc2ebc2cbc2bbc2abc28bc26bc23bc22bc21bc20bc1abc19bc13bc12bc10bc0ebc0abc07bc06bc05bc04bc03,
   0xbdd1bdd0bdcfbdcebdcdbdccbdcbbdcabdc9bdc8bdc7bdc6bdc5bdc4bdc3bdc2bdc1bdc0bdbfbdbebdbdbdbcbdbbbdbabdb9bdb7bdb6bdb5bdb4bdb3bdb2bdb1bdafbdaebdadbdacbdabbdaabda9bda8bda7bda6bda5bda3bda2bda1bda0bd9fbd9ebd9dbd9bbd98bd97bd96bd94bd92bd8fbd8ebd8dbd8cbd8bbd86bd85bd83bd82bd7fbd7ebd7dbd7cbd7bbd7abd79bd78bd77bd76bd75bd74bd73bd72bd71bd70bd6fbd6ebd6dbd6cbd6bbd6abd69bd67bd66bd65bd63bd62bd61bd60bd5fbd5ebd5dbd5cbd5bbd5abd57bd56bd55bd54bd53bd52bd51bd4fbd4ebd4dbd4bbd4abd47bd46bd45bd44bd43bd42bd41bd3fbd3ebd3dbd3cbd3bbd3a000000000000000000000000bd39bd38bd37bd36bd35bd34bd33bd32bd31bd30bd2fbd2ebd2dbd2bbd2abd29bd28bd27bd26bd25bd23bd22bd21bd20bd1fbd1e000000000000000000000000bd1dbd1cbd1bbd1abd19bd18bd17bd16bd15bd13bd12bd11bd0fbd0ebd0dbd0cbd0bbd0abd08bd06bd03bd02bd01bd00bcffbcfe,
   0xbeb7beb6beb5beb4beb3beb2beb1beb0beafbeaebeadbeacbeabbeaabea9bea7bea6bea5bea4bea3bea2bea1bea0be9fbe9ebe9dbe9cbe9bbe9abe97be96be95be94be93be92be8ebe8bbe8abe89be88be87be86be85be83be82be81be7fbe7ebe7abe79be78be77be76be72be6fbe6ebe6dbe6cbe6bbe69be67be66be65be63be62be5fbe5ebe5dbe5cbe58be56be53be52be51be50be4fbe4dbe4bbe4abe49be47be46be43be42be41be40be3fbe3ebe3dbe3cbe3bbe3abe39be38be37be36be35be34be33be32be31be30be2fbe2ebe2dbe2cbe2bbe2abe29be28be27be26be25be24be23be22be21be20be1ebe1bbe1abe19be18be17be16be15000000000000000000000000be13be12be11be0fbe0ebe0bbe0abe09be08be07be06be04be02be01bdffbdfebdfdbdfcbdfbbdfabdf9bdf7bdf6bdf5bdf3bdf2000000000000000000000000bdf1bdefbdeebdedbdecbdebbdeabde8bde7bde6bde5bde4bde3bde2bde1bde0bddfbddebdddbddbbddabdd9bdd7bdd6bdd3bdd2,
   0xbf82bf81bf80bf7fbf7ebf7dbf7cbf7bbf7abf79bf78bf77bf76bf75bf74bf73bf72bf71bf70bf6fbf6ebf6dbf6cbf6bbf6abf69bf68bf67bf66bf65bf64bf63bf62bf61bf60bf5fbf5ebf5dbf5cbf5bbf5abf59bf58bf57bf56bf54bf53bf52bf4fbf4ebf4dbf4cbf4bbf4abf49bf47bf46bf45bf43bf42bf3fbf3ebf3dbf3cbf3bbf3abf39bf38bf37bf36bf35bf34bf33bf32bf31bf30bf2fbf2ebf2dbf2cbf2bbf2abf29bf28bf27bf26bf25bf24bf23bf22bf21bf20bf1fbf1ebf1abf17bf16bf15bf14bf13bf12bf11bf10bf0fbf0ebf0dbf0cbf0bbf0abf07bf06bf05bf04bf03bf02bf00beffbefebefdbefcbefbbefabef9bef8bef7bef6000000000000000000000000bef5bef4bef3bef2bef1bef0beefbeeebeedbeebbeeabee9bee8bee7bee6bee2bee1bedfbedebeddbedcbedbbedabed9bed6bed5000000000000000000000000bed3bed2becfbecebecdbeccbecbbecabec9bec8bec7bec6bec5bec4bec3bec2bec1bec0bebfbebebebdbebcbebbbebabeb9beb8,
   0xc03fc03ec03dc03bc03ac039c038c037c036c035c034c033c032c031c030c02fc02ec02dc02cc02bc02ac029c028c027c026c025c024c023c022c021c020c01fc01ec01dc01cc01bc01ac019c018c017c016c015c014c013c012c011c010c00fc00ec00dc00cc00bc00ac009c008c007c006c005c004c003c002c001c000bfffbffebffdbffcbffbbffabff9bff8bff7bff6bff5bff4bff3bff2bff1bff0bfefbfeebfedbfecbfebbfeabfe9bfe8bfe7bfe6bfe5bfe4bfe3bfe2bfe0bfdebfddbfdbbfdabfd9bfd8bfd7bfd6bfd5bfd3bfd2bfd1bfcfbfcebfcbbfcabfc9bfc8bfc7bfc6bfc4bfc3bfc2bfc1bfc0bfbfbfbebfbdbfbcbfbbbfbabfb9000000000000000000000000bfb8bfb7bfb6bfb5bfb4bfb3bfb2bfb1bfafbfaebfadbfacbfabbfaabfa9bfa8bfa7bfa6bfa5bfa4bfa3bfa2bfa1bfa0bf9fbf9e000000000000000000000000bf9dbf9cbf9bbf9abf99bf98bf97bf96bf95bf93bf92bf91bf90bf8fbf8ebf8dbf8cbf8bbf8abf89bf88bf87bf86bf85bf84bf83,
   0xc12ec12bc12ac129c128c125c122c121c11bc11ac119c118c117c116c114c113c112c111c10fc10ec10dc10cc10bc10ac109c107c106c105c103c102c101c0ffc0fec0fdc0fcc0fbc0fac0f8c0f6c0f3c0f2c0f1c0f0c0efc0eec0edc0ebc0eac0e9c0e7c0e6c0e3c0e2c0e1c0e0c0dfc0dec0dac0d7c0d6c0d5c0d4c0d3c0d2c0d1c0cfc0cec0cdc0cbc0cac0c7c0c6c0c4c0c3c0c2c0bec0bbc0bac0b9c0b8c0b7c0b2c0b1c0aec0abc0aac0a9c0a8c0a7c0a6c0a4c0a2c09fc09ec09dc09cc09bc09ac099c097c096c095c093c092c08fc08ec08dc08cc08bc08ac089c088c087c086c085c084c083c082c081c080c07fc07ec07dc07cc07bc07a000000000000000000000000c079c078c077c076c075c074c073c072c071c070c06fc06ec06dc06cc06bc06ac067c066c065c064c063c062c061c05fc05ec05d000000000000000000000000c05bc05ac059c057c056c055c054c053c052c050c04fc04ec04dc04cc04bc04ac049c048c047c046c045c044c043c042c041c040,
   0xc223c222c221c21ec21dc21bc21ac217c216c215c214c213c212c210c20ec20bc20ac209c208c207c206c205c203c202c201c1ffc1fec1fbc1fac1f9c1f8c1f7c1f6c1f5c1f4c1f2c1efc1eec1edc1ecc1ebc1eac1e9c1e7c1e6c1e5c1e3c1e2c1e1c1dfc1dec1ddc1dcc1dbc1dac1d9c1d6c1d5c1d3c1d2c1d1c1d0c1cfc1cec1cdc1cbc1cac1c9c1c7c1c6c1c5c1c3c1c2c1c1c1c0c1bfc1bec1bcc1bbc1bac1b9c1b8c1b7c1b6c1b5c1b4c1b3c1b2c1b1c1afc1aec1adc1abc1aac1a7c1a6c1a4c1a3c1a2c1a0c19ec19bc19ac199c198c197c195c193c192c191c18fc18bc18ac189c188c187c186c184c183c182c181c180c17fc17ec17dc17c000000000000000000000000c17bc17ac179c177c176c175c173c172c171c16fc16ec16dc16cc16bc16ac166c163c162c161c160c15fc15ec15dc15bc15ac159000000000000000000000000c157c156c153c152c151c150c14fc14ec14ac147c146c145c144c143c142c141c13fc13ec13dc13bc13ac137c135c134c133c132,
   0xc30fc30ec30bc30ac307c306c305c304c303c302c301c2ffc2fec2fdc2fac2f7c2f5c2f4c2f3c2f2c2f0c2eec2eac2e9c2e8c2e7c2e6c2e5c2e2c2e1c2dfc2dec2dbc2dac2d9c2d8c2d7c2d6c2d5c2d4c2d3c2d2c2d1c2d0c2cfc2cec2cdc2ccc2cbc2cac2c9c2c8c2c7c2c6c2c5c2c4c2c3c2c2c2c1c2c0c2bfc2bec2bdc2bcc2bbc2bac2b8c2b6c2b3c2b2c2b1c2b0c2afc2aec2abc2aac2a9c2a7c2a6c2a3c2a2c2a1c2a0c29fc29ec29cc29ac299c297c296c295c294c293c292c291c28fc28ec28dc28cc28bc28ac287c286c285c284c283c282c280c27ec27bc27ac279c278c277c276c275c273c272c271c26fc26ec26bc26ac269c268c267000000000000000000000000c266c264c263c262c261c25fc25ec25dc25cc25bc25ac259c257c256c255c253c252c24fc24ec24dc24cc24bc24ac249c247c246000000000000000000000000c245c244c243c242c241c240c23fc23ec23dc23cc23bc23ac239c238c237c236c235c233c230c22ec22cc22ac227c226c225c224,
   0xc3dac3d7c3d6c3d5c3d4c3d3c3d2c3d1c3d0c3cfc3cec3cdc3ccc3cbc3cac3c9c3c8c3c7c3c6c3c5c3c4c3c3c3c2c3c1c3bfc3bec3bdc3bcc3bbc3bac3b9c3b8c3b7c3b6c3b5c3b4c3b3c3b2c3b1c3b0c3afc3aec3adc3acc3abc3aac3a9c3a8c3a7c3a6c3a5c3a4c3a3c3a2c3a1c3a0c39fc39ec39dc39cc39bc39ac399c398c397c396c395c394c393c392c391c390c38fc38ec38dc38bc38ac389c387c386c385c383c382c381c380c37fc37ec37bc37ac377c376c375c374c373c371c36fc36ec36dc36bc36ac367c366c365c364c363c362c361c360c35fc35ec35dc35cc35bc35ac359c358c357c356c355c354c353c352c351c350c34fc34e000000000000000000000000c34dc34cc34bc34ac349c348c347c346c344c343c342c341c340c33fc33ec33dc33cc33bc33ac339c338c337c336c335c334c333000000000000000000000000c332c331c330c32fc32ec32dc32cc32bc32ac327c326c323c322c321c320c31fc31ec31dc31bc31ac319c317c316c312c311c310,
   0xc4a9c4a8c4a7c4a6c4a5c4a4c4a3c4a2c4a1c4a0c49fc49ec49dc49bc49ac499c498c497c496c495c493c492c491c490c48fc48ec48dc48cc48bc48ac489c488c487c486c485c484c483c482c481c47fc47ec47dc47cc47bc47ac478c477c476c473c472c471c470c46fc46ec46dc46bc46ac469c467c466c463c462c461c460c45fc45ec45dc45cc45bc45ac459c458c457c456c455c454c453c452c451c450c44fc44ec44dc44cc44bc44ac449c447c446c445c444c443c442c441c440c43fc43ec43bc43ac439c438c437c436c435c433c432c431c42fc42ec42dc42bc42ac429c428c427c426c425c423c422c421c420c41fc41ec41dc41cc41b000000000000000000000000c41ac419c418c417c416c415c414c413c412c411c40fc40ec40dc40cc40bc40ac409c407c406c405c404c403c402c401c400c3ff000000000000000000000000c3fec3fdc3fcc3fbc3fac3f9c3f7c3f6c3f3c3f2c3f1c3f0c3efc3eec3ecc3ebc3eac3e7c3e6c3e5c3e4c3e3c3e1c3dec3ddc3db,
   0xc594c593c592c590c58ec58bc58ac589c588c586c585c583c582c581c57fc57ec57bc57ac579c578c577c576c572c56fc56ec56dc56cc56bc56ac569c567c566c565c563c562c55fc55cc55bc55ac556c552c551c550c54fc54bc547c546c543c542c541c540c53fc53ec53cc53ac537c536c535c534c533c532c531c52fc52ec52dc52bc52ac527c526c525c524c523c522c521c520c51fc51ec51dc51bc51ac519c518c517c516c515c513c512c511c50fc50ec50dc50bc50ac509c508c507c506c505c504c503c502c4fec4fdc4fcc4fbc4f9c4f7c4f6c4f5c4f3c4f2c4efc4eec4edc4ecc4ebc4eac4e8c4e7c4e6c4e5c4e4c4e3c4e2c4e1c4e0000000000000000000000000c4dfc4dec4ddc4dcc4dbc4dac4d9c4d8c4d7c4d6c4d5c4d4c4d3c4d2c4d1c4d0c4cfc4cec4cdc4ccc4cbc4cac4c9c4c8c4c7c4c6000000000000000000000000c4c5c4c4c4c3c4c2c4c1c4c0c4bfc4bec4bdc4bbc4bac4b9c4b7c4b6c4b5c4b4c4b3c4b2c4b1c4b0c4afc4aec4adc4acc4abc4aa,
   0xc6a6c6a3c6a2c6a1c6a0c69fc69ec69dc69bc69ac699c697c696c693c692c691c690c68fc68ec68cc68ac687c686c685c684c683c682c681c67fc67ec67dc67bc67ac677c676c675c674c673c672c670c66ec66dc66bc66ac669c668c667c666c665c664c663c662c661c65fc65ec65bc65ac659c658c657c656c652c64fc64ec64dc64cc64bc64ac649c647c646c645c643c642c63fc63ec63dc63cc63ac638c636c632c631c62fc62bc62ac629c627c626c623c622c621c620c61fc61ec61dc61ac617c616c615c614c613c612c611c60fc60ec60dc60bc60ac609c604c603c602c5fbc5fac5f9c5f8c5f5c5f3c5f2c5f1c5efc5ebc5eac5e9c5e8000000000000000000000000c5e7c5e6c5e4c5e2c5dfc5dec5ddc5dcc5dbc5dac5d9c5d7c5d6c5d5c5d3c5d2c5cfc5cdc5cbc5c3c5c2c5c1c5c0c5bfc5bac5b7000000000000000000000000c5b6c5b3c5b2c5b1c5b0c5afc5aec5adc5acc5abc5aac5a8c5a7c5a6c5a5c5a4c5a3c5a2c5a1c59fc59ec59dc59bc59ac599c596,
   0xc7b7c7b6c7b5c7b3c7b2c7b1c7afc7aec7abc7aac7a9c7a8c7a7c7a2c79fc79ec79dc79cc79bc799c795c793c792c78fc78dc78cc78bc786c782c781c780c77fc77bc77ac779c777c776c773c772c771c770c76fc76ec76dc76cc76ac769c767c766c765c764c763c762c761c75fc75ec75dc75bc75ac759c750c74ec74bc749c748c747c746c745c743c742c741c73fc73ec73bc73ac739c738c736c734c732c72fc72ec72dc72cc72bc72ac729c727c726c725c723c722c71fc71ec71dc71cc71bc71ac718c716c713c712c711c710c70fc70ec70dc70bc70ac709c707c706c703c702c701c700c6ffc6fec6fcc6fbc6fac6f7c6f6c6f5c6f4c6f3000000000000000000000000c6f2c6f1c6efc6eec6edc6ebc6eac6e7c6e6c6e5c6e4c6e3c6e2c6dfc6dec6dbc6dac6d9c6d8c6d7c6d6c6d5c6d3c6d2c6d1c6cf000000000000000000000000c6cec6cbc6cac6c9c6c8c6c7c6c6c6c4c6c2c6bfc6bec6bdc6bcc6bbc6b7c6b6c6b5c6b3c6b2c6afc6aec6adc6acc6abc6aac6a8,
   0xc8a4c8a3c8a2c8a0c89ec89cc89bc89ac899c898c897c896c895c893c892c891c890c88fc88ec88ac889c888c884c882c87fc87ec87dc87cc87bc879c877c876c875c873c872c86fc86ec86dc86cc86bc86ac869c868c867c866c865c864c863c862c861c860c85fc85ec85dc85cc85bc85ac859c858c857c856c855c853c852c851c850c84fc84ec84bc84ac847c846c845c844c843c842c841c83fc83ec83dc83bc83ac839c837c836c835c834c833c832c830c82ec82bc82ac829c828c827c826c825c823c822c821c81fc81ec81bc81ac819c818c817c814c812c80fc80ec80dc80cc80bc809c807c806c805c803c802c7ffc7fec7fdc7fcc7fb000000000000000000000000c7fac7f9c7f8c7f7c7f6c7f5c7f4c7f3c7f2c7f1c7f0c7efc7eec7edc7ebc7eac7e9c7e7c7e6c7e5c7e3c7e2c7e1c7e0c7dfc7de000000000000000000000000c7dcc7dbc7dac7d9c7d7c7d6c7d5c7d4c7d3c7d2c7d1c7cfc7cdc7cbc7cac7c7c7c6c7c5c7c4c7c3c7c2c7bec7bbc7bac7b9c7b8]
def uhcRows2 : List Nat :=
  [0xffe2222822272229222a2283228222872286220b2208222c222b2235221d223d221a226b226a30132194219321912190219225bc25bd25b225b325a025a125c625c725ce25cf25cb26052606203b00a72252226122072202231222a5222026402642ffe5ffe1ffe0212b21032033203200b02234221e22652264226000f700d700b130113010300f300e300d300c300b300a3009300830153014201d201c20192018223cff3c2225201500ad300300a82026202500b7300230013000c90ec90bc90ac909c908c907c903c902c901c8ffc8fec8fbc8fac8f9c8f8c8f7c8f6c8f4c8f3c8f2c8f1c8f0c8efc8eec8edc8ecc8ebc8eac8e9c8e8c8e7c8e6000000000000000000000000c8e5c8e3c8e2c8dfc8dec8ddc8dcc8dbc8dac8d8c8d6c8d3c8d2c8d1c8d0c8cfc8cec8cdc8cbc8cac8c9c8c7c8c6c8c5c8c3c8c2000000000000000000000000c8c1c8c0c8bfc8bec8bbc8bac8b9c8b8c8b7c8b6c8b5c8b4c8b3c8b2c8b1c8b0c8afc8aec8adc8acc8abc8aac8a9c8a7c8a6c8a5,
   0xae20ac212133d833c2212233c72116321c327f266c266a2669266d219821962199219721952021202000b6261e261c260e260f266825a925a625a725a825a525a4259225d125d025a325c8229926632667266526612660266425b625b725c025c12030210900a4220f2211222e02d000bf00a102db00b802d902da02dd02d802c7ff5e00b42203220021d421d2c96fc96ec96dc96bc96ac969c968c967c966c965c964c962c95fc95ec95dc95cc95bc95ac959c957c956c955c953c952c94fc94ec94dc94cc94bc94ac949c948000000000000000000000000c947c946c945c944c943c942c941c940c93fc93ec93dc93cc93bc93ac939c938c937c936c935c933c932c931c930c92fc92ec92d000000000000000000000000c92bc92ac929c928c927c926c925c924c923c922c921c920c91fc91ec91dc91cc91bc91ac919c917c916c915c914c913c912c910,
   0xffe3ff5dff5cff5bff5aff59ff58ff57ff56ff55ff54ff53ff52ff51ff50ff4fff4eff4dff4cff4bff4aff49ff48ff47ff46ff45ff44ff43ff42ff41ff40ff3fff3eff3dffe6ff3bff3aff39ff38ff37ff36ff35ff34ff33ff32ff31ff30ff2fff2eff2dff2cff2bff2aff29ff28ff27ff26ff25ff24ff23ff22ff21ff20ff1fff1eff1dff1cff1bff1aff19ff18ff17ff16ff15ff14ff13ff12ff11ff10ff0fff0eff0dff0cff0bff0aff09ff08ff07ff06ff05ff04ff03ff02ff01c9dbc9d8c9d7c9d4c9d2c9cfc9cec9cdc9ccc9cbc9c9c9c6c9c5c9c3c9c2c9bfc9bec9bdc9bcc9bbc9bac9b9c9b8c9b7c9b6c9b5c9b4c9b3c9b2c9b1c9b0c9af000000000000000000000000c9aec9adc9acc9abc9aac9a9c9a8c9a7c9a6c9a5c9a4c9a3c9a2c9a1c9a0c99fc99ec99cc99ac997c996c995c994c993c992c991000000000000000000000000c98fc98ec98dc98bc98ac987c986c985c984c983c982c981c980c97fc97ec97dc97bc97ac979c978c977c976c975c973c972c971,
   0x318e318d318c318b318a3189318831873186318531843183318231813180317f317e317d317c317b317a3179317831773176317531743173317231713170316f316e316d316c316b316a3169316831673166316531643163316231613160315f315e315d315c315b315a3159315831573156315531543153315231513150314f314e314d314c314b314a3149314831473146314531443143314231413140313f313e313d313c313b313a313931383137313631353134313331323131ca46ca45ca44ca43ca42ca41ca40ca3fca3eca3dca3cca3bca3aca39ca38ca37ca36ca35ca34ca33ca32ca31ca30ca2fca2eca2dca2cca2bca2aca28ca27ca26000000000000000000000000ca25ca24ca23ca22ca21ca20ca1fca1eca1dca1cca1bca1aca19ca17ca16ca15ca13ca12ca11ca10ca0fca0eca0aca07ca06ca05000000000000000000000000ca04ca03ca02ca01c9ffc9fec9fdc9fbc9fac9f7c9f6c9f5c9f4c9f3c9f2c9eec9ebc9eac9e9c9e8c9e6c9e5c9e3c9e1c9dfc9de,
   0x3c903c803c703c603c503c403c303c103c003bf03be03bd03bc03bb03ba03b903b803b703b603b503b403b303b203b10000000000000000000000000000000003a903a803a703a603a503a403a303a103a0039f039e039d039c039b039a03990398039703960395039403930392039100000000000000000000000000002169216821672166216521642163216221612160000000000000000000002179217821772176217521742173217221712170caa7caa6caa5caa4caa3caa2caa1caa0ca9fca9eca9dca9cca9bca9aca99ca97ca96ca95ca94ca93ca92ca91ca90ca8fca8eca8dca8cca8bca8aca89ca88ca87000000000000000000000000ca86ca85ca83ca82ca81ca80ca7fca7eca7cca7bca7aca79ca78ca77ca76ca75ca74ca73ca72ca71ca70ca6fca6eca6dca6cca6b000000000000000000000000ca6aca69ca67ca66ca65ca64ca63ca62ca5eca5bca5aca59ca58ca57ca56ca55ca53ca52ca51ca4fca4eca4bca4aca49ca48ca47,
   0x254a254925482547254625452544254325412540253e253d253a25392536253525322531252e252d252a25292527252625222521251f251e250d250e251525162519251a251125122542253825252530251d253f25372528252f2520254b253b252b253325232517251b2513250f25032501253c25342524252c251c251425182510250c25022500cb0acb09cb07cb06cb05cb04cb03cb02cb01cb00caffcafecafdcafccafbcafacaf9caf8caf7caf6caf5caf3caf2caf1caf0caefcaeecaedcaebcaeacae9cae8000000000000000000000000cae7cae6cae5cae4cae3cae2cae1cadfcadecaddcadccadbcadacad7cad6cad5cad4cad2cad0cacecacbcacacac9cac8cac7cac6000000000000000000000000cac5cac3cac2cac1cabfcabecabbcabacab9cab8cab7cab6cab5cab4cab3cab2cab1cab0caafcaaecaadcaaccaabcaaacaa9caa8,
   0x33c633dc33c933c333d333d033dd33ac33ab33aa33a933db33af33ae33ad33c533d6338c338b338a33c133c021263394339333923391339033bf33be33bd33bc33bb33ba3384338333823381338033b933b833b733b633b533b433b333b233b133b033a833a733c83389338833cf338f338e338d33ca33a233a133a0339f339e339d339c339b339a339933a633a533a433a333c433982113339733963395cb6ccb6bcb6acb69cb68cb67cb66cb65cb63cb62cb61cb60cb5fcb5ecb5ccb5bcb5acb57cb56cb55cb54cb53cb52cb51cb4fcb4ecb4dcb4bcb4acb47cb46cb45000000000000000000000000cb44cb43cb42cb40cb3fcb3ecb3dcb3ccb3bcb3acb39cb38cb37cb36cb35cb34cb33cb32cb31cb30cb2fcb2ecb2dcb2ccb2bcb2a000000000000000000000000cb29cb28cb27cb26cb25cb24cb23cb22cb1fcb1ecb1dcb1ccb1bcb1acb19cb17cb16cb15cb13cb12cb11cb0fcb0ecb0dcb0ccb0b,
   0x215e215d215c215b00be00bc2154215300bd246e246d246c246b246a246924682467246624652464246324622461246024e924e824e724e624e524e424e324e224e124e024df24de24dd24dc24db24da24d924d824d724d624d524d424d324d224d124d0327b327a3279327832773276327532743273327232713270326f326e326d326c326b326a32693268326732663265326432633262326132600000014a016600de00ba015200d80141013f000001320000012600aa00d000c6cbc4cbc3cbc2cbc1cbc0cbbfcbbecbbdcbbccbbbcbbacbb9cbb7cbb6cbb5cbb4cbb3cbb2cbb1cbb0cbafcbaecbadcbaccbabcbaacba9cba8cba7cba6cba5cba4000000000000000000000000cba3cba2cba1cba0cb9fcb9ecb9dcb9bcb9acb99cb98cb97cb96cb95cb94cb93cb92cb91cb90cb8fcb8ecb8dcb8ccb8bcb8acb89000000000000000000000000cb88cb87cb86cb85cb84cb83cb82cb81cb80cb7fcb7ecb7dcb7ccb7bcb7acb77cb76cb75cb74cb73cb72cb71cb70cb6fcb6ecb6d,
   0x2084208320822081207f207400b300b200b9248224812480247f247e247d247c247b247a24792478247724762475247424b524b424b324b224b124b024af24ae24ad24ac24ab24aa24a924a824a724a624a524a424a324a224a124a0249f249e249d249c321b321a3219321832173216321532143213321232113210320f320e320d320c320b320a32093208320732063205320432033202320132000149014b016700fe00df015300f801420140013801330131012700f0011100e6cc24cc23cc20cc1fcc1ecc1bcc1acc19cc18cc17cc16cc15cc13cc12cc11cc0fcc0ecc0bcc0acc09cc08cc07cc06cc05cc04cc03cc02cc01cc00cbffcbfecbfd000000000000000000000000cbfccbfbcbfacbf9cbf8cbf7cbf6cbf5cbf4cbf3cbf2cbf1cbf0cbefcbeecbedcbeccbebcbeacbe8cbe6cbe5cbe3cbe2cbe1cbe0000000000000000000000000cbdfcbdecbddcbdccbdbcbdacbd9cbd8cbd7cbd6cbd5cbd3cbd2cbd1cbd0cbcfcbcecbcdcbcccbcbcbcacbc9cbc8cbc7cbc6cbc5,
   0x3093309230913090308f308e308d308c308b308a3089308830873086308530843083308230813080307f307e307d307c307b307a3079307830773076307530743073307230713070306f306e306d306c306b306a3069306830673066306530643063306230613060305f305e305d305c305b305a3059305830573056305530543053305230513050304f304e304d304c304b304a304930483047304630453044304330423041cc93cc92cc91cc90cc8fcc8ecc8dcc8ccc8bcc8acc89cc88cc87cc86cc85cc84cc83cc82cc81cc80cc7fcc7ecc7dcc7ccc7bcc7acc79cc78cc77cc76cc74cc73000000000000000000000000cc72cc71cc6fcc6ecc6dcc6ccc6bcc6acc69cc67cc65cc63cc62cc61cc5fcc5ecc5dcc5ccc5bcc5acc56cc53cc52cc51cc50cc4f000000000000000000000000cc4ecc4dcc4bcc4acc49cc47cc46cc43cc42cc41cc40cc3fcc3acc37cc36cc35cc34cc33cc32cc31cc2fcc2dcc2bcc2acc26cc25,
   0x30f630f530f430f330f230f130f030ef30ee30ed30ec30eb30ea30e930e830e730e630e530e430e330e230e130e030df30de30dd30dc30db30da30d930d830d730d630d530d430d330d230d130d030cf30ce30cd30cc30cb30ca30c930c830c730c630c530c430c330c230c130c030bf30be30bd30bc30bb30ba30b930b830b730b630b530b430b330b230b130b030af30ae30ad30ac30ab30aa30a930a830a730a630a530a430a330a230a1ccfdccfcccfbccfaccf9ccf8ccf7ccf6ccf5ccf4ccf3ccf2ccf1ccefcceeccedccebcceacce9cce8cce7cce6cce5cce3cce2cce1cce0ccdfccdeccddccdcccdb000000000000000000000000ccdaccd9ccd8ccd7ccd6ccd5ccd3ccd2ccd1cccfcccecccdcccccccbcccaccc8ccc6ccc3ccc2ccc1ccc0ccbfccbeccbdccbbccba000000000000000000000000ccb9ccb7ccb6ccb3ccb2ccb1ccb0ccafccaeccaacca7cca6cca5cca4cca3cca2cca1cc9fcc9ecc9dcc9bcc9acc97cc96cc95cc94,
   0x44f044e044d044c044b044a0449044804470446044504440443044204410440043f043e043d043c043b043a04390438043704360451043504340433043204310430000000000000000000000000000000000000000000000000000000000000042f042e042d042c042b042a0429042804270426042504240423042204210420041f041e041d041c041b041a04190418041704160401041504140413041204110410cd5fcd5ecd5dcd5bcd5acd59cd58cd57cd56cd55cd54cd53cd52cd51cd50cd4fcd4ecd4dcd4ccd4bcd4acd49cd48cd47cd46cd45cd44cd43cd42cd41cd40cd3f000000000000000000000000cd3ecd3dcd3ccd3bcd3acd38cd37cd36cd35cd34cd33cd32cd31cd30cd2fcd2ecd2dcd2bcd2acd29cd27cd26cd25cd23cd22cd21000000000000000000000000cd20cd1fcd1ecd1ccd1acd17cd16cd15cd14cd13cd12cd11cd0fcd0ecd0dcd0bcd0acd07cd06cd05cd04cd03cd02cd00ccffccfe,
   0xcdc5cdc3cdc2cdc1cdc0cdbfcdbecdbdcdbccdbbcdbacdb9cdb8cdb7cdb6cdb5cdb4cdb3cdb2cdb1cdafcdaecdadcdaccdabcdaacda8cda6cda3cda2cda1cda0000000000000000000000000cd9fcd9ecd9dcd9bcd9acd99cd97cd96cd93cd92cd91cd90cd8fcd8ecd8dcd8ccd8bcd8acd89cd87cd86cd85cd84cd83cd82cd81000000000000000000000000cd80cd7fcd7ecd7dcd7ccd7bcd7acd79cd77cd76cd75cd74cd73cd72cd70cd6ecd6bcd6acd69cd68cd67cd66cd65cd63cd62cd61,
   0xce2bce2ace29ce27ce26ce25ce23ce22ce1fce1ece1dce1cce1bce1ace18ce17ce16ce15ce13ce12ce11ce10ce0fce0ece0dce0bce0ace09ce07ce06ce05ce03000000000000000000000000ce02ce01ce00cdffcdfecdfccdfacdf7cdf6cdf5cdf4cdf3cdf2cdf1cdefcdeecdedcdebcdeacde9cde7cde6cde5cde4cde3cde2000000000000000000000000cde1cde0cddfcddecdddcddccddbcddacdd9cdd8cdd7cdd6cdd5cdd4cdd3cdd2cdd1cdcfcdcecdcdcdcbcdcacdc9cdc8cdc7cdc6,
   0xce99ce97ce96ce95ce93ce92ce8fce8ece8dce8cce8bce8ace88ce86ce83ce82ce81ce80ce7fce7ece7dce7bce7ace79ce77ce76ce73ce72ce71ce70ce6fce6e000000000000000000000000ce6cce6ace67ce66ce65ce64ce63ce62ce5ece5dce5bce5ace57ce56ce55ce54ce53ce52ce51ce50ce4fce4ece4dce4cce4bce4a000000000000000000000000ce49ce48ce47ce46ce45ce44ce43ce42ce41ce40ce3fce3ece3dce3cce3bce3ace39ce38ce37ce36ce34ce32ce2fce2ece2dce2c,
   0xad06ad04ad00acfdacfcacf6acf5acf3acf1acf0acefacecaceaace8ace7ace4ace1ace0acd7acd5acccacc8acc4acc1acbdacbcacbbacb9acb8acb0acafacacacaaaca9aca8aca1aca0ac9fac9dac9cac94ac90ac8cac8bac8aac89ac86ac85ac84ac83ac81ac80ac7aac78ac77ac74ac71ac70ac5cac58ac54ac4dac4bac40ac3cac39ac38ac31ac30ac2fac2dac2cac24ac20ac1dac1cac1bac1aac19ac17ac16ac15ac14ac13ac12ac11ac10ac0aac09ac08ac07ac04ac01ac00ceffcefecefdcefccefbcefacef6cef3cef2cef1cef0ceefceeeceedceeacee9cee7cee6cee3cee2cee1cee0cedfcedeceddcedccedbcedaced9ced8ced7ced6000000000000000000000000ced5ced4ced3ced2ced1ced0cecfcecececdcecccecbcecacec9cec8cec7cec6cec5cec4cec3cec2cec0cebfcebecebdcebccebb000000000000000000000000cebaceb9ceb8ceb7ceb6ceb5ceb4ceb3ceb2ceb1ceb0ceafceaeceabceaacea9cea8cea7cea6cea2ce9fce9ece9dce9cce9bce9a]
def uhcRows3 : List Nat :=
  [0xae78ae70ae6cae69ae68ae65ae61ae60ae5fae5dae5cae56ae54ae50ae4eae4dae4cae4aae46ae45ae43ae41ae40ae3aae38ae37ae34ae31ae30ae14ae0dae0bae09ae08ae01ae00adffadfcadf9adf8ade4ade0addcadd3add1add0adc8adc4adc1adc0adb7ada4ad9dad9cad90ad8cad89ad88ad82ad81ad7fad7dad7cad7bad76ad75ad74ad73ad70ad6dad6cad63ad61ad58ad54ad50ad49ad47ad45ad44ad3cad38ad35ad34ad2dad2cad29ad20ad1cad18ad11ad0fad0dad0ccf6ccf6bcf6acf68cf66cf63cf62cf61cf60cf5fcf5ecf5dcf5bcf5acf59cf57cf56cf53cf52cf51cf50cf4fcf4ecf4dcf4ccf4bcf4acf49cf48cf47cf46cf45000000000000000000000000cf44cf43cf42cf41cf40cf3fcf3ecf3dcf3ccf3bcf3acf39cf37cf36cf35cf34cf33cf32cf2ecf2bcf2acf29cf28cf27cf26cf25000000000000000000000000cf23cf22cf21cf1fcf1ecf1dcf1bcf1acf19cf18cf17cf16cf14cf12cf0fcf0ecf0dcf0ccf0bcf0acf09cf07cf06cf05cf03cf02,
   0xb059b057b055b054b053b04eb04cb04ab048b045b044b028b01db01cb014b010b00cb004b001b000aff8aff4aff1aff0afe9afe8afdcafd4afceafcdafcbafc9afc8afc7afc0afbcafb9afb8af9caf95af91af90af88af84af80af79af65af64af5daf5caf50af49af48af43af42af41af3faf3daf3caf34af32af30af2daf2caf10af0daf08af07aefcaef8aef4aeedaeebaee8aedcaed9aed8aed1aed0aecfaecdaeccaec4aec0aebeaebdaebcae8cae85ae84ae7dae7cae7bae79cfcbcfcacfc9cfc8cfc7cfc6cfc5cfc3cfc2cfc1cfc0cfbfcfbecfbdcfbccfbbcfbacfb9cfb8cfb7cfb6cfb5cfb4cfb3cfb2cfb1cfafcfaecfadcfaccfabcfaa000000000000000000000000cfa9cfa7cfa6cfa5cfa4cfa3cfa2cfa0cf9fcf9ecf9dcf9ccf9bcf9acf99cf98cf97cf96cf95cf94cf93cf92cf91cf90cf8fcf8e000000000000000000000000cf8dcf8bcf8acf89cf88cf87cf86cf84cf83cf82cf81cf7fcf7ecf7dcf7ccf7bcf7acf79cf77cf76cf75cf73cf72cf6fcf6ecf6d,
   0xb1ddb1dcb1d4b1d0b1ccb1a8b19cb198b194b193b192b18db18bb189b188b182b180b17cb179b178b160b15cb158b155b154b151b150b148b144b141b140b139b138b137b135b134b12cb128b125b124b123b11db11cb11bb119b118b113b112b110b10cb10bb109b108b0e5b0e0b0d8b0d4b0d1b0d0b0c9b0c8b0c7b0c5b0c4b0bcb0b8b0b5b0b4b0b3b0b1b0afb0aeb0adb0acb0abb0a9b0a8b0a2b0a1b0a0b09fb09cb09ab099b098b091b08fb08db08cb084b080b07db07cb05dd02cd02bd02ad029d028d027d026d025d024d023d022d021d020d01fd01ed01dd01cd01bd01ad019d017d016d015d014d013d012d010d00fd00ed00dd00cd00b000000000000000000000000d00ad009d008d007d006d005d003d002d001cfffcffecffdcffbcffacff9cff8cff7cff6cff4cff2cfefcfeecfedcfeccfebcfea000000000000000000000000cfe9cfe7cfe6cfe5cfe3cfe2cfdfcfdecfddcfdccfdbcfdacfd9cfd8cfd7cfd6cfd5cfd4cfd3cfd2cfd1cfd0cfcfcfcecfcdcfcc,
   0xb365b364b35fb35eb35cb35bb358b356b355b354b31cb315b314b313b311b310b308b304b301b300b2ffb2fbb2fab2f9b2f8b2f7b2f5b2f4b2f3b2efb2eeb2edb2ecb2ebb2e8b2e6b2e5b2e4b2e2b2ddb2dbb2d9b2d8b2d2b2d0b2ccb2c9b2c8b2b4b2b0b2acb2aab2a6b2a5b2a3b2a1b2a0b29ab299b298b294b291b290b289b285b284b27cb275b274b269b268b260b25cb258b23cb234b220b219b217b215b214b20cb20bb208b205b204b1fdb1fbb1f9b1f0b1ecb1e9b1e8b1dfd094d093d092d091d090d08fd08ed08dd08cd08bd08ad089d088d087d086d085d084d083d082d080d07fd07ed07bd07ad079d078d077d076d075d073d072d071000000000000000000000000d06fd06ed06bd06ad069d068d067d066d065d064d063d062d061d05fd05ed05dd05cd05bd05ad059d057d056d055d053d052d051000000000000000000000000d04fd04ed04dd04cd04bd04ad048d046d043d042d041d040d03fd03ed03dd03bd03ad039d037d036d033d032d031d030d02fd02e,
   0xb538b534b531b530b52ab529b528b527b525b524b51cb51bb518b515b514b4f8b4f1b4efb4edb4ecb4e6b4e4b4e3b4e0b4ddb4dcb4d5b4d0b4c8b4c4b4c0b4b9b4b7b4b5b4acb4a8b4a4b49db488b480b46cb465b463b461b460b458b454b451b450b434b42bb429b428b420b41cb418b410b3fcb3e8b3e4b3e0b3ddb3dbb3d9b3d7b3d5b3d4b3d0b3ceb3ccb3cbb3c8b3c5b3c4b3acb3a8b3a1b3a0b394b390b38cb385b384b383b381b380b378b374b371b370b36eb36bb369b367d104d103d102d101d100d0ffd0fed0fdd0fcd0fbd0fad0f9d0f7d0f6d0f5d0f4d0f3d0f2d0eed0ebd0ead0e9d0e8d0e7d0e6d0e5d0e3d0e2d0e1d0dfd0ded0db000000000000000000000000d0dad0d9d0d8d0d7d0d6d0d2d0cfd0ced0cdd0ccd0cbd0cad0c7d0c6d0c5d0c3d0c2d0bfd0bed0bdd0bcd0bbd0bad0b8d0b6d0b3000000000000000000000000d0b2d0b1d0b0d0afd0aed0add0abd0aad0a9d0a7d0a6d0a3d0a2d0a1d0a0d09fd09ed09dd09cd09bd09ad099d098d097d096d095,
   0xb797b796b792b791b790b78fb78db78cb784b780b77db77cb775b773b771b770b768b764b760b755b754b74cb748b744b73bb739b738b730b72fb72cb729b728b705b701b700b6f8b6f4b6f0b6d4b6b1b6acb6abb6a4b6a0b69db69cb668b664b648b634b62cb625b618b614b611b610b5ecb5d8b5d1b5d0b5cfb5cdb5ccb5c4b5c0b5bdb5bcb5bbb5b5b5b4b5b3b5b1b5b0b5abb5aab5a8b5a4b5a1b5a0b561b560b55fb55db55cb554b550b54db54cb54bb545b544b543b541b540d16dd16bd16ad169d167d166d165d164d163d162d160d15ed15bd15ad159d158d157d156d155d153d152d151d14fd14ed14bd14ad149d148d147d146d142d13f000000000000000000000000d13ed13dd13cd13bd139d137d136d135d133d132d12fd12ed12dd12cd12bd12ad129d128d127d126d125d124d123d122d121d120000000000000000000000000d11fd11ed11dd11cd11bd11ad119d118d117d116d115d114d113d112d111d110d10fd10ed10cd10bd10ad109d108d107d106d105,
   0xb969b968b960b95cb959b958b951b94fb94cb944b940b93db93cb920b918b904b8fdb8fbb8f9b8f8b8f0b8ecb8e9b8e8b8e1b8dfb8ddb8d4b8d0b8ccb8c5b8c3b8c1b8c0b8b8b8b4b8b0b8a8b88db87cb878b871b86fb86db86cb864b860b85db85cb853b851b844b840b839b838b837b835b834b82cb828b825b824b81db81bb819b818b810b80cb809b808b807b801b800b7ffb7fdb7fcb7f4b7f0b7edb7ecb7c9b7c7b7b8b7b5b7b4b7adb7acb7abb7a9b7a8b7a0b79cb799b798d1cfd1ced1cdd1ccd1cbd1cad1c9d1c8d1c7d1c6d1c5d1c4d1c3d1c2d1c1d1bfd1bed1bdd1bbd1b9d1b8d1b7d1b6d1b4d1b2d1afd1aed1add1acd1abd1aad1a9000000000000000000000000d1a7d1a6d1a5d1a3d1a2d19fd19ed19dd19cd19bd19ad199d198d197d196d195d194d193d192d191d190d18fd18ed18dd18cd18b000000000000000000000000d18ad189d187d186d185d183d182d181d180d17fd17ed17dd17bd17ad179d178d177d176d175d174d173d172d171d170d16fd16e,
   0xbafcbad9bad8bac8bac4babdbabbbab9bab8bab2bab0baacbaabbaa9baa8ba8cba87ba85ba84ba83ba78ba74ba71ba70ba69ba68ba67ba65ba64ba5cba58ba55ba54ba53ba4eba4dba4bba49ba48ba42ba40ba3cba39ba38ba15ba08ba01ba00b9fab9f9b9f8b9f7b9f5b9f4b9ecb9e8b9e5b9e4b9e3b9e1b9deb9ddb9dbb9d9b9d8b9d2b9d1b9d0b9cfb9ceb9ccb9c9b9c8b9c1b9bfb9bdb9bcb9b4b9b0b9adb9acb98eb98db98ab989b987b985b984b97cb978b975b974b96db96bd229d228d227d226d225d224d223d222d221d220d21fd21ed21dd21cd21bd21ad219d218d217d216d215d214d213d212d211d20fd20ed20dd20cd20bd20ad208000000000000000000000000d206d205d204d203d202d201d200d1ffd1fed1fdd1fcd1fbd1fad1f9d1f7d1f6d1f5d1f3d1f2d1f1d1f0d1efd1eed1edd1ecd1eb000000000000000000000000d1ead1e9d1e8d1e7d1e6d1e5d1e4d1e3d1e2d1e1d1e0d1dfd1ded1ddd1dcd1dbd1dad1d9d1d7d1d6d1d5d1d4d1d3d1d2d1d1d1d0,
   0xbc97bc95bc94bc8ebc8cbc8bbc88bc85bc84bc5dbc50bc4dbc4cbc49bc45bc44bc43bc41bc40bc38bc34bc31bc30bc2dbc29bc27bc25bc24bc1fbc1ebc1dbc1cbc1bbc18bc17bc16bc15bc14bc11bc0fbc0dbc0cbc0bbc09bc08bc02bc00bbffbbfcbbf9bbf8bbd3bbd0bbc8bbc4bbc0bbb7bbb4bbacbba8bba4bb90bb8cbb88bb6cbb63bb61bb58bb54bb50bb4fbb4dbb49bb47bb45bb44bb3ebb3dbb3cbb3bbb38bb36bb35bb34bb2bbb29bb20bb1cbb18bb11bb0fbb0dbb04bb00d28cd28bd28ad289d287d286d285d283d282d27fd27ed27dd27cd27bd27ad279d278d277d276d275d274d273d272d271d270d26fd26ed26dd26cd26bd26ad269000000000000000000000000d268d267d266d265d263d262d261d260d25fd25ed25dd25bd25ad259d258d257d256d255d254d253d252d251d250d24fd24ed24d000000000000000000000000d24cd24bd24ad249d247d246d245d244d243d242d240d23ed23bd23ad239d238d237d236d235d233d232d231d22fd22ed22bd22a,
   0xbe64be61be60be5bbe5abe59be57be55be54be4ebe4cbe48be45be44be1fbe1dbe1cbe14be10be0dbe0cbe05be03be00bdf8bdf4bdf0bde9bddcbdd8bdd5bdd4bdb8bdb0bda4bd9cbd9abd99bd95bd93bd91bd90bd8abd89bd88bd87bd84bd81bd80bd68bd64bd59bd58bd50bd4cbd49bd48bd40bd2cbd24bd14bd10bd09bd07bd05bd04bcfcbcf8bcf6bcf5bcf4bcdcbcd8bcd5bcd1bcd0bccfbccdbcc4bcc0bcbdbcbcbcb5bcb4bcb3bcb1bcb0bca8bca7bca4bca1bca0bc9abc99d2fad2f9d2f7d2f6d2f5d2f3d2f2d2efd2eed2edd2ecd2ebd2ead2e9d2e8d2e7d2e6d2e3d2e2d2e1d2e0d2dfd2ded2ddd2dbd2dad2d9d2d7d2d6d2d5d2d3d2d2000000000000000000000000d2d1d2d0d2cfd2ced2cdd2ccd2cad2c7d2c6d2c5d2c4d2c3d2c1d2bed2bdd2bbd2bad2b7d2b6d2b5d2b4d2b3d2b2d2b0d2afd2ae000000000000000000000000d2add2abd2aad2a9d2a8d2a7d2a6d2a5d2a3d2a2d2a1d29fd29ed29dd29bd29ad299d298d297d296d294d293d292d28fd28ed28d,
   0xc0e4c0ddc0dcc0dbc0d9c0d8c0d0c0ccc0c9c0c8c0c5c0c1c0c0c0bfc0bdc0bcc0b6c0b5c0b4c0b3c0b0c0afc0adc0acc0a5c0a3c0a1c0a0c098c094c091c090c069c068c060c05cc058c051c03cbfe1bfdfbfdcbfd4bfd0bfcdbfccbfc5bfb0bf94bf55bf51bf50bf48bf44bf41bf40bf1dbf1cbf1bbf19bf18bf09bf08bf01beecbee5bee4bee3bee0bed8bed7bed4bed1bed0bea8be99be98be91be90be8fbe8dbe8cbe84be80be7dbe7cbe7bbe75be74be73be71be70be6abe68d369d368d367d366d365d364d363d362d361d360d35fd35ed35dd35cd35bd35ad359d358d357d356d355d354d353d352d351d350d34fd34ed34dd34cd34bd34a000000000000000000000000d349d348d347d346d343d342d341d340d33fd33ed33ad337d336d335d334d333d332d331d32fd32ed32dd32bd32ad327d326d324000000000000000000000000d323d322d31ed31bd31ad319d318d317d315d313d312d311d30fd30bd30ad309d308d307d306d304d302d2ffd2fed2fdd2fcd2fb,
   0xc22dc22bc229c228c220c21fc21cc219c218c211c20fc20dc20cc204c200c1fdc1fcc1f3c1f1c1f0c1e8c1e4c1e0c1d8c1d7c1d4c1ccc1c8c1c4c1bdc1b0c1acc1a9c1a8c1a5c1a1c19fc19dc19cc196c194c190c18ec18dc18cc185c178c174c170c169c168c167c165c164c15cc158c155c154c14dc14cc14bc149c148c140c13cc139c138c136c131c130c12fc12dc12cc127c126c124c123c120c11fc11ec11dc11cc115c110c108c104c100c0f9c0f7c0f5c0f4c0ecc0e8c0e5d3d6d3d5d3d4d3d3d3d2d3d1d3cfd3ced3cdd3ccd3cbd3cad3c7d3c6d3c3d3c2d3c1d3c0d3bfd3bed3bdd3bbd3bad3b9d3b7d3b6d3b5d3b3d3b2d3b1d3b0d3af000000000000000000000000d3aed3acd3aad3a7d3a6d3a5d3a4d3a3d3a2d3a1d39fd39ed39dd39bd39ad397d396d395d394d393d392d38ed38bd38ad389d388000000000000000000000000d387d386d385d383d382d381d37fd37ed37bd37ad379d378d377d376d375d374d373d372d371d370d36fd36ed36dd36cd36bd36a,
   0xc430c42cc424c410c408c3f8c3f5c3f4c3edc3e9c3e8c3e2c3e0c3dfc3dcc3d9c3d8c3c0c38cc388c384c37dc37cc379c378c372c370c36cc369c368c345c329c328c325c324c31cc318c315c314c313c30dc30cc309c308c300c2fcc2fbc2f9c2f8c2f6c2f1c2efc2edc2ecc2ebc2e4c2e3c2e0c2ddc2dcc2b9c2b7c2b5c2b4c2adc2acc2a8c2a5c2a4c29dc29bc298c290c289c288c281c27fc27dc27cc274c270c26dc26cc265c260c258c254c251c250c248c234c232c231c22fd437d436d435d434d433d432d431d430d42fd42ed42dd42cd42bd42ad429d428d427d426d425d424d423d422d421d420d41fd41ed41cd41bd41ad419d418d417000000000000000000000000d416d415d414d413d412d411d410d40fd40ed40dd40cd40bd40ad409d407d406d405d404d403d402d400d3fed3fbd3fad3f9d3f8000000000000000000000000d3f7d3f6d3f5d3f3d3f2d3f1d3efd3eed3ebd3ead3e9d3e8d3e7d3e6d3e5d3e4d3e2d3e0d3dfd3ded3ddd3dcd3dbd3dad3d9d3d7,
   0xc5cec5ccc5cac5c9c5c8c5c7c5c6c5c5c5c4c5bec5bdc5bcc5bbc5b9c5b8c5b5c5b4c5a9c5a0c59cc598c597c595c591c58fc58dc58cc587c584c580c57dc57cc575c574c573c571c570c568c564c561c560c55ec55dc559c558c557c555c554c553c54ec54dc54cc54ac549c548c545c544c53dc53bc539c538c530c52cc529c528c51cc514c510c50cc501c500c4ffc4fac4f8c4f4c4f1c4f0c4e9c4bcc4b8c49cc494c480c479c475c474c46cc468c465c464c448c43dc43cc434d49dd49cd49bd49ad499d498d497d496d495d493d492d491d490d48fd48ed48cd48ad487d486d485d484d483d481d47ed47dd47bd47ad477d476d475d474d473000000000000000000000000d472d471d470d46ed46cd46bd46ad469d468d467d466d465d463d462d461d45fd45ed45dd45bd45ad459d458d457d456d455d454000000000000000000000000d453d452d451d450d44fd44ed44dd44cd44bd44ad449d448d447d446d445d443d442d441d43fd43ed43dd43cd43bd43ad439d438,
   0xc6e8c6e1c6e0c6ddc6dcc6d4c6d0c6cdc6ccc6c5c6c3c6c1c6c0c6bac6b9c6b8c6b4c6b1c6b0c6a9c6a7c6a5c6a4c69cc698c695c694c68dc68bc689c688c680c67cc679c678c671c66fc66cc660c65dc65cc655c654c653c651c650c648c644c641c640c63bc639c637c635c634c633c630c62ec62dc62cc628c625c624c61cc61bc619c618c610c60cc608c607c606c605c601c600c5ffc5fec5fdc5fcc5f7c5f6c5f4c5f0c5eec5edc5ecc5e5c5e3c5e1c5e0c5d8c5d4c5d1c5d0d4fcd4fad4f9d4f7d4f6d4f5d4f4d4f3d4f2d4f1d4efd4eed4edd4ebd4ead4e9d4e7d4e6d4e5d4e4d4e3d4e2d4e1d4e0d4ded4ddd4dbd4dad4d9d4d8d4d7d4d6000000000000000000000000d4d5d4d3d4d2d4d1d4cfd4ced4cdd4cbd4cad4c9d4c8d4c7d4c6d4c5d4c4d4c3d4c2d4c1d4c0d4bfd4bed4bdd4bcd4bbd4bad4b9000000000000000000000000d4b8d4b7d4b6d4b5d4b4d4b3d4b2d4b1d4b0d4afd4aed4add4acd4abd4aad4a8d4a7d4a6d4a5d4a4d4a3d4a2d4a1d4a0d49fd49e,
   0xc80ac808c804c801c800c7ecc7e8c7e4c7ddc7d8c7d0c7cec7ccc7c9c7c8c7c1c7c0c7bfc7bdc7bcc7b4c7b0c7adc7acc7a6c7a5c7a4c7a3c7a1c7a0c79ac798c797c796c794c791c790c78ec78ac789c788c787c785c784c783c77ec77dc77cc778c775c774c76bc768c760c75cc758c757c756c755c754c753c752c751c74fc74dc74cc74ac744c740c73dc73cc737c735c733c731c730c728c724c721c720c719c717c715c714c70cc708c705c704c6fdc6f9c6f8c6f0c6ecc6e9d563d562d561d55fd55ed55dd55bd55ad557d556d555d554d553d552d550d54ed54bd54ad549d548d547d546d545d543d542d541d53fd53ed53bd53ad539d538000000000000000000000000d537d536d535d534d533d532d531d530d52fd52ed52dd52cd52bd52ad529d528d527d526d525d524d523d522d521d520d51fd51e000000000000000000000000d51dd51cd51bd51ad519d518d516d513d512d511d510d50fd50ed50dd50bd50ad509d507d506d505d503d502d501d500d4ffd4fe]
def uhcRows4 : List Nat :=
  [0xc9d3c9d1c9d0c9cac9c8c9c7c9c4c9c1c9c0c99dc99bc999c998c990c98cc989c988c97cc974c970c96cc963c961c960c958c954c951c950c934c92cc918c911c90fc90dc90cc906c905c904c900c8fdc8fcc8f5c8e4c8e1c8e0c8d9c8d7c8d5c8d4c8ccc8c8c8c4c8bdc8bcc8a8c8a1c89fc89dc894c88dc88cc88bc887c886c885c883c881c880c87ac878c874c871c870c854c84dc84cc849c848c840c83cc838c831c82fc82dc82cc824c820c81dc81cc816c815c813c811c810d5c7d5c6d5c5d5c4d5c3d5c2d5c1d5c0d5bfd5bed5bdd5bcd5bbd5bad5b9d5b8d5b7d5b6d5b5d5b4d5b3d5b2d5b1d5b0d5afd5aed5add5acd5abd5aad5a9d5a8000000000000000000000000d5a7d5a6d5a4d5a3d5a2d5a1d5a0d59fd59ed59dd59cd59bd59ad599d598d597d596d595d594d593d592d591d58fd58ed58dd58c000000000000000000000000d58bd58ad586d583d582d581d580d57fd57ed57dd57bd57ad579d577d576d573d572d571d570d56fd56ed56cd56ad567d566d564,
   0xcc3bcc39cc38cc30cc2ecc2ccc29cc28cc27cc22cc21cc1dcc1ccc14cc10cc0dcc0ccbe9cbe7cbe4cbd4cbb8cb9ccb79cb78cb64cb5dcb59cb58cb50cb4ccb49cb48cb41cb21cb20cb18cb14cb10cb08caf4caeccae0cad9cad8cad3cad1cacfcacdcacccac4cac0cabdcabcca98ca84ca7dca68ca61ca60ca5fca5dca5cca54ca50ca4dca4cca29ca18ca14ca0dca0cca0bca09ca08ca00c9fcc9f9c9f8c9f1c9f0c9efc9edc9ecc9e7c9e4c9e2c9e0c9ddc9dcc9dac9d9c9d6c9d5d63bd63ad637d636d635d634d633d632d631d630d62fd62ed62cd62bd62ad629d628d627d626d625d623d622d621d61fd61ed61dd61bd61ad619d618d617d616000000000000000000000000d612d60fd60ed60dd60cd60bd60ad609d607d606d605d603d602d5ffd5fed5fdd5fcd5fbd5fad5f8d5f6d5f3d5f2d5f1d5f0d5ef000000000000000000000000d5eed5edd5ebd5ead5e9d5e7d5e6d5e3d5e2d5e1d5e0d5dfd5ded5dcd5dad5d7d5d6d5d5d5d4d5d3d5d1d5cfd5ced5cdd5cbd5ca,
   0xce35ce33ce31ce30ce28ce24ce21ce20ce19ce14ce0cce08ce04cdfdcdfbcdf9cdf8cdf0cdeccde8cdd0cdcccdc4cdb0cda9cda7cda5cda4cd9ccd98cd95cd94cd88cd78cd71cd6fcd6dcd6ccd64cd60cd5ccd39cd2ccd28cd24cd1dcd1bcd19cd18cd10cd0ccd09cd08cd01ccf0cceccce4ccd4ccd0ccc9ccc7ccc5ccc4ccbcccb8ccb5ccb4ccadccacccabcca9cca8cca0cc9ccc99cc98cc75cc70cc68cc66cc64cc60cc59cc58cc57cc55cc54cc4ccc48cc45cc44cc3ecc3dcc3cd6aad6a9d6a7d6a6d6a5d6a4d6a3d6a2d6a0d69ed69cd69bd69ad699d698d697d696d695d693d692d691d68fd68ed68bd68ad689d688d687d686d684d682d681000000000000000000000000d680d67fd67ed67dd67cd67bd67ad679d678d677d676d675d673d672d66fd66ed66dd66cd66bd66ad668d666d665d664d663d662000000000000000000000000d661d660d65fd65ed65dd65bd65ad659d657d656d653d652d650d64fd64ed64cd64ad647d646d644d643d642d641d63fd63ed63d,
   0xd03cd038d035d034d02dd018d011d004d000cffccff5cff3cff1cff0cfe8cfe4cfe1cfe0cfc4cfb0cfa8cfa1cf8ccf85cf80cf78cf74cf71cf70cf69cf67cf65cf64cf5ccf58cf55cf54cf38cf31cf30cf2fcf2dcf2ccf24cf20cf1ccf15cf13cf11cf10cf08cf04cf01cf00cef9cef8cef7cef5cef4ceecceebcee8cee5cee4cec1ceadceaccea5cea4cea3cea1cea0ce98ce94ce91ce90ce89ce87ce85ce84ce7cce78ce75ce74ce6dce6bce69ce68ce61ce60ce5fce5cce59ce58d714d713d712d710d70fd70ed70dd70cd70bd70ad709d708d707d706d705d703d702d701d6ffd6fed6fbd6fad6f9d6f8d6f7d6f6d6f4d6f3d6f2d6f1d6efd6ee000000000000000000000000d6edd6ecd6ebd6ead6e9d6e7d6e6d6e5d6e3d6e2d6e1d6dfd6ded6ddd6dcd6dbd6dad6d8d6d6d6d5d6d3d6d2d6d0d6cfd6ced6cd000000000000000000000000d6cbd6cad6c9d6c7d6c6d6c3d6c2d6c1d6c0d6bfd6bed6bdd6bcd6bad6b8d6b7d6b6d6b5d6b4d6b3d6b2d6b1d6afd6aed6add6ab,
   0xd25cd248d241d23fd23dd23cd234d230d22dd22cd210d209d207d1f8d1f4d1d8d1c0d1bcd1bad1b5d1b3d1b1d1b0d1a8d1a4d1a1d1a0d188d184d17cd16cd168d161d15fd15dd15cd154d150d14dd14cd145d144d143d141d140d13ad138d134d131d130d10dd0f8d0f1d0f0d0efd0edd0ecd0e4d0e0d0ddd0dcd0d5d0d4d0d3d0d1d0d0d0c9d0c8d0c4d0c1d0c0d0b9d0b7d0b5d0b4d0acd0a8d0a5d0a4d081d07dd07cd074d070d06dd06cd060d058d054d050d049d047d045d044d78bd78ad787d786d785d784d783d782d780d77fd77ed77bd77ad779d778d777d776d775d773d772d771d76fd76ed76dd76bd76ad768d767d766d764d762d75f000000000000000000000000d75ed75dd75cd75bd75ad755d753d752d74fd74ed74dd74cd74bd74ad748d746d745d743d742d741d740d73fd73ed73dd73bd73a000000000000000000000000d739d737d736d733d732d731d730d72fd72ed72cd72ad727d726d725d724d723d722d721d71fd71ed71dd71bd71ad717d716d715,
   0xd401d3ffd3fdd3fcd3f4d3f0d3edd3ecd3e3d3e1d3d8d3d0d3c9d3c8d3c5d3c4d3bcd3b8d3b4d3add3abd3a9d3a8d3a0d39cd399d398d391d390d38fd38dd38cd384d380d37dd37cd345d344d33dd33cd33bd339d338d330d32cd329d328d325d321d320d31fd31dd31cd316d314d310d30ed30dd30cd305d303d301d300d2f8d2f4d2f1d2f0d2e5d2e4d2dcd2d8d2d4d2cbd2c9d2c8d2c2d2c0d2bfd2bcd2b9d2b8d2b1d2acd2a4d2a0d29cd295d291d290d288d284d281d280d264000000000000000000000000000000000000000000000000000000000000000000000000000000000000000000000000000000000000000000000000000000000000000000000000000000000000000000000000000000000000000000000000000000000000000000000000000000000000000000000000000000000000000000000000000000000000000000000000000000000000000000000000d7a3d7a2d7a1d7a0d79fd79ed79cd79ad797d796d795d794d793d792d791d78fd78ed78d,
   0xd620d61cd615d614d613d611d610d608d604d601d600d5f9d5f7d5f5d5f4d5ecd5e8d5e5d5e4d5ddd5dbd5d9d5d8d5d2d5d0d5ccd5c9d5c8d5a5d590d589d588d587d585d584d57cd578d575d574d56dd56bd569d568d565d560d55cd559d558d551d54fd54dd54cd544d540d53dd53cd517d515d514d50cd508d504d4fdd4fbd4f8d4f0d4ecd4e8d4dfd4dcd4d4d4d0d4ccd4a9d494d48dd48bd489d488d482d480d47fd47cd479d478d46fd46dd464d460d45cd444d440d41dd408000000000000000000000000000000000000000000000000000000000000000000000000000000000000000000000000000000000000000000000000000000000000000000000000000000000000000000000000000000000000000000000000000000000000000000000000000000000000000000000000000000000000000000000000000000000000000000000000000000000000000000000000000000000000000000000000000000000000000000000000000000000000000000000000,
   0xd79dd79bd799d798d790d78cd789d788d781d77dd77cd774d770d76cd769d765d763d761d760d759d758d757d756d754d751d750d749d747d744d73cd738d735d734d72dd72bd729d728d720d71cd719d718d711d704d700d6fdd6fcd6f5d6f0d6e8d6e4d6e0d6d9d6d7d6d4d6d1d6ccd6c8d6c5d6c4d6bbd6b9d6b0d6acd6a8d6a1d69fd69dd694d690d68dd68cd685d683d674d671d670d669d667d65cd658d655d654d651d64dd64bd649d648d645d640d63cd639d638d62dd624000000000000000000000000000000000000000000000000000000000000000000000000000000000000000000000000000000000000000000000000000000000000000000000000000000000000000000000000000000000000000000000000000000000000000000000000000000000000000000000000000000000000000000000000000000000000000000000000000000000000000000000000000000000000000000000000000000000000000000000000000000000000000000000000,
   0x0,
   0x9f959452945190af7d3a77b076e375b375186e1b6a4467d16562622161be611f5d4c582a574e52d897a8874e8910845b7aed78a36e3466f7559d4e6b95938aeb8271826e809d7c217aff7a0878f5770b764e6f97687f67ec674663c061c75e795e7259e6597858be520a4f8395a389d289ba811a73cf6bbc6164606a54045374523b99d58fe68efb8dcf8cc88a3688888857830482db7a3c75c273c26b4c67ef67b767b666875bb65ac1560954e5547553ef52a050f950474f734f3d000000000000000000000000000000000000000000000000000000000000000000000000000000000000000000000000000000000000000000000000000000000000000000000000000000000000000000000000000000000000000000000000000000000000000000000000000000000000000000000000000000000000000000000000000000000000000000000000000000000000000000000000000000000000000000000000000000000000000000000000000000000000000000000000,
   0x6aa25292528d51096840677050914e5e9a2b93758e4786548171695761065efa5dfe50654ef64e7e92f89245907df9028e1e8ddd795b70ac6e2064e764da636e62d25de85c4553bb502891b57fb97cb3f90157515ba25580958b93a7f90084cb82a57b8776d6768675a56f1169ea65396168613e6137584f51f1500b4ef74ecb9c47964d92fc8b1b89418591822181547f8c7db17d737ce07586757a6c5f61775f4a5f3a5eb75d175ca159dc5808525b9598924080db75325cac5323000000000000000000000000000000000000000000000000000000000000000000000000000000000000000000000000000000000000000000000000000000000000000000000000000000000000000000000000000000000000000000000000000000000000000000000000000000000000000000000000000000000000000000000000000000000000000000000000000000000000000000000000000000000000000000000000000000000000000000000000000000000000000000000000,
   0x68b06842621260b85c465b635951583a55534fc29be89a5a9838980393e190158f158b668396811b803f80157d937d457af67adf78ec786c75d974ca74a5749f70f170856d87689766f466bb666f656c64ce61ac61765f915e9a58835770537f52cd52c1510650be501e4fd34eac938c92578b197b9d614a517c8a237f3a7d506f546c7a62899d5190638b74898b80a97e6d7d79750472ac727d5805969489a181886fc06a84683c64ca63ed61a950488ff2602f52ab9ed4921077bc000000000000000000000000000000000000000000000000000000000000000000000000000000000000000000000000000000000000000000000000000000000000000000000000000000000000000000000000000000000000000000000000000000000000000000000000000000000000000000000000000000000000000000000000000000000000000000000000000000000000000000000000000000000000000000000000000000000000000000000000000000000000000000000000,
   0x74dc679c62085be14e32978f8ca286a37a7a73d9653b63a762f1606d60505de55b54529f5171516c4f9b9aa8f9046c689be4889e74286efe68cd68b166065d11576456f09d608c377a40688f66f2659b54ed9f139ad8986796c7932e8f9cf9038aa588b4883185c183f082fd82e6818f80a180037f947a3f777e769075fc6cbd69c167af66a065726545653762f75eab5c3b5b6459d156fa5471544a53e953e49dc4968e8c3f8aa18a087e7c7e6b7cfb7a3d78ce7678754c6eaa68e8000000000000000000000000000000000000000000000000000000000000000000000000000000000000000000000000000000000000000000000000000000000000000000000000000000000000000000000000000000000000000000000000000000000000000000000000000000000000000000000000000000000000000000000000000000000000000000000000000000000000000000000000000000000000000000000000000000000000000000000000000000000000000000000000,
   0x52fe51774ff14ec74e5d4e454e189bab9a55990390ca8f4e8f0386df854e81a07ff97d5e77ef768e72e16a4b6821654e652a5de75da05b0c55ac54ac50d14ea48f5f80b17d185b8f9b4169d062d06127602a58de584a50804e567f6b639b5366945b80f17b5073d672c2709a6d3866e05ee358d9532151494f8a900262ec605d522e992895dc8cab89c083c57f507ba174d8742f704c6b3e68fa61635bec5b9851a0f90590ed85ff69e85ed39846934b904e8de88ab28a8783d379d1000000000000000000000000000000000000000000000000000000000000000000000000000000000000000000000000000000000000000000000000000000000000000000000000000000000000000000000000000000000000000000000000000000000000000000000000000000000000000000000000000000000000000000000000000000000000000000000000000000000000000000000000000000000000000000000000000000000000000000000000000000000000000000000000,
   0x8cb46b786677f906994b8ecc8a6d6f706ac3673a95d58e768568735753a577376dc36b0a637262f35708537752f8523850268eac828e7aae7a795f135bae7a9f63985c48580090e18ecd88d97fa47a98541b9eb497ab97a083ca5c40570b9f9c9dd79ce99a4599d292b6926490b190118ec08cfc8b33886282df820a820581fc80097d7f7a7677e977bf7403739672d770786e9d6c426bec6bc66b5069cb67e967b8655162d861fc5ed05d875bc757a257755614548e53e553e35340000000000000000000000000000000000000000000000000000000000000000000000000000000000000000000000000000000000000000000000000000000000000000000000000000000000000000000000000000000000000000000000000000000000000000000000000000000000000000000000000000000000000000000000000000000000000000000000000000000000000000000000000000000000000000000000000000000000000000000000000000000000000000000000000,
   0x65e365d762805fcc5e7e5df15d0e5c905bc459935947591457fc57fa573b566855dc518051764f0e4f0180af77dc51624e987d667d1a6c726271602553ca4f0b9326f90a895f887f887e82a979bd798174346a8e661164d259974ecaf90999498fd18b3989b283eb82b97b4b747e69ff683965a461c352e452a450c59699697568d8621f5287524b514b6a58f908921e83cc7b607547574752fb95a890358d73898f84757cfe7ac57aba784573ea69fb63c6594e572d53ebf9079b3c000000000000000000000000000000000000000000000000000000000000000000000000000000000000000000000000000000000000000000000000000000000000000000000000000000000000000000000000000000000000000000000000000000000000000000000000000000000000000000000000000000000000000000000000000000000000000000000000000000000000000000000000000000000000000000000000000000000000000000000000000000000000000000000000]
def uhcRows5 : List Nat :=
  [0xf925f924f9237537f9226e736960678ff9215357637a634ff92096e3f91ff91e7156f91d6696f91cf91bf91af9198afef918f917f916f915f91490a3f913f912f911f910f90ff90e62ff62cff90d61e65a1cf90cf90b513a55ab91d1685462ee54094f767dca9e929a659a0f9a0e995198e2932493218d778c488b4f8a18808c802d80067f887dba7d007b95797a79487947794178ef7881757f757874a37482742a742673986dc76c826c7d6c236b3a6a5f68c468cb675e671f671e000000000000000000000000000000000000000000000000000000000000000000000000000000000000000000000000000000000000000000000000000000000000000000000000000000000000000000000000000000000000000000000000000000000000000000000000000000000000000000000000000000000000000000000000000000000000000000000000000000000000000000000000000000000000000000000000000000000000000000000000000000000000000000000000,
   0x8336591a6eba533f6ce55c3cf959f95880fdf957f956f955f954f953f9527d10677b8a255ae9f951f950f94ff94ef94df94cf94bf94a5c3ff949f9488166f947f94660f18fb281bff945f9446fc3f943f942f941f940f93ff93ef93df93cf93bf93af93999d1f938f937f936f935f934f9337459f932f931f93060125f295974f92f52aa5bd75be7637b62c8606c5ff579ca649a5e745973f92e801067f059485167f92d4e43f92cf92bf92af929f9285a1856ca8872f927f9267d0d000000000000000000000000000000000000000000000000000000000000000000000000000000000000000000000000000000000000000000000000000000000000000000000000000000000000000000000000000000000000000000000000000000000000000000000000000000000000000000000000000000000000000000000000000000000000000000000000000000000000000000000000000000000000000000000000000000000000000000000000000000000000000000000000,
   0x684364176389631160bc5f925ea65d8b5cf65c605c0e58575835571652305200501260b35fb75b859edb968a8cb8888b81fa73b364e162345f855e365cb15c0d5927576e57884ee39ee887b37cd6757668e0649e62075e62585858025510905d8e0f7b5475536c93931f8b5a8ac78983854181bd804375f06fb96f6d6e5b6de166c764d461ba574d5556905475b8737a6fbe64bb935b9132889286cb7dde7c1e7aef77ed6e4d6bb56a8065e665b75f5658c7571855ae4f464eb64e39000000000000000000000000000000000000000000000000000000000000000000000000000000000000000000000000000000000000000000000000000000000000000000000000000000000000000000000000000000000000000000000000000000000000000000000000000000000000000000000000000000000000000000000000000000000000000000000000000000000000000000000000000000000000000000000000000000000000000000000000000000000000000000000000,
   0x7f857669f95b61f655879a3091278b0485e47b49767b71c86a595d9d5f97920d906f9041829a81c05c6f982d90178c46f95a83737ac775d86793675c6597515c9285846380f47ae577b375bc6f7c6d1e68df6850677161a7540c52d551cd51ac4edd7a814e6d98138c5a71c9711e6c8c66be65fd656660c758a98b807e9b7be479bf7763736872a2725870066bd297dc9676934d90fd9053901490038e488df38ced89a984047a3b79b1777976dc71fe6fe46ed46e216dd86ac268f9000000000000000000000000000000000000000000000000000000000000000000000000000000000000000000000000000000000000000000000000000000000000000000000000000000000000000000000000000000000000000000000000000000000000000000000000000000000000000000000000000000000000000000000000000000000000000000000000000000000000000000000000000000000000000000000000000000000000000000000000000000000000000000000000,
   0x6f2365236200619097428f62792b701d6b7766c6529b9ece9e979a6a9a6295ad882385dc792a6ffe6ada65c5623e616e5eec544252f551374fb691cf8f1b8ad2826f7ce77cb17cae6a11688151c9516950064eae756563a051b7840a5fa05d0d4f8690de8782746f740572fc6d6a67175eca881f81d862c989bd896485cd7e9c7c436feb6b16652c64e55d508fa3524c9e1e862d721b703e6b126b0453754e82f95e99f1916af95d843d7d6173de70d96d1bf95c908f88f887ba863f000000000000000000000000000000000000000000000000000000000000000000000000000000000000000000000000000000000000000000000000000000000000000000000000000000000000000000000000000000000000000000000000000000000000000000000000000000000000000000000000000000000000000000000000000000000000000000000000000000000000000000000000000000000000000000000000000000000000000000000000000000000000000000000000,
   0x84fc804a77ad764271ce65995ed65bee50da4e8696f78cf48cda8cc278ca726270285121807e7c6074cf702767275f0458df8ad69e939e7f930483c97da0797f788c9e759dfa9b6f97328f058def865c8606800176e7721070186f5e6ad364c46488f96052de96b791b479ae6fa74f8b9f619818974896f69234901e80467fce7f9a7b2d73b2601c5dba5cbaf95f56f94f364ee473757c3e6fc26bae65825ec988c270c86d0c52a3521751bd934a90238f2684ee806f7df474897149000000000000000000000000000000000000000000000000000000000000000000000000000000000000000000000000000000000000000000000000000000000000000000000000000000000000000000000000000000000000000000000000000000000000000000000000000000000000000000000000000000000000000000000000000000000000000000000000000000000000000000000000000000000000000000000000000000000000000000000000000000000000000000000000,
   0x782c971681e874336dcb67979e9f9c5796a38eaa85fa749871d06f7e541d9bc996e291d091cc88e188cf83897fb87f797c6c75e2f9627483740672f872816d6c68a8674e60a75c65550e540f539852294fda967583f17dbe7a1c695e51cc51dc808b52d29686f961681761445f8b8f2a7db86dea5d19502b4f969678622e516d985e8b2c786b7624755974607409700f6e9c6d4169b467f365d25289964b93e48938851e7e377d2f763b6f0f6dda6a135c625a4158d89f8d9b27907c000000000000000000000000000000000000000000000000000000000000000000000000000000000000000000000000000000000000000000000000000000000000000000000000000000000000000000000000000000000000000000000000000000000000000000000000000000000000000000000000000000000000000000000000000000000000000000000000000000000000000000000000000000000000000000000000000000000000000000000000000000000000000000000000,
   0x6ec59eb597627dec7dbf772077046c9468c952c95195514d899351aa840c76df76f2731b6c135b5f9ea59a40964c8c8a81089b4590818ce38cb77f7571646bcf6885679a66275bd05a9259b957cb90998f1e83bd832b82927f547db2671b5fd95fd859844ea1977a896a83096cab672b62b9551c9c3b99458f13883b8513842c779e70636f2b6eff66fc6669633d61625f4e5dd25a29534d4e07908883ab819c6f205e555bde9ebb9b5499ac78e878bc75f2746a64697c927b207acb000000000000000000000000000000000000000000000000000000000000000000000000000000000000000000000000000000000000000000000000000000000000000000000000000000000000000000000000000000000000000000000000000000000000000000000000000000000000000000000000000000000000000000000000000000000000000000000000000000000000000000000000000000000000000000000000000000000000000000000000000000000000000000000000,
   0x6587554f543b520e50119ed858a89d6197278cbf8aa3856a8302821e7e46755d73f771216bcb6b66695965e064ab62c7620a61cb61ae5deb52d9932882d77ad7732b6e3a6773663463cf5edf59995893536f8499672659226c926b7f9da97a46776676ee72676c9067288c8c8b288b00830582bc801777db773874417261725f6bdb6bcd6a2167d066ae6479647861555e3d59c652df51924fae88829cf492989169879f84c28317779176bf6e9f6927669d660e547d540d51a58511000000000000000000000000000000000000000000000000000000000000000000000000000000000000000000000000000000000000000000000000000000000000000000000000000000000000000000000000000000000000000000000000000000000000000000000000000000000000000000000000000000000000000000000000000000000000000000000000000000000000000000000000000000000000000000000000000000000000000000000000000000000000000000000000,
   0x6f516e2464a562d452c398ef98128fd487e0822c7d46792c78fb78d076fc76e47622755473ed6f586cee69c365916500642c62cc53db53cd534a4f3499c196f98feb85848236818a7e1b7c957b94749e73c06cca6a38673464b2640f62cd535a525d8b10871c5bc695947de173c9739f6cef6c1165fc65fb654f61ab610d60b65cb79ef497618ff78b0e85877f8e7c7377096e446e3c696368b6672a5fae5f4c5d4b5c3e5a9a547372696c9552ff96ef9580868a805e7d0b7d0a6c76000000000000000000000000000000000000000000000000000000000000000000000000000000000000000000000000000000000000000000000000000000000000000000000000000000000000000000000000000000000000000000000000000000000000000000000000000000000000000000000000000000000000000000000000000000000000000000000000000000000000000000000000000000000000000000000000000000000000000000000000000000000000000000000000,
   0x765674a76a9764d858c1528850fb743a6cd583037bc472af6cdb6c4e6c3e68b55e0651e195a57f707b4f4f1098dc85e985437e41f964756a71d471696a0a5e619b44767e767d682267cf5e1b4f704f2f966a914d8f298ce0891988f588f480da80cc76c371196e43676f639262dc5f9857f9f9634ff3500d9f90963290a68b178a2a868c84a182b3822b818080aa7d2178c56ec2699c678b660965c165b9653e623f5f775e475c2859a8574a508d50239b439aee926291b18dcb767c000000000000000000000000000000000000000000000000000000000000000000000000000000000000000000000000000000000000000000000000000000000000000000000000000000000000000000000000000000000000000000000000000000000000000000000000000000000000000000000000000000000000000000000000000000000000000000000000000000000000000000000000000000000000000000000000000000000000000000000000000000000000000000000000,
   0x5a66592b57e054905426526f525650854fef4ed84e0d9cf392d29022870284ec7e2b742b71a270fd68d263675cf05cef5c0159494ff84e76672c9c1299a58f3b8f39898689078514832f8179798f670d5fa95b93535c531050d54f0f8f148b5c891388dc83e9752b73e46f7d6e7a6d116b65666e5bf6583158214fdd9a0899208f277add79c975c5750170b368c567c4663a661e5e775c5b517550024e199f089c4977a55225908a8faf8fa88b8a5f01535ef965973995e2861778a7000000000000000000000000000000000000000000000000000000000000000000000000000000000000000000000000000000000000000000000000000000000000000000000000000000000000000000000000000000000000000000000000000000000000000000000000000000000000000000000000000000000000000000000000000000000000000000000000000000000000000000000000000000000000000000000000000000000000000000000000000000000000000000000000,
   0x80a57fe17dcb7c8379d879d57891781275fa7435f9686cb86bd86bd76bd66bd469a76787659062796249618a60b25e875a6259835351532a531550994e159d6c7e43787c68da670b5d2962c25f7f5f174f5bf96796f08cc182ac7d1b7cde7c8976c6711a6c7e6610626e61a45fff596e595458b356745429520653179ce799d99644961c91dc90e88dba8d748cfb8ce68ca08a0383a982998240819a815181507f367c3f7b2672366ea56d6e65a765776276f9665e9c5bcc5b755b5a000000000000000000000000000000000000000000000000000000000000000000000000000000000000000000000000000000000000000000000000000000000000000000000000000000000000000000000000000000000000000000000000000000000000000000000000000000000000000000000000000000000000000000000000000000000000000000000000000000000000000000000000000000000000000000000000000000000000000000000000000000000000000000000000,
   0xf96a6714f969524a9e9d99df98fc90aa8fad8d668cdc8b1d8a5e8a5088df86c784d1838e820d80867d727d177be979c179607940793e7802734570096e236cd76c996b7b68ad67fb67f665af659c6368601d5f995e2b5df35c045bfa5beb5a11596258eb56db55e3550653f853f250ff4fdf4f7f4f3c4f3a4ed54e9b4e8b4e4d9a0180586c376191983b8cd38ca773ad725d70156ff16d5c6baf6ab3658c5f6c5b2a56ac9f3b98db975e91198cbb8b6c8ab988e8871a83f281c2813e000000000000000000000000000000000000000000000000000000000000000000000000000000000000000000000000000000000000000000000000000000000000000000000000000000000000000000000000000000000000000000000000000000000000000000000000000000000000000000000000000000000000000000000000000000000000000000000000000000000000000000000000000000000000000000000000000000000000000000000000000000000000000000000000,
   0x7f727dd67d6e7b6e745e728068f2681666f866d96691654d637f629260555f905eb65e8f5dbc58fb58857b19f96d7525751f727282727d227a61f96c55c78cfd74bd585e971c8cde8c618a7389f488f37fd47bb1796576f872c07240723d6e586a61685160f35ec25ea05e8a5e385ce05c195b40561755aa5546511f50cf50b74e0a98af92126f8163f7886b8518829f6e1768ee6749f96b4e0985a9715e6bba64924e7797309178849c7b97759d752373ca6c5565635c71522a5098000000000000000000000000000000000000000000000000000000000000000000000000000000000000000000000000000000000000000000000000000000000000000000000000000000000000000000000000000000000000000000000000000000000000000000000000000000000000000000000000000000000000000000000000000000000000000000000000000000000000000000000000000000000000000000000000000000000000000000000000000000000000000000000000,
   0x7b6c770176db73f97329665f661f621060fa60275bac59d357cef96e71ee6d89651d965d95838d0d87fe7e966bb266b952619f6796ea8aaa8a2d893b859b820c6e2b6d296cc469545c5153689bae994d9425929190788de38a7587ec861a823981b3817a7fa87e557dda79aa766c74bf748774447401717d6e3265cb657e62475ba35b0b5584514850ca4ed9932b91cb84c678a977f36f5f6dc56c5067906673661460dc5e2d596d59159f209ecd92e4901d8a93897f85af821280e5000000000000000000000000000000000000000000000000000000000000000000000000000000000000000000000000000000000000000000000000000000000000000000000000000000000000000000000000000000000000000000000000000000000000000000000000000000000000000000000000000000000000000000000000000000000000000000000000000000000000000000000000000000000000000000000000000000000000000000000000000000000000000000000000]
def uhcRows6 : List Nat :=
  [0x61015e255cc05cab5b885ac258fd578256da55fd53d74fee91d788709396788e7051f9705237980c90018aa68a1f6dde677e609a5b8b738798e1905c84c0640d5dfd5b6b901f8d168b167e8c7c9f6d91675f5c6c4fd79a3797f692b790b59061900d8a348607856d852c7d397d207c2b7be07b117619758e758f752671d270a4701f6eaf6d886cbc68b3662d6414638362405de25c115c0f5bb55851562f53ec8cb0f96f7d307b397a056d176b7252e24e1691928aa0816580728056000000000000000000000000000000000000000000000000000000000000000000000000000000000000000000000000000000000000000000000000000000000000000000000000000000000000000000000000000000000000000000000000000000000000000000000000000000000000000000000000000000000000000000000000000000000000000000000000000000000000000000000000000000000000000000000000000000000000000000000000000000000000000000000000,
   0x5d275d0792658ff08853620c99b49806931e91878ac48a62856384f48340821c81237d147b4d77ac76fe73e36df36d356b896a53696f681265ec60425faa5f875de183fd808574b97421719f6f5a6dd15bbf5b705919587e53d49b1a9ad399969808970096d696a896a7968b92b99296916c908390428f388b908ab0889685ea84da8490833181297f9e7e617dac7d8f7cb97aea7a5779c07761762674b27407737872e971e76f316d196c346b8a6a3965786536641c6388624b620d000000000000000000000000000000000000000000000000000000000000000000000000000000000000000000000000000000000000000000000000000000000000000000000000000000000000000000000000000000000000000000000000000000000000000000000000000000000000000000000000000000000000000000000000000000000000000000000000000000000000000000000000000000000000000000000000000000000000000000000000000000000000000000000000,
   0x6c815fc35c0b5be960895be65ba459318fc5f9718f9b8eab8a0a870385ce85aa839881e3814e7d33795e753371fc666865b0613c5bb85a20547b4fe14f814f3898fe98df8efe8b5887557bd271846e5c6b96690d62ed606f5f0f5bd457f48c7a8c558ae18a698a66899684cd84947fc5793a77e2731c67f467be6642662f65bd60435f115e025c4d5c4e5c385aa459cb563653194f8d965e88057e696607627f534752dd50e74e584e1e897289367fd262fe6fd58768819d745f5d69000000000000000000000000000000000000000000000000000000000000000000000000000000000000000000000000000000000000000000000000000000000000000000000000000000000000000000000000000000000000000000000000000000000000000000000000000000000000000000000000000000000000000000000000000000000000000000000000000000000000000000000000000000000000000000000000000000000000000000000000000000000000000000000000,
   0x984d814b7e0a6db26396627c538497449698827e788d6daf66d6611b5d1657c354c053939d2679e76b83663b600f592e4ef09d2872ce62bc58d395c783f4764c66975eb55dd65ca9553595bc8ecb8b0165a19b9f9854978d96c1773c6848664f63095cb85b899f779c10984e935491026e256a0263e1611560e15e445dbd5cb3580a9d5d9d09991396c5963f8a1d885986fe83aa82bd725962115ce85a25555e51524fc44e9e6c0f96d9f97353414ec08af682af751a700b6df1f972000000000000000000000000000000000000000000000000000000000000000000000000000000000000000000000000000000000000000000000000000000000000000000000000000000000000000000000000000000000000000000000000000000000000000000000000000000000000000000000000000000000000000000000000000000000000000000000000000000000000000000000000000000000000000000000000000000000000000000000000000000000000000000000000,
   0xf9825982f981f980f97f4f594e885186696d5daa6df963a9594456b4513c4ffa86165b7c8afa8a0071095f665830504381c66a8d629161b651049f6c9b5a99ad8a9e79a676006f0165bc5fa15704990af97e967d91c08b93f97d8944f97c7f8af97b7a7079b3760d75d2716c70016d0b6a23694af97a6698656d651863da60595b4358e4f979f9784f6ff9778e8d85e584bb846f82e57d04f976f9755f3191cef9748036723a693063f660f9591c51b6503b4e5f9e1a9daf7f4c6afb000000000000000000000000000000000000000000000000000000000000000000000000000000000000000000000000000000000000000000000000000000000000000000000000000000000000000000000000000000000000000000000000000000000000000000000000000000000000000000000000000000000000000000000000000000000000000000000000000000000000000000000000000000000000000000000000000000000000000000000000000000000000000000000000,
   0x82d2827674307130708ef9a567d3f9a4f9a3f9a253ad95b1f9a1f9a071b1f99f6d856085f99ef99df99c9cf6f99b925bf99af999f9988edf884df9977e2ff9967de37b75f995786f784ff99471d571c3f9937159713670dff9926f146df56d936d8e6cbf6c87693df991633b6350f990f98f5ef6f98e5bb45a1f59f8582756a59a5b9006f98d8b6f7e7975abf98cf98b66135f7957dff98a4ea6f989f988f9879918f9868f5d8f3f833982458207f985791674b5f9846c5d6b5ff983000000000000000000000000000000000000000000000000000000000000000000000000000000000000000000000000000000000000000000000000000000000000000000000000000000000000000000000000000000000000000000000000000000000000000000000000000000000000000000000000000000000000000000000000000000000000000000000000000000000000000000000000000000000000000000000000000000000000000000000000000000000000000000000000,
   0x6fb36c5a68a7666465ff655661caf9b9609f5be45a1b596758ba586255da5433543e534850b24fc94f0d4e9498109713f9b892b3f9b78c6b8b7d8a6388d4f9b6860285dd82ae7a62777f730a6fca6c6d66f353e15208f9b5502a4e42f9b4f9b39719f9b29348f9b18fce8a6082f1f9b0f9af7e937a4e76c874d4f9ae745bf9ad737071df7150702f701b6fda6f416e366cf36c3869ae6979668e6620f9ac5f715db8f9abf9aa584bf9a9f9a8844971c1f9a766c49e7d9ae595bbf9a6000000000000000000000000000000000000000000000000000000000000000000000000000000000000000000000000000000000000000000000000000000000000000000000000000000000000000000000000000000000000000000000000000000000000000000000000000000000000000000000000000000000000000000000000000000000000000000000000000000000000000000000000000000000000000000000000000000000000000000000000000000000000000000000000,
   0xf9c1746471fff9c06a48f9bf66dcf9be64fe6493641662d75da2f9bdf9bc5be559da5996592d582f51f950e5f9bbf9ba754f73255dcd5d6c591677ee6b6a5a03502d738b6c6a678965fa5f8066f09811962e8c4c839e815581187feb7de97897742c741373a96d63690068a15b9b5b8c5a498a1b877886d981e57aaa7aa974e66e26995496cd90957fc17670751574ee64c158c55140860a7e157a69761f74656eab923a738973446c835c4b9f079c328aa487087b7d735271ac70cf000000000000000000000000000000000000000000000000000000000000000000000000000000000000000000000000000000000000000000000000000000000000000000000000000000000000000000000000000000000000000000000000000000000000000000000000000000000000000000000000000000000000000000000000000000000000000000000000000000000000000000000000000000000000000000000000000000000000000000000000000000000000000000000000,
   0x855382b8801871896f906b9e6a52f9c54e91980a90c17a36715c682f663165ed5f6752d696e996e8968591ea90f590478fc2865e85d5828b7fbd7d0679b97991795076c274407397725b65f46182611a5c245bd35b8753f353cb53c8512a50764f514e8ef9c493de93948e0a84c983388073752c7528746271946eb66e676d8c699561425eb85bb9588957c752c7519750ad4fd18fb189257e1f6d746b32617e99529080f9c390598b20898187eff9c2817080007e5e7e477aaf7a88000000000000000000000000000000000000000000000000000000000000000000000000000000000000000000000000000000000000000000000000000000000000000000000000000000000000000000000000000000000000000000000000000000000000000000000000000000000000000000000000000000000000000000000000000000000000000000000000000000000000000000000000000000000000000000000000000000000000000000000000000000000000000000000000,
   0xf9cb6e38f9ca6d276cb969626961f9c967da67d4f9c86709653863c46109610860df60a05ebe5e7d5e7c5ba55b7a55a9552ff9c7516a51124f914e739b4f97cb90558b028918885b875f853f8466840e80c37def744b72326e2d669061705c095a0159d4570d537150de50494f4d925e8d8a67089d1b98589662f9c690608f45888182d17457733f72306e906e726d396c8563f4613f60285bc35ac45a9b57a35712571354e1539f514396c4718a4e909b31851a97fb96f29695904b000000000000000000000000000000000000000000000000000000000000000000000000000000000000000000000000000000000000000000000000000000000000000000000000000000000000000000000000000000000000000000000000000000000000000000000000000000000000000000000000000000000000000000000000000000000000000000000000000000000000000000000000000000000000000000000000000000000000000000000000000000000000000000000000,
   0x8abc886387fb858f82647fa977e375916bc5690564ec61ff610f5b9c5100501a4f9d9df981ba61c951dd90916ce363d698ee97f39670852d6deb541f4e5996b192808abe6bb76147606957a0f9dc878d7d68701c620e807ff9dbf9daf9d9f9d8958f9217f9d78d0780e473a76f64f9d6f9d55c39596b5141f9d4f9d380b280896bd3f9d25809f9d1f9d0936e91c99149907a903e904a8e428e308aed8adb8a9888d5843881fe7dadf9cff9ce7652f9cd7531745cf9cc733773366fe1000000000000000000000000000000000000000000000000000000000000000000000000000000000000000000000000000000000000000000000000000000000000000000000000000000000000000000000000000000000000000000000000000000000000000000000000000000000000000000000000000000000000000000000000000000000000000000000000000000000000000000000000000000000000000000000000000000000000000000000000000000000000000000000000,
   0x534451658cc3834ff9f67a14f9f5f9f4604159d9598a58ec4efb99b993b090386ea265e558f94f7e4f5a4e00f9f3f9f29777976df9f18a8d8693f9f083357d6af9eff9ee6e6e5fcd5f155bc559fb56e054bdf9ed537052034ec14eba8b1a7ffc7fcc7fca76ca7037f9ecf9eb990c98f4f9eaf9e990878cb38cbdf9e8f9e7835182e180848033800cf9e679fbf9e575cd7570f9e473e5723ef9e3f9e2f9e1f9e060215f5b5f1b5df2f9df59e85937f9def9dd4f0a4ee54e8c91ab8b70000000000000000000000000000000000000000000000000000000000000000000000000000000000000000000000000000000000000000000000000000000000000000000000000000000000000000000000000000000000000000000000000000000000000000000000000000000000000000000000000000000000000000000000000000000000000000000000000000000000000000000000000000000000000000000000000000000000000000000000000000000000000000000000000,
   0x957791ac8d1388dd85cf85948523846c838a81e781df81787ca77ae0748b7350f9fa72466f3f6b0c6aa36a1f675666b2638c5f355e845e335c07596c58ef58bb583453204ed74e0896dc88367c2a7bb46f5b66ab5c9176de6f7a6b9868e75b719d7296c0914c828d7dbd723570b8707c662865ab56bc52fa4f5c96cc8cc78aee85c98517832881ea80057d2b78c175b574f77386716e70996ecb614860635b5c5b575b5059ff59c954a8523a4ed482bf5b5552694ecdf9f9f9f8f9f7000000000000000000000000000000000000000000000000000000000000000000000000000000000000000000000000000000000000000000000000000000000000000000000000000000000000000000000000000000000000000000000000000000000000000000000000000000000000000000000000000000000000000000000000000000000000000000000000000000000000000000000000000000000000000000000000000000000000000000000000000000000000000000000000,
   0x6fb16c086bbf68136230609b5edb5c555c085960587c5861526a524d5178516850b34f7a4f4393d190698ff98fea8e5f8de18d648cca8b2b837b7fdf7e3e7c4d7b1b7a4d7684f9fb72c46ef4657564585bc25ae1540a52e39f5f96ce90b890198e878caf8a5b85f7845783f982e77d357bb875bd732a72d96e1a6cae6a17696e677562b55e9559d0548051324f4e4f47931a8acd7b8f722d9f4e9f4b8f098ca188c17e21707d6ed36e3d6893683d6750624d5bb0572854c9518d969c000000000000000000000000000000000000000000000000000000000000000000000000000000000000000000000000000000000000000000000000000000000000000000000000000000000000000000000000000000000000000000000000000000000000000000000000000000000000000000000000000000000000000000000000000000000000000000000000000000000000000000000000000000000000000000000000000000000000000000000000000000000000000000000000,
   0x97569706932092cc926691d8914a912d8c9e8aea8a0282477d8e7cbe7a7d7a0b798e7887775b753a73fd738e70a1701e6e5e6e1f6de86dc06c406b636a89696867fe6678667665cc6574653f633a60c55f815ef75ead5e405b9a59c354485075505c4ead4e954e018776647a63a59ede9b8e97117c9870b96f385e975cbe53607d767bc07aca76646d596298622a5207991e986b985a96fb942b93229293923f8f498f3e8a6e7e8f7bc67bad7b8b7b4c76727551753875307420714e000000000000000000000000000000000000000000000000000000000000000000000000000000000000000000000000000000000000000000000000000000000000000000000000000000000000000000000000000000000000000000000000000000000000000000000000000000000000000000000000000000000000000000000000000000000000000000000000000000000000000000000000000000000000000000000000000000000000000000000000000000000000000000000000,
   0x816b7e317d9c7d427a2e742e6dd968d5616b60b05f9e5b975027731d62d953525c0a5b5893c38db37c0765cf9ce596d5963b91e3906d90208e818d998abf8a5486a485fb80877e707d447cdf7c977a957a2079df795a7956773a74aa722a71e571676f6e6f1569fd68d7689d671d66f966fa664165e964cd63aa5f6b5f14563252a951cb51464fce9f4a984c973d969b9664918d8e448af888fd85ba81cd7b2c796d6fdf68af63d0608c5f1f5e1d5824557c529152369f0e9802975c000000000000000000000000000000000000000000000000000000000000000000000000000000000000000000000000000000000000000000000000000000000000000000000000000000000000000000000000000000000000000000000000000000000000000000000000000000000000000000000000000000000000000000000000000000000000000000000000000000000000000000000000000000000000000000000000000000000000000000000000000000000000000000000000]
def uhcRows7 : List Nat :=
  [0x53ea4e4b8d088b4984b87e5275c7751170dd62ef66fe618e589e847a6c41696b6adb537d91cd88464ef24e2d830199ff96cb9075902188227ae3756f710c6fec6e966d5a6a3d66595cfb5bef57c851c651014fca7ca57af999d094449152914e90318f338e8a8d708a858a3b86db821f7da27d2c7d027c4c758773e070b76f8d6e4a6d326ce8682a67f16731665d5eda5dde5b99594f55fe5468546a80c459dd505a4f8f4f4f4e3b7f6a632b5ea75de657504f509418937e8e358e2a000000000000000000000000000000000000000000000000000000000000000000000000000000000000000000000000000000000000000000000000000000000000000000000000000000000000000000000000000000000000000000000000000000000000000000000000000000000000000000000000000000000000000000000000000000000000000000000000000000000000000000000000000000000000000000000000000000000000000000000000000000000000000000000000,
   0x8f2f7ddd6f5757f7f9fd6715659f8fed8dcc8cea86ed81a37a9279e975be74c6684e5e195ac959ea53f14f8497079673966393ad90328fb08eeb8cd18a3a8897852f81fb7e1d7e0979e6778b771e76e175b9755b74a1746873cd6eb16d256b84699b686d664b66496422632f587555d4550780777e547a377a1976f490728dbe8d04f9fc8a8c871882b7829d81f3810280a27d1979577949782577e56f2c6c9a6c606b6267b3679d667a65e8652f646f630763015fd75740573054ab000000000000000000000000000000000000000000000000000000000000000000000000000000000000000000000000000000000000000000000000000000000000000000000000000000000000000000000000000000000000000000000000000000000000000000000000000000000000000000000000000000000000000000000000000000000000000000000000000000000000000000000000000000000000000000000000000000000000000000000000000000000000000000000000,
   0x7b5667f5518a91f591c7852183dc7db5782663a15f695be85bc057f050b584bc83d6825981397a93762173166f326ec469cd66a26636660c655e61345f705ee05a3c55315275502150098b968b927ad965ac61fa61596158587953c350ed7d2e672d64e65bdf5239994c9910947d8d0a8b9a7e987cb27e827c127ac474da74a871e66faf64b09f6a947f932f7a847740643e6349906e8eca8e49f9fe7b9a78cb6b646b215dee5d6f55df53c9501f4f984e146f8461f25fb596c693f6000000000000000000000000000000000000000000000000000000000000000000000000000000000000000000000000000000000000000000000000000000000000000000000000000000000000000000000000000000000000000000000000000000000000000000000000000000000000000000000000000000000000000000000000000000000000000000000000000000000000000000000000000000000000000000000000000000000000000000000000000000000000000000000000,
   0x68a262db6284619454e8527f521d9ad4905e902e8ae67de06eef6d9566ff5243fa009bd697518acb83c1807d6df866745ef38f128cbc8adc776b758a725263775e1659be581e8ac28a797c647c3d77bb751b6dfb6cbe5c1650c994358f4d8f1f7db46f8864a45fb9558654f251f897c6962195e191e790778e108ce485a6821b7a7f73946dfa6cc964c55ddd5929559853434edf96bb965f8e60810a76206ecc65a564f262d3621a617d5c3a5254f9ff501c865560bd59bb51c48cac000000000000000000000000000000000000000000000000000000000000000000000000000000000000000000000000000000000000000000000000000000000000000000000000000000000000000000000000000000000000000000000000000000000000000000000000000000000000000000000000000000000000000000000000000000000000000000000000000000000000000000000000000000000000000000000000000000000000000000000000000000000000000000000000,
   0x840381b560b48877885d87f26c965fe051459edc672e51fa7443693f662590108ef88e748e5984c47e2e7bc97b517afa795d755c4e119c0d9a3696db939a93189310919c914b91128ffd8da88acf842982bb79cb76ba6e6b6a1e6978690e63a862bd589c67005d1450ac64ae9283852580707e3d6460618160a45bf5585a53e290a867515fd65bf889f8870077d771ed56d14fc391ae918b91628d858c828549834982d5827880967a0d79d2790e7901785d712670926a35695a6912000000000000000000000000000000000000000000000000000000000000000000000000000000000000000000000000000000000000000000000000000000000000000000000000000000000000000000000000000000000000000000000000000000000000000000000000000000000000000000000000000000000000000000000000000000000000000000000000000000000000000000000000000000000000000000000000000000000000000000000000000000000000000000000000,
   0x8a17743874226fef6fc167dd666b64e2fa026258fa01577c55445353502c99dd99b1964082356955673662d6625360f059a558ae553e54a44ed65feb7a3179e487c4937c91dd7827741b6d786c8867955be24fb56f0667d24e0389aa98ed52c552479f5299b396c98f1c86a981f47f6e7dfb7dc77a497a1a766175f475d471be6dc46cbb689460655e5f5cd955e450244f885c646e2c60fb53a04ec450749df29a5f91898da381ed8106805a7fe0708a5c315a365634543953d68d05000000000000000000000000000000000000000000000000000000000000000000000000000000000000000000000000000000000000000000000000000000000000000000000000000000000000000000000000000000000000000000000000000000000000000000000000000000000000000000000000000000000000000000000000000000000000000000000000000000000000000000000000000000000000000000000000000000000000000000000000000000000000000000000000,
   0x92118fa68ca974e37248677f5742522498178ddb82ad7f7778347436722c6d3e6ce2677764fa64ad628a5df45a46576195d67279615d9b2a900f629559ac5957507898399000892a817f69cc5806901a7d717b5275dbfa056876615f8a0e571f5410514e650464916fa464c7fa0498b190b08dc682d480ce7b1e6cf06c706b86614b6020592a53f0514c8569fa036e6f5e115b9569bb642d58548caa803d770863a2812b596a8a957dbb70ad70586b4e619a5f485766560654519438000000000000000000000000000000000000000000000000000000000000000000000000000000000000000000000000000000000000000000000000000000000000000000000000000000000000000000000000000000000000000000000000000000000000000000000000000000000000000000000000000000000000000000000000000000000000000000000000000000000000000000000000000000000000000000000000000000000000000000000000000000000000000000000000,
   0x9a4398c498c78c798868796874e26f026a19675361535f6a527d4ff5fa077206701166dd66b45e459b9198fd92ea900b8912888d84b2846182de812f80de783275b16d666ce1fa06635562b1629b60165e03570354fa5486530f530d53054f48965b9589853d80ba65835f0a5ee25e635b1654208a55840d67b05e73576a8cb69a1997ad904d7fe97de87bc772476241504f4fbf610e81a870f96f8e5f6d8c9d89877a1772fd724c6d7f6c9b6557609655044f69634c53ed516b962a000000000000000000000000000000000000000000000000000000000000000000000000000000000000000000000000000000000000000000000000000000000000000000000000000000000000000000000000000000000000000000000000000000000000000000000000000000000000000000000000000000000000000000000000000000000000000000000000000000000000000000000000000000000000000000000000000000000000000000000000000000000000000000000000,
   0x822a809b7f386e2f6c866841676d629760525df75ae659ee4f094ea2965c95d495a486e476d254c854089e799677929c82667dd86db56abb558a556354b8542b51fd8f44527297d39650959295917ff07f55701a6fa36f226c5765f1608d60685bd29db48b1486505b7858d19c15971e90508cc08766837774556cb366305ec8590f53a64f554e0b903c4e4f999d82fe7b46758b756273cc6ccc5fc55f3c53399642907f88ab76ae75b262ab5f7c99ae98a88c4a8af769537a1f54c1000000000000000000000000000000000000000000000000000000000000000000000000000000000000000000000000000000000000000000000000000000000000000000000000000000000000000000000000000000000000000000000000000000000000000000000000000000000000000000000000000000000000000000000000000000000000000000000000000000000000000000000000000000000000000000000000000000000000000000000000000000000000000000000000,
   0x578b521151444ea8983092cf83a28107810572f96d79633e5cfd593e53544fe05acc980188407a745b51986f92498ce2fa0a885282377e237d627d43774d772973fe73b9738470ab6ceb665b61f85f265cf44fd497698d6b720059559a5796aa6b478ed2737b6af661b28a31865b589f565399999957990997ff911573e656ae54114eab884c8347674f5e785016683852be9ab899ed90828ae78a7289e387f970236d77697761c85bb35b69595a579354b350554ea59805fa09fa08000000000000000000000000000000000000000000000000000000000000000000000000000000000000000000000000000000000000000000000000000000000000000000000000000000000000000000000000000000000000000000000000000000000000000000000000000000000000000000000000000000000000000000000000000000000000000000000000000000000000000000000000000000000000000000000000000000000000000000000000000000000000000000000000,
   0x7575706b6a3a5b05548c53169d3b8a0c86797d0570d86d2a6cd36c5e5f1854c47b0f60da5ffd9b42743f6e3e6df7660f5a5a9177621660d19865980093ac8c6a8b778774865f864e84bf846b82a680e17e1e7cca795c769374e0745a742572d0705d6fe96fe06f946ef86e566dcf6d696beb6667660a624862365f275cb5597d58fa58d5547c4e924e4e978b91af8e4a855966b3616760e05f57516e99a893a390a29008886187a2834a746973e9719270af705070056ece6cc25f62000000000000000000000000000000000000000000000000000000000000000000000000000000000000000000000000000000000000000000000000000000000000000000000000000000000000000000000000000000000000000000000000000000000000000000000000000000000000000000000000000000000000000000000000000000000000000000000000000000000000000000000000000000000000000000000000000000000000000000000000000000000000000000000000,
   0x6dc66d8d689f66c9658565485b5d568654ee94046a6b5b96737252838cc48aa886d4833481be7e6a736a70706fae6dee6a9c6703666661f7609460625f8a5efb56de532f9ec3968d9051875783527c277bc17687749c714c6f626ec96e5f6cc169a566446643614c613060f6604d5fa85e4c51f095ca8c41733e6ed16d3b9c259a6990847d0874b071656e19685366656b6163db60a35e7b5ba65950559a4e387a6b78bb78ba652b64f4fa0b97748ca88b418a7183ef82b179be798d000000000000000000000000000000000000000000000000000000000000000000000000000000000000000000000000000000000000000000000000000000000000000000000000000000000000000000000000000000000000000000000000000000000000000000000000000000000000000000000000000000000000000000000000000000000000000000000000000000000000000000000000000000000000000000000000000000000000000000000000000000000000000000000000,
   0x8a707fb27a0079a772a771ba71b9719966e6665e6231619861995e0c5b0959ec56cd566b559c51de50d682087fd56d3d607054386b466b3d6b208a167d075c79540375d570986b2366159ed180f86d36530851f651479df88b4e60648667756670cb643a4f119ebe8f1d8af17147668963ee5fbd5f596bc1559953498431714a668455a785a866888a1385b071fb718f710458ce586452f352db900573dd7166673d5f8c5e3f55c55589543c540e539a50194faf9a4d917580b4723b000000000000000000000000000000000000000000000000000000000000000000000000000000000000000000000000000000000000000000000000000000000000000000000000000000000000000000000000000000000000000000000000000000000000000000000000000000000000000000000000000000000000000000000000000000000000000000000000000000000000000000000000000000000000000000000000000000000000000000000000000000000000000000000000,
   0x0]
/-- EUC-KR: rows of 190 for lead bytes 0x81 to 0xFE. -/
def uhcRows : List Nat := uhcRows0 ++ uhcRows1 ++ uhcRows2 ++ uhcRows3 ++ uhcRows4 ++ uhcRows5 ++ uhcRows6 ++ uhcRows7
def gbRows0 : List Nat :=
  [0x4fa24fa14f9f4f9e4f9c4f9a4f994f984f964f954f934f924f904f8e4f8c4f8a4f874f864f854f824f814f804f7d4f7a4f794f784f774f754f724f714f6e4f6d4f6b4f6a4f684f664f624f614f564f544f524f4c4f4b4f4a4f494f484f474f454f444f424f414f404f3f4f3e4f3b4f394f374f354f334f314f2e4f2d4f2c4f294f284f234f214f1d4f1c4f164f154f144f134f124f0c4f0b4f084f074f064f054f044f034f024f004efe4efc4efa4ef94ef84ef44ef14eef4eee4eed4ee94ee74ee64ee24ee04edc4edb4eda4ed24ed04ecf4ecc4ec84ebe4ebd4ebc4eb94eb84eb74eb64eb44eb14eb04eaf4eaa4ea34e9e4e9d4e9c4e994e974e964e904e8a4e874e854e844e834e824e814e804e7f4e7d4e7c4e7b4e7a4e794e784e774e764e754e744e724e6f4e6e4e6d4e6c4e6b4e6a4e684e674e654e644e634e624e5b4e5a4e574e554e514e4a4e464e444e424e414e404e3c4e374e354e334e314e2f4e2e4e294e264e234e214e204e1f4e174e124e0f4e064e054e044e02,
   0x50bc50b950b850b750b650b550b450b350b150b050af50ae50ad50ab50aa50a650a450a250a150a0509f509e509d509c509b509a5099509850975096509550945093509250915090508f508e508c508b508a5089508750865084508350825081507d507c507a50795078507550745073507250715070506f506e506d506b506a506950685067506650645063506250615060505f505e505d505b505950585057505650545053505250515050504d504b504a5049504650455044504250415040503f503d503b5039503850375036503550345033503250315030502f502b50275024502350225020501e501d501b501750165015501350115010500e500b500a50095008500750065005500450035002500150004fff4ffd4ffc4ffb4ff94ff74ff64ff54ff44ff24ff04fec4feb4fe74fe54fe44fe24fe04fdb4fd94fd64fd54fd44fd34fd24fcd4fcc4fcb4fc94fc84fc74fc64fc24fc14fc04fbe4fbd4fbc4fbb4fba4fb94fb84fb74fb64fb44fb34fb24fb14fb04fad4fab4fa4,
   0x51d751d651d551d451d351d251d051ce51cd51ca51c851c551c351c251c151bf51be51ba51b951b851b451ae51ad51aa51a951a851a751a651a351a1519f519e519d519a51985194519351915190518f518e518b518a5187518651845183517f517e517a5172516f516a5169516751665164516351615160515f515e515d515b515951585157515351525150514f514e514c514a51475142513e513d513c513b513a5139513851375136513551345133513251315130512f512e512d512c512b512a512951285127512651255124512351225120511f511e511d511c511b511a511951185117511651155114511351115110510f510e510d510c510a5109510851055104510351025101510050ff50fe50fd50fc50fa50f950f850f750f650f450f250f150f050ef50eb50ea50e950e850e550e450e350e250e150e050df50de50dd50dc50db50d950d850d750d550d450d350d250d150d050ce50cd50cc50cb50ca50c950c850c750c650c550c450c350c250c150c050bf50be50bd,
   0x530e530c530b530a53095307530453035302530152fd52fc52fb52f852f752f652f552f452f352f252f152ef52ee52ed52ec52eb52ea52e952e852e752e652e552e352e252e152e052de52dd52dc52db52da52d952d752d552d452d352d152cf52ce52cd52cc52ca52c852c652c552c452c252c152c052bd52bc52bb52ba52b952b852b752b652b552b452b052af52ae52a752a652a552a4529c529a52995298529752965295529452925291528f528e528d528c528b528a5289528752865285528452835280527e527c527b527a527952785277527652755274527352715270526e526d526c526b526852665264526352625260525f525d525b525a525952585257525552535252524f524e524b524952485247524652455244523e523c5235523452325231522f522c522a522752265225522352225221521f521e521c5215521452135210520f520c520b52095205520451fe51f751f451f251f151ee51ec51ea51e951e851e751e651e551e351e251df51de51dc51da51d951d8,
   0x54a154a0549f549e549c5498549754935491548d548a548954885487548554835481547f547e547a547954745470546f546e546d546c546b546a546954675465546354615460545f545e545d545a5451544f544e544d544c544954475445544454425441543f543d543a5437543654335430542a542554245422541c541a541954185414540b540754055402540053ff53fe53fa53f453e753e253e153de53dd53dc53da53d553d353d253d053cf53ce53c753c653c553c453c353c053be53bd53bc53ba53b953b853b753b553b453b353b253b153b053af53ad53ac53ab53aa53a753a453a153a0539e539c539b53995397539653945393539253915390538f538e538a53885387538353815380537e537d537c537b537953765372536d536c536a53685365535d535b5359535853545350534d534c534b5346534453425340533d533c533853375336533553345333533253315330532f532d532c532b532953285327532553245322531f531e531c531b53185314531353125311,
   0x560556045603560255ff55fc55fb55fa55f955f855f655f455f155f055ee55ed55e955e755e255e055de55db55da55d955d855d755d555d055cf55ce55cb55ca55c855c755c655c355c255c155c055bf55bc55ba55b855b655b455b255b055af55ae55ad55ac55ab55aa55a955a855a655a555a455a355a255a155a0559e559b559a559755965595559355925590558e558d558c55865585557f557d557a557955745573557255715570556f556b55695568556355625560555f555e555d555b555a5559555855575554555355525551554f554e554d554c554b55485547554555425540553d553b553a553955385536553555345532552d552b55295528552655255521551f551e551d551c551a5519551855175516551555135512550e550d550c550b550a55085505550455035502550054fe54fb54f954f854f754f654f554f454f154f054ef54ec54eb54e454e354e254e154e054db54d854d654cb54ca54c554c354be54bc54ba54b954b754b654b554b254b054ae54a554a2,
   0x57115710570f570e570d570c570b5707570557025701570056fc56fb56f856f756f656f356f256ef56ee56ec56ea56e956e856e756e656e556e356dc56d956d856d656d556d356d256d156d056cf56ce56cd56cc56cb56c956c856c756c656c556c456c356c256c156c056bf56be56bd56bb56ba56b956b856b656b556b456b356b256b156b056ae56ad56ac56ab56aa56a956a856a756a656a556a456a256a156a0569f569e569d569c569b569a569956985697569656955694569256915690568d568c568b568a56895688568756845683568256815680567f567e567d567a56795678567756755674567356725670566f566e566d566756665665566356615660565f565e565d565b565a565656555653565256515650564f564b564a5649564856475646564556445643564256415640563e563d563c563a56385637563556335630562f562e562b562a5629562856265625562256215620561d561c561a561956175616561556145613561256115610560d560b560a56075606,
   0x583d583c583b583a58395838583758365834583358325831582f582e582d582c582b5829582858275826582558235822581f581d581c581b581a5818581758165814581358125810580f580e580c580a58095808580558045803580157ff57fe57fc57fb57f757f657f557f357f257f157f057ee57ec57eb57ea57e957e857e757e657e557e357e257e157de57dc57db57d757d657d357d157d057cd57cc57ca57c957c857c757c657c557c457c157c057bf57be57bd57bc57bb57ba57b957b757b657b557b357b157b057af57ac57aa57a857a5579f579e579d579c579a57995798579757965795579457915790578f578e578d578a57895788578757815780577f577e577d577a5779577857755774577257715770576e576c57675765576357625759575857565755575457535752574b5749574857465745574457435741573f573d573c5738573757365735573457325731572b5727572657255724572257215720571e571d571b571a57195718571757165715571457135712,
   0x593b59365935593359325930592c592859265923592259215920591e591d591b591859175913591259115910590e590c590b590a590959085906590559035901590058ff58fe58fd58fc58fb58fa58f858f758f558f458f258f158ef58ed58ea58e958e858e758e658e558e358e258e158e058df58de58dd58dc58db58da58d958d858d758d658d458d358d258d058cf58ce58cd58cc58cb58ca58c958c858c758c658c458c358c258c058bf58be58bd58bb58ba58b958b858b758b658b558b458b358b258b158b058af58ae58ad58ac58ab58aa58a758a658a558a458a358a258a158a0589d589c589b5898589758965895589458915890588f588e588d588c588b588a58885887588658845882587f587d587c587b587a5879587858775876587558745873587258715870586f586e586d586a586958685867586658645863586258615860585f585d585c585b585a5859585758565855585358525850584f584e584b584a584958485847584658455843584258415840583f583e,
   0x5a605a5f5a5e5a5d5a5c5a5b5a595a585a575a565a545a535a525a515a505a4f5a4e5a4d5a4c5a4b5a485a475a455a445a435a425a415a3f5a3e5a3d5a3b5a3a5a395a385a375a355a335a305a2f5a2e5a2d5a2c5a2b5a2a5a285a275a265a245a225a215a1e5a1d5a1b5a1a5a195a175a165a155a145a125a105a0f5a0e5a0d5a0b5a0a5a025a0059fe59fd59fc59fa59f859f759f659f559f459f359f259f159f059ef59ee59ed59eb59ea59e959e759e659e459e259e159e059df59de59db59d959d659d559cf59ce59cd59cc59c959c859c759c559c459c359c259c159c059bf59bd59bc59ba59b859b759b659b559b459b359b159b059ad59ac59a759a659a259a159a0599f599d599c599b599a59985995599459915990598f598e598c598b598959855980597f597e597c597b597a59775975597259715970596f596e596d596c596b596a5969596859675966596459635961595f595e595d595c595b5959595359525950594d594c594a5946594559435940593f593e593d,
   0x5b475b465b455b445b435b425b415b3f5b3e5b3d5b3c5b3b5b3a5b395b385b365b355b335b315b305b2f5b2e5b2d5b2c5b2b5b2a5b295b285b275b265b255b245b235b225b215b205b1f5b1e5b1d5b1c5b1b5b1a5b195b185b155b145b135b125b115b105b0f5b0e5b0d5b0c5b0b5b0a5b085b075b065b055b045b035b025b015b005aff5afe5afd5afc5afb5afa5af95af85af75af65af55af45af35af25af05aef5aee5aed5aec5aea5ae85ae75ae55ae45ae25adf5ade5add5adb5ada5ad95ad75ad55ad35ad15ad05acf5ace5acd5acb5aca5ac85ac75ac65ac55ac45ac35ac05abf5abd5abc5abb5aba5ab95ab75ab65ab45ab15ab05aaf5aae5aad5aac5aab5aa95aa85aa75aa65aa55aa45aa35aa25aa15aa05a9f5a9e5a9d5a9c5a995a985a975a965a955a945a935a915a905a8f5a8e5a8d5a8c5a8b5a8a5a895a885a875a865a855a845a835a825a815a805a7e5a7d5a7c5a7b5a795a785a735a725a715a705a6f5a6e5a6d5a6c5a6b5a695a685a665a655a645a635a61,
   0x5ca85ca75ca65ca55ca45ca15ca05c9f5c9e5c9d5c955c935c925c8f5c8e5c8b5c8a5c895c875c865c855c845c835c805c7e5c7d5c7c5c7b5c785c775c765c755c745c735c725c705c6d5c6c5c6b5c6a5c695c685c675c645c625c5f5c5d5c5c5c5b5c5a5c585c575c565c545c535c525c4d5c4c5c475c465c445c435c375c365c355c335c325c305c2f5c2e5c2d5c2b5c2a5c295c285c265c235c215c205c1f5c1e5c1b5c195c175c135c125c105c0e5c0d5c0c5c0b5c085c075c055c035c025c005bfe5bfd5bf75bf65bf55bf45bf35bf25bf15bef5bed5bec5beb5bea5be95be75be65be35be25be05bdc5bdb5bda5bd95bd85bd75bd65bd55bd45bd15bcf5bce5bcd5bcb5bca5bc95bc85bc35bc15bc05bbc5bbb5bba5bb75bb25bb15baf5bae5bad5bac5ba95ba85ba75b9f5b965b945b925b915b905b8e5b8d5b8a5b865b825b7f5b7e5b7c5b7b5b795b785b775b765b745b725b6f5b6e5b6d5b6b5b685b675b615b605b5e5b565b525b4f5b4e5b4d5b4c5b4b5b4a5b495b48,
   0x5da05d9f5d9e5d9c5d9b5d9a5d985d975d965d955d945d935d925d915d905d8f5d8e5d8d5d8c5d8b5d8a5d895d885d875d865d855d845d835d815d805d7f5d7e5d7d5d7c5d7b5d7a5d795d785d775d765d755d735d725d715d705d6e5d6d5d6a5d685d675d665d655d645d635d625d615d605d5f5d5e5d5c5d5a5d595d575d565d555d545d535d525d515d505d4f5d4e5d4d5d495d485d465d455d445d435d425d415d405d3f5d3c5d3b5d3a5d395d385d375d365d355d335d325d315d305d2f5d2c5d2b5d2a5d285d255d235d225d215d205d1f5d1d5d1c5d1a5d195d185d175d155d135d125d115d105d0f5d0d5d0c5d0b5d0a5d095d085d055d045d015d005cff5cfe5cfd5cfc5cfa5cf95cf85cf75cf65cf55cf45cf35cf25cf15cef5cee5cec5ceb5ce95ce75ce35ce25ce05cdf5cde5cdd5cdc5cdb5cda5cd85cd75cd65cd55cd45cd35cd15cd05ccf5cce5ccd5ccc5cca5cc95cc85cc75cc65cc55cc35cc25cc05cbe5cbc5cbb5cba5cb95cb65cb45cb25cb05caf5cae5caa,
   0x5ec55ec45ec35ec25ec15ec05ebf5ebd5ebc5ebb5eba5eb45eb25eb15eb05eaf5eae5eac5eab5eaa5ea95ea85ea45ea35ea25ea15e9d5e9b5e985e925e8e5e8d5e8c5e895e885e855e835e825e815e7e5e795e775e755e715e705e6f5e6e5e6d5e6c5e6b5e6a5e695e685e675e665e655e645e635e605e5f5e5d5e5c5e5a5e595e585e575e565e535e525e515e505e4f5e4e5e4d5e4b5e4a5e495e485e475e465e435e415e405e3f5e3e5e3a5e395e365e355e345e335e325e305e2f5e2c5e2b5e2a5e295e285e255e245e235e225e215e205e1f5e1e5e175e135e125e0e5e0d5e0b5e0a5e095e075e045e005dff5dfc5dfb5dfa5df95df85df65df55df05ded5dec5dea5de45de35de05ddf5ddc5dda5dd95dd85dd75dd65dd55dd45dd35dd25dd15dd05dcf5dce5dcc5dcb5dca5dc95dc85dc75dc65dc45dc35dc25dc15dc05dbf5dbe5dbd5dbc5dbb5dba5db95db85db65db55db45db35db25db15db05daf5dae5dad5dac5dab5daa5da95da85da75da65da55da45da35da25da1,
   0x60075ffc5ffa5ff95ff75ff65ff45ff35ff25ff05fef5fec5fe95fe85fe65fe55fe35fe25fdf5fde5fdc5fdb5fda5fd55fd45fd35fce5fcb5fca5fc85fc75fc25fc15fc05fbf5fbe5fbb5fba5fb95fb85fb65fb45fb35fb25fb15fb05faf5fac5fab5fa95fa75fa65fa55fa45fa35fa25fa05f9f5f9e5f9d5f9b5f9a5f965f945f935f915f8f5f8e5f8d5f865f835f7f5f7e5f7d5f7a5f785f765f755f745f725f6f5f6e5f6b5f685f675f655f635f605f5f5f5e5f5c5f5b5f5a5f595f545f515f4f5f4e5f4d5f4c5f4b5f4a5f495f485f475f465f455f445f435f425f415f3f5f3e5f3d5f3b5f385f375f365f355f345f335f325f305f2e5f2c5f2b5f285f245f235f225f215f1e5f1d5f1c5f1a5f195f165f145f125f105f0e5f0d5f0c5f095f075f065f055efd5efc5efb5ef95ef85ef55ef35ef25ef15ef05eef5eee5eed5eec5eeb5ee95ee75ee65ee55ee45ee35ee25ee15ee05edf5ede5edd5edc5eda5ed95ed85ed75ed55ed45ed05ecf5ece5ecd5ecc5ecb5ec85ec75ec6,
   0x6146614561446143614261416140613e613d613c613b613a6139613861376136613561346133613261316130612f612e612d612c612a61296128612561226121611e611d611c611b611961186117611661146113611261116110610c610b610a6107610561046103610260ff60fe60fd60fc60fb60f860f760f560f260f160ea60e560e460e360e260e160de60db60d960d760d660d460d360d260d060cf60ce60cd60cc60c960c860c760c460c360c260c160c060bf60be60bd60ba60b960b760b660b560b360b060ae60aa60a960a760a560a460a260a1609e609c6099609860976095609360916090608f608e608b608a6088608760866085608260816080607e60776075607460726071606e6066606560616060605f605e605c605b605860576056605460536051604f604e604c604a6049604860476046604560446040603e603d603a603960386037603660346033603260316030602e602d602c602460236022601f601e601a60186017601360116010600c600b60096008]
def gbRows1 : List Nat :=
  [0x624a6246624562446242623c623b623a6239623862366235623262316230622f622d622b622962286227622662236220621e621d621c6219621462136209620762056204620362026201620061fe61fd61fc61fb61fa61f961f861f761f661f461f361f261f161f061ef61ee61ed61ec61eb61ea61e961e861e761e561e461e361e261e161e061df61de61dd61dc61db61da61d961d861d761d661d561d361d061cf61ce61cd61cc61c961c761c661c561c461c361c161c061bf61bd61bc61bb61ba61b961b861b661b561b461b361b261b161b061af61ae61ad61ab61aa61a661a561a461a361a261a161a0619f619e619c619b619a619961986197619661956193619261916190618f618d618c618a6189618861876186618561846183618261816180617f617e617d617c617b617a6179617861766174617361726171616f616e616d616c616b616a6169616661656164616361616160615f615e615c615b615a61596158615761566154615361526150614f614d614b61496147,
   0x63c063bf63bd63bb63b963b663b563b263b163af63ab63a663a463a1639f639e639d639c639b639a639963976395639463936391638d638b63866385638463836381637f637e637d637c6379637863756374637363726370636f636c636b636a63686366636563646360635d635c635b635a63596358635763566354635363526351634a63486347634463416340633f633e633c633b63386337633663356334633363316330632e632d632c632963276326631c63196318631763156314631363126310630f630d630c630b630a6306630563046303630062fb62fa62f962f862f562f262f062eb62ea62e462e162e062de62dd62d562d162cf62cb62c362c162c062be62ba62b862b762b662b462b362b262b062af62ae62ad62aa62a962a762a662a3629e629d629c629962946290628f628e628d628c628b6288628762866285628362826281627d627b627a627862776275627462726271626862656264626262616260625f625e625d625c625a62596257625662556250624f,
   0x64da64d964d664d564d464d364d164cf64cc64cb64ca64c964c864c764c664c464c364c164bf64be64bd64bb64b964b664b464b364b264b164af64ab64aa64a864a764a664a564a364a264a164a0649f649d649c649b649a64986497649464936490648f648e648d648c648b648a648964886486648364816480647f647e647d647c647b64776476647564746473647264716470646f646e646c646b646a64686466646564646463646264616460645f645d645c645b645a6459645764566455645364516450644f644e644d644c644b6449644364426440643e643c643b643964386437643664356433643264316430642f642e642b6429642864276425642464236422641f641d641a6419641864176416641564126411640e640d640a64096408640764066404640363fe63fc63fb63fa63f963f763f563f363f163f063ef63ee63ec63eb63e863e763e663e563e463e263df63dd63dc63db63da63d963d863d763d563d463d363d163cc63cb63ca63c863c763c563c363c263c1,
   0x65eb65ea65e465e365e165df65de65dd65dc65db65da65d965d865d565d465d365d165d065cd65ca65c965c865c765c265c065bf65be65bb65ba65b865b765b665b565b465b365b265b165ae65ac65aa65a865a665a365a265a0659e659d659a65986596659565946592658f658e658d658a658965886586658565846583658265816580657f657e657d657c657b657a657965786576657565736571656f656e656d656a6569656865676565656465616560655f655c655a655865576554655365526550654e654d654b654a6547654665446543654265416540653d653c653a65376533653265316530652d652c652a652965286527652665246523652265216520651f651e651d651c651b651a65196517651665156514651365116510650f650e650d650c650b650a6508650765066505650465036502650164ff64fe64fd64fc64fb64fa64f964f864f764f664f564f464f364f264f164f064ef64ee64ed64ec64eb64ea64e964e864e764e564e364e164e064df64dd64dc64db,
   0x67036702670166fd66fb66fa66f866f666f566f166ef66ee66ed66ec66eb66ea66e866e766e566e466e366e266e166e066df66de66da66d866d766d666d566d466d366d266d166d066cf66ce66cd66cc66cb66ca66c966c866c766c666c566c466c366c266c166c066bf66bd66bc66bb66ba66b866b766b666b566b366b266b166b066af66ad66ac66ab66aa66a966a666a566a466a366a266a166a0669f669e669c669b669a6699669866956694669366926690668f668e668d668b668a6689668866866685668366816680667f667d667c667b667966786675667366726671666d666c666b666a666966676665666366626660665e665d665c665b6659665866516650664e664d664a66496648664766466645664466426640663f663d663b663a663966386637663366326630662e662c662b662a662966266624662366226621661e661c661b661a661866176616661266116610660d660b66096608660766056604660165ff65fe65fd65fc65fb65f965f865f565f465f365f2,
   0x685b685a68596858685768566852684f684d684b6847683f683b683a68366835683468316830682f682e682d682c682b68286827682668256824682368226820681f681e681c681b681a681968186815681468126810680d6806680468036802680167fe67fc67fb67fa67f967f867f767f667f567f267ee67ed67eb67ea67e867e767e667e467e367e167df67db67d767d667d567ce67cd67cc67cb67ca67c967c867c767c667c567c267c067bf67be67bd67bc67bb67ba67b967b467b267b167ae67ac67a967a667a467a167a0679f679b679967966794679367926791678f678e678d678c678a678867866785678367826780677d677b677a67796778677667746771676e676c676b67676766676467636762675d675b675a675967586757675567546752674d674b674a6747674567446741673f673e673c673b6739673867376736673367326730672e67296727672567246723672267216720671e671c671a671967186716671367126711670f670e670c6707670667056704,
   0x695f695c695b69596958695669556953695269516950694f694e694d694c694b694a694969486947694669456944694369416940693e693c693b693a6938693769366935693369326931692f692e692c692b692a69296928692769266925692369226921691e691d691c691b691a69196918691769166915691469136911690f690c690a6909690869076906690469036902690068ff68fe68fd68fb68f868f768f668f468f368f268ef68ed68ec68eb68ea68e968e868e768e668e568e468e268e168df68de68dd68dc68db68d968d768d668d468d368d168d068cf68ce68cc68ca68c868c768c668c568c468c368c168bf68be68bd68bc68bb68ba68b968b868b768b668b468b268b168ae68ac68ab68aa68a968a568a468a368a168a0689f689e689d689c689b689a68996898689668956894689268916890688e688d688c688b688a688968886887688468826880687f687e687d687c687b687a6879687868756873687268716870686f686e686d686c686a685f685e685d685c,
   0x6a5a6a576a566a556a546a536a526a516a4f6a4e6a4d6a4c6a4b6a4a6a496a486a466a456a436a426a416a406a3f6a3c6a3b6a3a6a396a386a376a366a346a336a326a306a2e6a2d6a2c6a2b6a296a276a266a256a246a236a226a206a1e6a1d6a1c6a1b6a1a6a196a166a156a146a136a126a116a106a0f6a0e6a0d6a0c6a0b6a096a086a076a066a056a046a036a026a016a0069fe69fc69fb69fa69f969f869f769f669f569f469f369f169f069ef69ee69ec69eb69ea69e969e869e769e669e569e469e369e269e169de69dd69dc69da69d969d869d769d669d569d369d269d169cf69cd69cb69c969c869c769c669c569c469c369c269c069bf69be69bd69bc69ba69b969b869b669b569b369b269b069af69ae69ac69aa69a969a669a569a469a369a269a169a0699f699e699d699a6999699769966993699269916990698f698e698c698b698a698569836981697f697e697d697b697a697669756974697369726970696f696d696c696a6969696869676965696469626961,
   0x6b2e6b2d6b2c6b2b6b2a6b296b286b266b256b1f6b1e6b1d6b1c6b1b6b1a6b196b186b176b166b156b146b136b126b116b106b0f6b0e6b0d6b0c6b0b6b0a6b096b086b076b066b056b046b036b026b016b006aff6afe6afd6afc6afb6afa6af96af86af76af66af56af46af36af26af16af06aef6aee6aed6aec6aeb6aea6ae96ae86ae76ae66ae56ae46ae36ae26ae16ae06adf6ade6add6adc6adb6ada6ad96ad86ad76ad66ad56ad46ad36ad26ad16ad06acf6ace6acd6acc6acb6aca6ac96ac86ac76ac66ac56ac46ac36ac26ac16ac06abf6abe6abd6abc6abb6aba6ab96ab86ab76ab66ab56ab46ab36ab26ab16ab06aaf6aae6aad6aaa6aa86aa76aa66aa56aa46aa36aa26aa16a9f6a9e6a9d6a9c6a9b6a9a6a996a986a966a956a946a936a926a8f6a8d6a8c6a8b6a8a6a896a886a876a866a856a836a826a816a7f6a7e6a7d6a7b6a7a6a786a776a766a756a746a736a726a706a6f6a6e6a6d6a6c6a6b6a6a6a696a686a676a666a646a636a626a606a5f6a5e6a5d6a5c,
   0x6c586c566c536c526c516c4f6c4e6c4d6c4c6c4b6c486c456c446c436c3f6c3e6c3c6c3b6c3a6c396c376c366c336c316c2d6c2c6c2b6c256c236c206c1e6c1d6c1c6c176c126c0e6c0c6c0b6c0a6c096c086c046c036c026c016c006bff6bfe6bfc6bfb6bfa6bf86bf76bf66bf46bf26bf16bf06bee6bed6bec6be96be86be76be66be56be46be36be26be06bdf6bde6bdd6bdc6bda6bd86bd16bd06bce6bcc6bca6bc96bc86bc76bc66bc46bc36bc06bbe6bbd6bbc6bbb6bba6bb96bb86bb66bb26bb16bb06baf6bae6bad6bac6bab6ba96ba86ba76ba66ba56ba46ba36ba26ba06b9f6b9e6b9d6b9c6b996b986b976b956b946b916b906b8f6b8e6b8c6b886b856b806b7f6b7e6b7d6b7a6b786b776b766b756b746b736b726b716b706b6f6b6e6b6d6b6c6b6b6b696b686b616b606b5f6b5e6b5d6b5c6b5b6b5a6b586b576b566b556b546b536b526b516b506b4f6b4e6b4d6b4b6b4a6b486b456b446b426b416b406b3f6b3d6b3c6b3b6b386b366b356b346b336b316b306b2f,
   0x6dca6dc96dc86dc36dc26dc16dbe6dbd6dbc6dbb6dba6db96db76db66db46db36db16db06dad6dac6da56da26d9c6d9a6d996d986d976d966d926d906d8f6d8d6d8b6d8a6d876d866d846d836d816d806d7f6d7e6d7d6d7b6d7a6d796d766d756d736d726d716d706d6d6d6c6d6b6d686d676d656d646d626d616d5f6d5d6d5b6d586d576d566d556d506d4c6d496d446d426d406d3f6d3a6d386d376d366d346d306d2f6d2d6d2c6d296d286d266d246d236d226d216d206d1f6d1d6d1c6d186d166d156d146d136d116d106d0f6d0d6d0a6d096d086d066d056d036d026d006cff6cf96cf46cf26ced6cec6ce96ce76ce66ce46cdf6cdd6cdc6cda6cd96cd86cd26cd16ccf6cce6ccd6ccb6cc86cc76cc66cc36cc26cc16cc06cba6cb76cb66cb56cb46cb06caf6cac6ca86ca26ca06c9e6c9d6c9c6c9a6c986c976c966c956c926c916c8e6c8d6c8b6c8a6c876c846c806c7f6c7c6c7b6c7a6c786c776c756c736c716c6f6c6e6c6d6c6c6c6b6c676c666c656c636c626c5a6c59,
   0x6eef6eee6eed6eec6eeb6eea6ee76ee36edd6edc6edb6ed96ed86ed66ed26ed06ece6ecd6ecc6eca6ec96ec86ec66ec56ec46ec36ec06ebf6ebe6ebc6eb96eb86eb56eb36eb06eae6ead6eac6eab6ea96ea86ea66ea46ea36ea16ea06e9e6e9d6e9b6e9a6e996e976e966e956e946e936e926e916e8e6e8d6e8c6e8b6e8a6e886e876e846e826e816e806e7d6e7c6e7b6e7a6e796e786e776e766e756e746e736e726e716e706e6f6e6d6e6c6e6a6e696e686e676e666e656e646e636e626e616e606e5e6e5d6e5c6e5a6e596e576e556e526e516e506e4f6e4c6e4b6e4a6e496e486e476e466e456e426e416e406e3f6e3e6e3d6e3c6e3b6e396e376e366e356e336e316e306e2e6e2c6e2a6e286e276e266e226e1f6e1e6e1c6e1b6e196e186e156e136e126e0f6e0b6e096e086e076e066e046e036e026e016e006dff6dfe6dfd6dfa6df86df66df56df46df26df06def6ded6dea6de96de86de76de56de36de26ddf6ddc6ddb6dda6dd76dd56dd46dd36dd26dd06dcf6dce6dcd,
   0x6fe56fe46fe36fe26fdf6fdd6fdc6fdb6fda6fd96fd86fd76fd66fd56fd46fd36fd06fcf6fce6fcd6fcc6fcb6fca6fc86fc76fc66fc56fc46fc36fc16fbf6fbe6fbd6fbc6fbb6fba6fb86fb76fb56fb46fb26fb16fb06faf6fae6fad6fac6fab6faa6fa96fa86fa66fa56fa46fa36fa26fa06f9f6f9e6f9d6f9b6f9a6f996f986f976f966f956f946f936f926f916f906f8f6f8b6f8a6f876f866f856f836f826f816f806f7f6f7e6f7d6f7b6f796f776f766f756f736f716f706f6f6f6c6f6b6f6a6f696f686f676f656f646f636f616f606f5f6f5d6f5b6f5a6f596f576f566f556f546f536f526f516f506f4f6f4e6f4c6f4a6f496f486f456f446f436f426f416f406f3f6f3d6f3c6f3b6f3a6f396f386f376f356f346f326f306f2e6f2c6f286f276f266f256f236f226f216f1f6f1e6f1d6f1c6f1b6f1a6f196f186f176f166f126f116f106f0e6f0d6f0c6f0b6f0a6f086f076f056f046f036f016f006eff6efe6efd6efc6efb6efa6ef86ef76ef66ef56ef36ef26ef16ef0,
   0x70da70d770d670d570d470d370d270d170d070cf70ce70cd70cc70cb70c970c770c670c570c470bf70be70ba70b670b570b470b270b070aa70a970a870a770a670a570a470a370a270a170a0709f709e709b709a70987097709370917090708f708d708c708b7088708770867084708370827081707d707b707a707970777074707370727071706e706a7069706870677066706570647063706270617060705f705d705c705b705a7059705870577056705570547053705270517050704e704d704b704a7049704870477046704570447043704270417040703f703e703d703c703b703a70387037703670347033703270317030702f702e702d702c702b702a702970287027702670257024702270217020701f701e701d701c701970187017701670157014701370127010700f700e700d700c700b700a70097008700770067005700470037002700170006fff6ffe6ffd6ffc6ffb6ffa6ff96ff86ff76ff66ff56ff46ff36ff26ff16ff06fed6fec6feb6fea6fe96fe86fe76fe6,
   0x71d371d271d171d071cf71cd71cc71cb71ca71c971c871c771c671c571c471c271c171c071bf71be71bd71bc71bb71ba71b871b771b671b471b271b171b071af71ae71ad71ab71aa71a971a771a671a571a471a371a271a1719e719d719c719b719a7197719671957193719271917190718e718d718c718b718971887187718671857183718271817180717f717e717c717b7179717771767175717471717170716f716d716c716b716a716971657163716271617160715f715d715b715a7159715871577156715571547153715271517150714f714d714b714971487147714671447143714271417140713f713e713d713c713b713a7139713871377135713471337132712e712d712c712b712a712971287127712571247123712271217120711f711e711d711c711b7117711471127111710f710e710d710c710b71087107710671057104710371027101710070ff70fe70fc70fb70fa70f870f670f570f470f370f270f170f070ee70ea70e570e370e270e170e070de70dd70dc,
   0x72db72da72d872d672d572d472d372d172cf72cc72cb72ca72c972c772c672c572c072bf72be72bd72bc72bb72ba72b572b372b272b172ae72ab72aa72a972a872a772a672a572a472a372a272a172a0729e729d729c729b729a729972987297729672957294729372917290728e728c7289728872877286728572837282727d727c727b7278727772767274727372717270726d726c726b726a72687265726472637260725e725c725a7258725772557254725372517250724f724e724b724a72497246724572447243724272417240723e723c723a723472337232722f722e722d722b722972277226722572247223722272217220721f721e721c721b721a7219721872177216721572147213721272117210720f720e720d720c720b720a72097208720772057204720372027201720071ff71fe71fd71fc71fb71fa71f871f771f671f571f471f371f271f171f071ef71ed71ec71eb71ea71e971e871e671e471e371e271e171df71de71dd71dc71db71da71d971d871d771d6]
def gbRows2 : List Nat :=
  [0x30132193219121902192203b25b225b325a025a125c625c725ce25cf25cb26052606211600a72030ffe1ffe000a4ff0421032033203200b02640264222342235221e22652264226f226e2260221d223d2248224c2261222e222b229923122220222522a5221a223722082229222a220f221122282227223600f700d700b13011301030173016300f300e300d300c300b300a3009300830153014201d201c2019201820262016ff5e20143005300300a802c702c900b7300230013000e525e524e523e522e521e520e51fe51ee51de51ce51be51ae519e518e517e516e515e514e513e512e511e510e50fe50ee50de50ce50be50ae509e508e507e506e505e504e503e502e501e500e4ffe4fee4fde4fce4fbe4fae4f9e4f8e4f7e4f6e4f5e4f4e4f3e4f2e4f1e4f0e4efe4eee4ede4ece4ebe4eae4e9e4e8e4e7e4e6e4e5e4e4e4e3e4e2e4e1e4e0e4dfe4dee4dde4dce4dbe4dae4d9e4d8e4d7e4d6e4d5e4d4e4d3e4d2e4d1e4d0e4cfe4cee4cde4cce4cbe4cae4c9e4c8e4c7e4c6,
   0xe771e770216b216a2169216821672166216521642163216221612160e76fe76e3229322832273226322532243223322232213220e76d20ac246924682467246624652464246324622461246024872486248524842483248224812480247f247e247d247c247b247a247924782477247624752474249b249a2499249824972496249524942493249224912490248f248e248d248c248b248a24892488e76be76ae769e768e767e7662179217821772176217521742173217221712170e585e584e583e582e581e580e57fe57ee57de57ce57be57ae579e578e577e576e575e574e573e572e571e570e56fe56ee56de56ce56be56ae569e568e567e566e565e564e563e562e561e560e55fe55ee55de55ce55be55ae559e558e557e556e555e554e553e552e551e550e54fe54ee54de54ce54be54ae549e548e547e546e545e544e543e542e541e540e53fe53ee53de53ce53be53ae539e538e537e536e535e534e533e532e531e530e52fe52ee52de52ce52be52ae529e528e527e526,
   0xffe3ff5dff5cff5bff5aff59ff58ff57ff56ff55ff54ff53ff52ff51ff50ff4fff4eff4dff4cff4bff4aff49ff48ff47ff46ff45ff44ff43ff42ff41ff40ff3fff3eff3dff3cff3bff3aff39ff38ff37ff36ff35ff34ff33ff32ff31ff30ff2fff2eff2dff2cff2bff2aff29ff28ff27ff26ff25ff24ff23ff22ff21ff20ff1fff1eff1dff1cff1bff1aff19ff18ff17ff16ff15ff14ff13ff12ff11ff10ff0fff0eff0dff0cff0bff0aff09ff08ff07ff06ff05ffe5ff03ff02ff013000e5e4e5e3e5e2e5e1e5e0e5dfe5dee5dde5dce5dbe5dae5d9e5d8e5d7e5d6e5d5e5d4e5d3e5d2e5d1e5d0e5cfe5cee5cde5cce5cbe5cae5c9e5c8e5c7e5c6e5c5e5c4e5c3e5c2e5c1e5c0e5bfe5bee5bde5bce5bbe5bae5b9e5b8e5b7e5b6e5b5e5b4e5b3e5b2e5b1e5b0e5afe5aee5ade5ace5abe5aae5a9e5a8e5a7e5a6e5a5e5a4e5a3e5a2e5a1e5a0e59fe59ee59de59ce59be59ae599e598e597e596e595e594e593e592e591e590e58fe58ee58de58ce58be58ae589e588e587e586,
   0xe77ce77be77ae779e778e777e776e775e774e773e7723093309230913090308f308e308d308c308b308a3089308830873086308530843083308230813080307f307e307d307c307b307a3079307830773076307530743073307230713070306f306e306d306c306b306a3069306830673066306530643063306230613060305f305e305d305c305b305a3059305830573056305530543053305230513050304f304e304d304c304b304a304930483047304630453044304330423041e645e644e643e642e641e640e63fe63ee63de63ce63be63ae639e638e637e636e635e634e633e632e631e630e62fe62ee62de62ce62be62ae629e628e627e626e625e624e623e622e621e620e61fe61ee61de61ce61be61ae619e618e617e616e615e614e613e612e611e610e60fe60ee60de60ce60be60ae609e608e607e606e605e604e603e602e601e600e5ffe5fee5fde5fce5fbe5fae5f9e5f8e5f7e5f6e5f5e5f4e5f3e5f2e5f1e5f0e5efe5eee5ede5ece5ebe5eae5e9e5e8e5e7e5e6,
   0xe784e783e782e781e780e77fe77ee77d30f630f530f430f330f230f130f030ef30ee30ed30ec30eb30ea30e930e830e730e630e530e430e330e230e130e030df30de30dd30dc30db30da30d930d830d730d630d530d430d330d230d130d030cf30ce30cd30cc30cb30ca30c930c830c730c630c530c430c330c230c130c030bf30be30bd30bc30bb30ba30b930b830b730b630b530b430b330b230b130b030af30ae30ad30ac30ab30aa30a930a830a730a630a530a430a330a230a1e6a5e6a4e6a3e6a2e6a1e6a0e69fe69ee69de69ce69be69ae699e698e697e696e695e694e693e692e691e690e68fe68ee68de68ce68be68ae689e688e687e686e685e684e683e682e681e680e67fe67ee67de67ce67be67ae679e678e677e676e675e674e673e672e671e670e66fe66ee66de66ce66be66ae669e668e667e666e665e664e663e662e661e660e65fe65ee65de65ce65be65ae659e658e657e656e655e654e653e652e651e650e64fe64ee64de64ce64be64ae649e648e647e646,
   0xe79fe79ee79de79ce79be79ae799e798e797fe34fe33fe19fe31fe38fe37fe3cfe3bfe18fe17fe44fe43fe42fe41fe3efe3dfe40fe3ffe3afe39fe36fe35fe16fe15fe14fe13fe11fe12fe1003c903c803c703c603c503c403c303c103c003bf03be03bd03bc03bb03ba03b903b803b703b603b503b403b303b203b1e78ce78be78ae789e788e787e786e78503a903a803a703a603a503a403a303a103a0039f039e039d039c039b039a039903980397039603950394039303920391e705e704e703e702e701e700e6ffe6fee6fde6fce6fbe6fae6f9e6f8e6f7e6f6e6f5e6f4e6f3e6f2e6f1e6f0e6efe6eee6ede6ece6ebe6eae6e9e6e8e6e7e6e6e6e5e6e4e6e3e6e2e6e1e6e0e6dfe6dee6dde6dce6dbe6dae6d9e6d8e6d7e6d6e6d5e6d4e6d3e6d2e6d1e6d0e6cfe6cee6cde6cce6cbe6cae6c9e6c8e6c7e6c6e6c5e6c4e6c3e6c2e6c1e6c0e6bfe6bee6bde6bce6bbe6bae6b9e6b8e6b7e6b6e6b5e6b4e6b3e6b2e6b1e6b0e6afe6aee6ade6ace6abe6aae6a9e6a8e6a7e6a6,
   0xe7bbe7bae7b9e7b8e7b7e7b6e7b5e7b4e7b3e7b2e7b1e7b0e7af044f044e044d044c044b044a0449044804470446044504440443044204410440043f043e043d043c043b043a04390438043704360451043504340433043204310430e7aee7ade7ace7abe7aae7a9e7a8e7a7e7a6e7a5e7a4e7a3e7a2e7a1e7a0042f042e042d042c042b042a0429042804270426042504240423042204210420041f041e041d041c041b041a04190418041704160401041504140413041204110410e765e764e763e762e761e760e75fe75ee75de75ce75be75ae759e758e757e756e755e754e753e752e751e750e74fe74ee74de74ce74be74ae749e748e747e746e745e744e743e742e741e740e73fe73ee73de73ce73be73ae739e738e737e736e735e734e733e732e731e730e72fe72ee72de72ce72be72ae729e728e727e726e725e724e723e722e721e720e71fe71ee71de71ce71be71ae719e718e717e716e715e714e713e712e711e710e70fe70ee70de70ce70be70ae709e708e707e706,
   0xe7e1e7e0e7dfe7dee7dde7dce7dbe7dae7d9e7d8e7d7e7d6e7d5e7d4e7d3e7d2e7d1e7d0e7cfe7cee7cd3129312831273126312531243123312231213120311f311e311d311c311b311a3119311831173116311531143113311231113110310f310e310d310c310b310a31093108310731063105e7cce7cbe7cae7c9026101f9014801441e3f025100ea00fc01dc01da01d801d600f901d400fa016b00f201d200f3014d00ec01d000ed012b00e8011b00e9011300e001ce00e10101e7c6e7c5e7c4e7c3e7c2e7c1e7c0e7bfe7bee7bde7bc301e301d30122295260925e525e425e325e225bd25bc259525942593258f258e258d258c258b258a2589258825872586258525842583258225812573257225712570256f256e256d256c256b256a2569256825672566256525642563256225612560255f255e255d255c255b255a255925582557255625552554255325522551255022bf2267226622522223221f2215219921982197219621092105203520252015201302d902cb02ca,
   0xe80fe80ee80de80ce80be80ae809e808e807e806e805e804e803e802e801254b254a2549254825472546254525442543254225412540253f253e253d253c253b253a2539253825372536253525342533253225312530252f252e252d252c252b252a2529252825272526252525242523252225212520251f251e251d251c251b251a2519251825172516251525142513251225112510250f250e250d250c250b250a2509250825072506250525042503250225012500e800e7ffe7fee7fde7fce7fbe7fae7f9e7f8e7f7e7f6e7f5e7f430072ffb2ffa2ff92ff82ff72ff62ff52ff42ff32ff22ff12ff0303efe6bfe6afe69fe68fe66fe65fe64fe63fe62fe61fe60fe5ffe5efe5dfe5cfe5bfe5afe59fe57fe56fe55fe54fe52fe51fe50fe4ffe4efe4dfe4cfe4bfe4afe49309e309d300630fe30fd309c309b30fce7e6e7e5e7e42010e7e332312121e7e2ffe4ffe2fe3033d533d233d133ce33c433a1339e339d339c338f338e32a3302930283027302630253024302330223021,
   0xe05de05ce05be05ae059e058e057e056e055e054e053e052e051e050e04fe04ee04de04ce04be04ae049e048e047e046e045e044e043e042e041e040e03fe03ee03de03ce03be03ae039e038e037e036e035e034e033e032e031e030e02fe02ee02de02ce02be02ae029e028e027e026e025e024e023e022e021e020e01fe01ee01de01ce01be01ae019e018e017e016e015e014e013e012e011e010e00fe00ee00de00ce00be00ae009e008e007e006e005e004e003e002e001e00073717370736e736b736a736973687367736673657364736373627361735f735e735d735c735b735a7359735873567355735473537351734f734e734c734b734a7349734873477346734573447343734273417340733d733c733b733a73367335733373327330732f732d732873277326732473237320731f731a731973187314731273117310730f730d730c730b7309730873077306730573047302730072ff72fe72fd72f972f672f572eb72ea72e772e672e572e472e372e272df72dd72dc,
   0xe0bbe0bae0b9e0b8e0b7e0b6e0b5e0b4e0b3e0b2e0b1e0b0e0afe0aee0ade0ace0abe0aae0a9e0a8e0a7e0a6e0a5e0a4e0a3e0a2e0a1e0a0e09fe09ee09de09ce09be09ae099e098e097e096e095e094e093e092e091e090e08fe08ee08de08ce08be08ae089e088e087e086e085e084e083e082e081e080e07fe07ee07de07ce07be07ae079e078e077e076e075e074e073e072e071e070e06fe06ee06de06ce06be06ae069e068e067e066e065e064e063e062e061e060e05fe05e73f773f673f573f473f373f173f073ef73ee73ec73eb73ea73e873e673e473e373e273e173df73dd73dc73db73da73d873d773d673d573d473d373d273ce73cc73cb73c773c673c573c473c373c173bf73be73bd73bc73b973b873b673b573b473b173ad73ac73aa73a873a773a673a573a473a373a173a0739e739d739c739a73997398739773957394739373927390738f738d738c738a7388738673857383738273817380737f737d737c737b737a73797378737773767375737473737372,
   0xe119e118e117e116e115e114e113e112e111e110e10fe10ee10de10ce10be10ae109e108e107e106e105e104e103e102e101e100e0ffe0fee0fde0fce0fbe0fae0f9e0f8e0f7e0f6e0f5e0f4e0f3e0f2e0f1e0f0e0efe0eee0ede0ece0ebe0eae0e9e0e8e0e7e0e6e0e5e0e4e0e3e0e2e0e1e0e0e0dfe0dee0dde0dce0dbe0dae0d9e0d8e0d7e0d6e0d5e0d4e0d3e0d2e0d1e0d0e0cfe0cee0cde0cce0cbe0cae0c9e0c8e0c7e0c6e0c5e0c4e0c3e0c2e0c1e0c0e0bfe0bee0bde0bc747a7479747874757474747374727471746f746e746c746b746a7469746874677466746574647463746274617460745d7458745674547453745274517450744f744e744d744c744b744a744974487447744674457444744374427440743f743e743d743b743a74397438743774327431742f742d742b742974277424742374217420741f741e741d741c741974187417741674157414741374127411740e740d740c740b74087407740474027401740073ff73fe73fd73fc73fb73fa73f973f8,
   0xe177e176e175e174e173e172e171e170e16fe16ee16de16ce16be16ae169e168e167e166e165e164e163e162e161e160e15fe15ee15de15ce15be15ae159e158e157e156e155e154e153e152e151e150e14fe14ee14de14ce14be14ae149e148e147e146e145e144e143e142e141e140e13fe13ee13de13ce13be13ae139e138e137e136e135e134e133e132e131e130e12fe12ee12de12ce12be12ae129e128e127e126e125e124e123e122e121e120e11fe11ee11de11ce11be11a74f274f174f074ed74ec74eb74ea74e974e874e774e574e174df74dd74db74da74d974d874d774d674d574d474d374d174d074cf74ce74cd74cc74cb74ca74c974c874c774c674c574c474c374c274c174c074bf74be74bd74bc74bb74b974b874b774b674b574b474b374b274b174b074af74ae74ad74ac74ab74aa74a674a574a474a374a274a174a0749f749d749b749a749974987497749674957494749374927491748f748d748c748a748974887486748574847482747f747d747c747b,
   0xe1d5e1d4e1d3e1d2e1d1e1d0e1cfe1cee1cde1cce1cbe1cae1c9e1c8e1c7e1c6e1c5e1c4e1c3e1c2e1c1e1c0e1bfe1bee1bde1bce1bbe1bae1b9e1b8e1b7e1b6e1b5e1b4e1b3e1b2e1b1e1b0e1afe1aee1ade1ace1abe1aae1a9e1a8e1a7e1a6e1a5e1a4e1a3e1a2e1a1e1a0e19fe19ee19de19ce19be19ae199e198e197e196e195e194e193e192e191e190e18fe18ee18de18ce18be18ae189e188e187e186e185e184e183e182e181e180e17fe17ee17de17ce17be17ae179e178758775857584758275817580757e757d757c757b757a757775767575757375717570756f756e756d756c756b75697568756775647563756275617560755f755e755d75587557755675557553755275517550754d754a7549754775467544754375427541753f753d753c753975367534752e752a7527752675247523752275217520751e751d751b751775167515751475127510750e750c750b750a75097508750775067505750375027501750074fe74fd74fc74fb74fa74f974f874f574f3,
   0xe233e232e231e230e22fe22ee22de22ce22be22ae229e228e227e226e225e224e223e222e221e220e21fe21ee21de21ce21be21ae219e218e217e216e215e214e213e212e211e210e20fe20ee20de20ce20be20ae209e208e207e206e205e204e203e202e201e200e1ffe1fee1fde1fce1fbe1fae1f9e1f8e1f7e1f6e1f5e1f4e1f3e1f2e1f1e1f0e1efe1eee1ede1ece1ebe1eae1e9e1e8e1e7e1e6e1e5e1e4e1e3e1e2e1e1e1e0e1dfe1dee1dde1dce1dbe1dae1d9e1d8e1d7e1d6764476427641763d763b763a76397637763676327631762f762e762c7628762776237621761e761d761c761a76167614761376127611760f760e760d760b76097608760776067604760275fe75fd75fb75fa75f875f775f675f575f375f275ef75ee75ed75ec75e975e575e175e075df75dd75dc75da75d975d775d375d175d075cf75ce75cc75cb75c675c175c075bf75bb75ba75b775b675ad75aa75a975a875a775a675a2759e759c759b7598759575937590758e758d758c758a75897588,
   0x52658912530580de82de8c24508d9551868c78c568d27ed18180699c68865e2e90a67eca529e534a74e34f3462cc626e7248677f9881822c6273642c73ed65917a1762dc8d254f706446767e67cf767d72387f629738575d8019628a97768dcb62d45df475a4516b7b06542753ed6252634c82ad6fb361ca596550b288847ff171ac655651f976ce660280ae684880fa5cb8669763094ffa5b896c28978d96987231788d827e77ee853c764c769154c0550954ce632857c3963f554a76c376c176c076be76bd76bc76bb76ba76b976b876b776b676b576b376b076af76ad76ac76ab76aa76a976a876a776a676a576a376a276a176a0769f769e769d769c769b769a769876977695769476927690768f768d768c768a76897685768376817680767f767c767a767976777676767576747673767276717670766e766d766c766a766976687667766676657664766276617660765f765d765b765a76597658765776557653765276517650764f764e764b764a76497648764776467645]
def gbRows3 : List Nat :=
  [0x70b3997c79c94e1967c451b0517564485bbe6ee86fd2658c5f6c762a522b618b9cd6886881985f6a6807904d8fab8fa98fa8535e53d84fbf62418d2c7f168fb997ad965b907f81c258c18f9f5fc55f0a655d95ed75f95e875e016bd66bd96bd5853d84d678a75f7c7b1491196bd49f3b903c8ff88e666cf5752d7ef75d297b28672c82ef595488ab711960eb590772c8500d94a18d1d80cc8f885317535160b27891676f72069c8d8c7966b462a562b15b9d997158214fdd96f98584775c77597758775777567755775477537752774f774e774d774c774b774a774977487746774577447742773f773e773d773b773977347733773277317730772e772c772b772a77277725772477237721771e771d771c771b771877177716771577147713771277117710770f770e770c770a7706770577037702770076ff76fd76fb76fa76f776f676f576f376f076ed76ec76eb76ea76e976e876e776e676e476e376e276e176e076de76dd76dc76da76d976d576d376cc76cb76c976c776c4,
   0x7316660c98a496104ea794f27f208c17998b874963ba64008c7a67f462c68be75dee5c945bdf643d78b467e58336832c53c963d28e6d5c426d4b518c4fa77b565395834966f969fd7cd964cd85cf6ca74ed3823182cd707f60e860ed6b8b869553c29910852183dc5f6991c78e29776c8d22624d675088c1731c64e6601690e87c3f6b655e034e0d57e0886554fa535c63559a736cca6e24818a811682365e1b4f2f7b9494c2640f52c3535a6ce294b562e864ad83e073bb5e7675c577e477e177e077df77de77dd77da77d977d877d677d577d477d377d277d177d077cf77ce77cc77cb77ca77c977c877c777c677c577c477c377c277c177c077be77bc77ba77b977b877b777b677b477b277b177af77ae77ad77ab77a877a677a477a377a1779e779d779c779b779a77997798779777967795779477937790778f778b778a7789778877877786778377827781777c777b777a777877777776777577747773777277717770776f776e776d776a7769776777647760775f775e775d,
   0x695a96646ec196cf95048e8753a86a7151fa521d81ed4e1177857ef84ec77b7961017a208e0c7574916c62bd5ba05d07866b51b2514570bd65a57fc58d645c3a4f889f7f803b9a705f1b8fdf6c605319630175f4540379e49a8b901e627f8bda6f8460e97a0b4e58544862106a5957ce79f06491886c8d8196486c895ff166685c188fb081e390f46f885f7b63a364a4626f8f66709254355de26f6e5632671d949e62848d85502155317545655e538280a0507f957f5e385c1d573a7883788278817880787f787e787d787b787a787978787876787578747873787278717870786f7869786878677866786578647863786278617860785f785e785c785b785a78597858785478537851784f784d784b784a7849784878467844784378427841783f783d78367835783378327831782f782e782b782a78287824782278217820781e781b7819781578137810780f780e780b780a78087807780678057804780377fc77fb77fa77f977f777f577f477f277f177f077ef77ea77e877e6,
   0x902e5f85888b8d374ee36b865e26623450a36b7954465927625376297b548fbe642d9519632b63aa641364ae78cb5bf85b5867517fe06dec7cb97601810650ac5d1464677a9c7be18e7f4fc37c07918b7c9751d14e1b4ece530656f18471806a6b218d50523a6b648bcd74f761488f9e96cc78c1832875b57ef0623388227eaf6df355079187693f6625578295246376708a5439521b95ef5e8a5e627a9775ae4e32559882394f20693d7a7f5ddd63e3590489e6641077d750a87840790c790b790a7909790879077906790479037902790078ff78fe78fd78fc78fb78f978f878f678f578f378f178f078ef78ee78ed78eb78ea78e978e778e678e578e478e378e278e178e078df78de78dd78dc78db78da78d878d778d678d378d278d178cf78ce78cd78cc78c878c778c678c478c378c278c078bf78bd78bc78bb78ba78b878b778b678b578af78ae78ad78ac78ab78aa78a978a878a678a478a278a0789e789d789978967895789478927890788f788b788a7888788678857884,
   0x53e08c0d8fed8776789f72398dcc8c039493540a6389520151cb96d553fc78896bbf6dc0596060e65e9775384f43753557ab975b517870b978986ec7638298a07f1490125f1f5e1d7b2c848257305e9562b55ae17fdf6da472c47b1b654c8fea6ef44f4e5824909351f377aa7b49767b706f8e6c76845f975fb776d7905360bc7a3b52305bfc79775c9b50128e486363520068638361515a63215f5386cb5f398bde6de160ee4f466c2e65e680c663b890f853554e3962c5803d6020799279917990798e798d798c798b798979887987798679837982797f797e797d797c797b79797976797579747973797279717970796e796c796b796a796979667964796379617959795879557954795279517950794f794e794d794c794b794a79477945794479437942793f793d793979387937793679357933793279317930792f792e792d792c792b792a792979287927792679257923792279217920791f791d791c791b791a791979187917791679157914791279117910790f790e790d,
   0x4e8c6d3199755c148033513f800c6069997f9102904f627c538460765a258bb9989d4fc49e455ce886fe581560f0524182358dfa67358eb2579b593a591a54c66387904176fe949d56e4987f65668e72542858a95bf9961f515158067f0e65ad6bb5953b77ed7aef59926e215ea6809a9540675c8d4c777958358bfb72ec728a6bd2776390fd75d890178c46966165976296515c6d1e51bb606b4f97680b52a861c2846351ac4e1c4e228ba25b9a952d9f0e9876948953ee76ef4e017a1c7a1b7a197a187a167a157a137a127a117a107a0f7a0c7a0a7a097a087a077a057a047a0179ff79fe79fc79fa79f979f779f679f579f479f379f279f179ee79ec79ea79e879e579e279e179e079de79dd79dc79db79da79d979d779d679d479d379d079cf79ce79cc79ca79c879c779c579c479c279bf79bc79b879b779b679b579b479b279b179b079af79ae79ad79ac79ab79aa79a979a879a679a579a479a379a279a179a0799f799e799d799c799b7999799879977996799579947993,
   0x670d4fd84f0f7b266c1f5e458f9062c262765b7580a46577592b54264f5b51e459498bbd7f1d51af902270fd75af98ce950b5cf0870267ab5c014e307caa61245fff4efd594b7c896c7e711a575f7eb752066c1b5429915a82ac8d396cb85e9f80ba54208bfd532a80a598de5561975e83f2653e7eba8bbf4eff59a89632623f80aa65b982b3574a6cdb996d72af8d2983038fd453cd70e651e17e41949277fe6a0a7ffb756a5e0685e973d06cd596004e4f4f107b4f7f5a53d18d307aa27aa17a9e7a9b7a9a7a997a947a937a907a8f7a8e7a8c7a8b7a8a7a897a877a857a827a7e7a7d7a7c7a7b7a757a737a727a717a6f7a6e7a6d7a6c7a6b7a6a7a697a687a677a667a657a647a637a627a617a607a5f7a5e7a5d7a5c7a5b7a5a7a597a587a567a557a547a537a527a507a4f7a4e7a4d7a4c7a4b7a4a7a497a487a477a457a447a437a427a417a407a3e7a3a7a387a367a357a347a327a317a307a2f7a2e7a2d7a2c7a2b7a2a7a297a287a277a267a257a247a227a217a1f7a1d,
   0x7fb95e9a66f480158ddf68397ed954044e2a94ec9694960186e4683c845b97695272759980f39e3d620864016b4c54e5544a7a3f9550641e7cd57f94818f9ad8768b7bd967606e2f5c977eb2809b7f3894a2521a51888d63656279c6611f8d76809d7aff67d1674675185e726e8976d69499698265398be5560e567654907f1a598796448ba35bcc8d1f81797236961c4ed85085590d8d4b8986526f8d7481505e9c8151812f65a791dc4fef8f85629a752b5f1788b1798f6daa6d6e7b2d7b297b277b237b227b217b1f7b1d7b1c7b1a7b187b177b167b137b127b107b0e7b0d7b0c7b097b077b057b027b017b007afe7afc7afb7af87af77af67af57af47af37af27af17af07aee7aec7aeb7aea7ae97ae87ae77ae47ae27ae17add7adc7adb7ada7ad87ad77ad57ad47ad37ad27ad17ad07acf7ace7acd7acc7aca7ac97ac87ac77ac67ac57ac47ac37ac27ac17ac07abe7abd7abc7abb7aba7ab97ab87ab77ab67ab57ab47ab27ab17ab07aaf7aae7aab7aaa7aa97aa77aa47aa3,
   0x54c88fc788f9679c56fd90ed950568cd6eda8f8a523d8d358dea67dc684276788be19b3c8f6895fa9f9f5f527845572d89c47470901b5e7f51498d2f704c60ef7f5099867ba189c251a05b98517368fa602a62d04e56890263025be1525074dc522e96c756fa987e654580a18c379aa886ca53e49f1359d15b646cbd4f307b8d549583c78f9c591f8d2d678457a272d782df6c9f52fe94a951718d2162f16c5e5de95f135bab516c8eac4f9b9f9a606d529f653b5de56897803f57c27bc47bc37bc27bc07bbf7bbe7bbd7bbc7bbb7bba7bb97bb77bb67bb57bb37bb27bb07baf7bae7ba57ba47ba37ba07b9f7b9e7b9b7b9a7b997b987b967b937b927b917b8f7b8e7b8c7b8b7b8a7b897b887b877b867b847b837b827b817b7f7b7d7b7c7b7a7b787b767b747b737b707b6f7b6d7b6c7b6b7b6a7b697b687b677b667b657b647b637b617b5f7b5e7b5c7b597b577b557b537b4e7b4d7b4a7b487b467b447b437b427b417b407b3f7b3d7b3b7b397b377b367b357b347b327b307b2f,
   0x6e567cca72d0877480e1846b58f6745a5ffd4e4e547c540e5019539a543c73344faf55897ea25f185b8f6d2a9e3f867970d854c48f70605288616a2a4ea854fc606872e05f8875d59ed1563f8d3a9e6489108d6b6db86cb396028c8976d254084f55548c79be683883cf8377559d54756d6953f78017597d90dd6beb8c6a568e58d5822a676d592f6c496c57710a608d61be65f1634d64bc7ff07f55558a51fd5bd26db5542b97e990af61a891639a875bb34ea56c266d775b699ab87c427c3e7c3d7c3c7c3b7c3a7c397c377c367c357c347c337c327c317c307c2f7c2e7c2d7c2c7c2b7c297c287c257c247c237c227c217c207c1e7c1d7c1c7c1b7c1a7c197c187c177c157c147c137c127c117c107c0e7c0d7c0a7c097c087c067c057c047c037c027c017c007bff7bfd7bfb7bfa7bf97bf87bf67bf57bf47bf37bf27bf07bef7bed7bec7beb7be97be87be77be47be37be27be07bdf7bde7bdc7bdb7bd87bd77bd67bd57bd47bd27bd07bcf7bce7bcd7bcb7bca7bc97bc87bc5,
   0x7b9579ef7a3d7578673a57fa573e51fb79788d27970d60d1621683b7706b4f196d3b8c416df76d519b425a5a660f83647ed88bf28bb36c4770e94f1a79fd8d3f666660e05349616760946bc156de86d460625fbd8f89632570708c0e604d5e4c6643714c60f651f076877c27875778fa9ec4614c83525e7b5ba66da371158c6275ea552460a363627f138fd8685373af6b22574f6dee60005f8a69d08bdd53165212753b6ed1733e534e54d782b162376caa4e9262a4552c864e5f277cbb7cba7cb87cb77cb67cb57cb47cb07caf7cad7cac7cab7ca97ca87ca77ca67ca37ca17ca07c9b7c9a7c997c967c947c937c907c8f7c8e7c8d7c8c7c8b7c8a7c887c877c867c857c847c837c827c817c807c7f7c7e7c7a7c797c787c777c767c757c727c717c707c6f7c6e7c6d7c6c7c6b7c6a7c697c687c677c667c657c647c637c627c617c607c5f7c5e7c5d7c5c7c5b7c5a7c597c587c577c567c557c547c537c527c517c507c4f7c4e7c4c7c4b7c4a7c497c487c477c467c457c447c43,
   0x4ef67bad952e89c18d318df5927469db835051cf526a4fed7b80636162e3787778b167ec68c083277f045978827080a9517c714e95f47b3a5c16575a76d16b7c5ac19a7e67b64ef77a3c504794be75328d3e988a835a52a05bb64f73593967b756097eaa7ee7599396455fcc65e28bb08ba15bc25bc46d4e60b85242796d4f0e5b635180628084df5df1810a51e063247ea75ac953736c7275be602553ca96c67c4d8f9168d8678154097f097ee959ec9e218ba56fc08ff99965808c7d367d357d347d337d327d317d307d2e7d2d7d2c7d2a7d297d287d267d257d247d237d217d1f7d1e7d1d7d1c7d1b7d1a7d197d187d177d167d157d147d137d127d117d107d0f7d0e7d0d7d0c7d0b7d097d087d077d067d057d047d037d027d017d007cff7cfe7cfd7cfc7cfa7cf97cf77cf67cf57cf47cf37cf27cf17cf07cee7ced7cec7ceb7cea7ce97ce77ce67ce57ce47ce37ce27ce17cde7cdd7cdb7cda7cd87cd47cd37cd27cd17cd07ccf7cce7ccb7cc97cc67cc47cc37cc27cc07cbf,
   0x6d7870ec8fd17981664b97738fdb8c284ec595267d27895f6d254eca91d165a47b4b5dfe5c4a8beb75a54ecb501f754c82a585c9621259d089e37ed36d017aed776b637767706854828252ab622a9636885779f8768663a563ed7a9653eb8f838f7f91756559527f7ede7f34997a89d272e1811a4fa577eb94f0640556bc5a079a846d4790ca4ea480f67126790169128549964d917153208bb259566868848b75866c5f6d465c0659dc50f55efa6da76e856e10996f5251823050657d987d977d967d957d947d937d927d917d907d8f7d8e7d8d7d8c7d8b7d8a7d897d887d877d867d857d847d837d827d817d807d7f7d7e7d7d7d7c7d7b7d7a7d797d787d767d757d747d737d727d717d707d6f7d6d7d6c7d6b7d6a7d697d687d677d667d657d647d637d627d617d607d5f7d5e7d5d7d5c7d5b7d5a7d597d587d577d567d557d547d537d527d517d507d4f7d4e7d4d7d4c7d4b7d4a7d497d487d477d467d457d447d437d427d417d407d3f7d3e7d3d7d3c7d3b7d3a7d397d387d37,
   0x5cfb541b519b94a783cc57477edd8bc051b389c97235501463986289652b64857ee25377773750265a1f9e436350526770ac60e753e54ff1952f8e1e8ddd51775de8636e62d2805a6cae4e3e77e954805c4083ca9a795c4575bd72d962d897a0759a5c31548e820581fc65e7655153a991524e5d70784e4597ed73967ea07a7663ea7a9870af51c07ade7adf975675c95f84955c656c588397599888666f8b664e957ecf7cb37cbe60ca4eac9cb86676775b830e5162834652b25c3d7dfa7df97df87df77df67df57df47df37df27df17df07def7dee7ded7dec7deb7dea7de97de87de77de67de57de47de37de27de17de07ddf7dde7ddd7ddc7ddb7dda7dd97dd87dd77dd67dd57dd47dd37dd27dd17dd07dcf7dce7dcd7dcc7dcb7dca7dc97dc87dc77dc67dc57dc47dc37dc27dc17dc07dbf7dbe7dbd7dbc7dbb7dba7db97db87db77db67db57db47db37db27db17db07daf7dad7dac7dab7daa7da97da87da77da57da47da37da27da17da07d9f7d9e7d9d7d9c7d9b7d9a7d99,
   0x50809b41594e84757aa55cbf76d44e8f51b565f7773677ff684672c27b5053216b3e5bbd5feb4fa97b77575780ef8de8630e57ae593888e45e93917782e67a9f54ed67af5bc7626353e362a063a75b5460507a7a542d5751607357a6554380af8bfe5ba2523b514b6e3453ef54b358f379d1989778d568f567ef82db5777976070e462f7800370954ea26297625b7ce061775eb7770b780d574e52d8582a520a616851ef697763e95f0054af5361549655809a8f90e16d5a7ae34fca7e5d7e5c7e5b7e5a7e597e587e577e567e557e547e537e527e517e507e4f7e4e7e4d7e4c7e4b7e4a7e497e487e467e457e447e437e427e407e3f7e3e7e3d7e3c7e3a7e397e387e377e367e357e347e337e327e317e307e2f7e2e7e2d7e2c7e2b7e2a7e297e287e277e267e257e247e237e227e217e207e1f7e1e7e1d7e1c7e1b7e1a7e197e187e177e167e157e147e137e127e117e107e0f7e0e7e0d7e0c7e0b7e0a7e097e087e077e067e057e047e037e027e017e007dff7dfe7dfd7dfc7dfb,
   0x4fd04f8b508852295386783e52b153894e3d6817540f83548389793c9ca491cc674e74066f1379bb72f87bf19ece728168a8539851b7695e68f16cea7c7b808b64c2579251217d2f78ca857e956d96f74e5052d26d9d70d9916a59e54f6c8001726252b3635e6d6a671790ce5eca72fc699474056ee570c27f0661d289c863fd8c306f9c517096117bee62e6680f5a6a84dd8d56676583b155668fa3814a8721558762c9578396145ed3626962ec56f06346660657646e83612799887f537f527f4f7f4e7f4d7f4c7f4b7f4a7f497f487f477f467f437f417f407f3f7f3e7f3d7f3c7f3b7f397f377f1e7f107f0a7ef97eec7ee47ed67ebc7ebb7eb47eae7e9e7e9d7e9c7e9a7e997e987e977e967e957e947e937e927e917e907e8f7e8e7e8d7e8c7e8b7e8a7e897e887e877e867e857e847e837e817e807e7f7e7e7e7d7e7c7e7b7e7a7e797e787e777e767e757e747e737e727e717e707e6f7e6e7e6d7e6c7e6b7e6a7e697e687e677e667e657e647e637e627e617e607e5f7e5e]
def gbRows4 : List Nat :=
  [0x7abf7b3c5499804b9f99516d67f36d41762452187559998f786b69b474096e9c4ee453e698865cad9675707551cc7f9a4f3694c39f8496f683f173b262ce541d8d4151db6dcb9cde90bb4e34971678f767977433730e52a370c888c2521765995ed6956364824e866f668fbd5be571ce759750da804a64a98c054eae667e91cf8f864e24826f7cb1688151c97cae7ec370bc604b94fe8138655b5e186d9f601c5ec995708fde83b280544fe954e97483529b96b66ca57c927acb75e27fe37fe27fde7fdd7fdc7fdb7fda7fd97fd77fd67fd37fd27fd17fd07fcf7fcd7fcb7fc97fc87fc77fc67fc47fc37fc27fc07fbe7fbb7fba7fb77fb67fb57fb47fb37fb17fae7fad7fac7fab7faa7fa97fa87fa67fa57fa37fa27fa07f9c7f9b7f997f987f977f967f957f937f927f917f907f8f7f8d7f8b7f897f887f877f867f857f847f837f827f807f7f7f7d7f7c7f7b7f7a7f787f777f767f757f737f707f6f7f6d7f6c7f6b7f677f667f657f647f637f607f5e7f5d7f5c7f5b7f597f56,
   0x6f2b616266fc85136ee186ee9992779281098fc853569ea64e7057cb5417561b9a829a6c86827801739b9ebb59887edc9a866d1b843d88f89aa17ba99523903b7f5787ba841d8bba7eb66ca64ed14f268f6e62a1756563a04e7153756ee65b6a631b5ce67eff6ee473875f8b6c2f86517f155c615c6565c54fa394dd54159a74622e96465f5579846f5e9e7f8d428def9732788c9e939c81864f536463b370895e909885536282a6964b6f0f7bd364025a04697c964762e257849686807d807c807b807a807980788077807680758074807380728070806f806e806d806c806b806880678066806580648063806280618060805f805e805d805c805b8059805780568055805380518050804f804e8049804880478045804480418040803e803c803a8039803480328030802f802e802d802c802b802480238021801f801e801d801b801a80138011800f800e800a80098008800780027fff7ffe7ffd7ffa7ff97ff87ff77ff67ff57ff47ff27fef7fed7fec7feb7fea7fe87fe77fe4,
   0x64788c2c547d540d94ed9e23879f660e95fd60af654f76bf62bf6c11706d851159995e996e3a79d285d0778463cf82d797627f055a2952c9514d51957ef5772068c95e425bc6871c6ccc89c579d87c735f258c1c8ff77cdc9761919a772f5b5f68a6731b953076df6aac8499840c4eec95f795e85a9a59b95bd066277f8e6bcf95415a9277096ca17164970991766885679a73ab4e488d388c8c5e3d51928302536f94c677db6bdb951a8305732b83bd5fd96c1376f2832b82928c29813f813d813c813b813a813981378135813481338130812e812d812b812a8129812881278126812581248123812281218120811f811d811c811b811981178115810c810b810881078105810481038101810080ff80fe80fb80f980f780f580ee80e680e380e280e080df80d880d580d480d380d280d180d080cf80cb80ca80c980c880c780c580bb80b980b880b680b580b380b080ac80a880a780a680a3809e8099809780958094809280918090808f808e808d808a8088808580828081807e,
   0x5b8151dd72de67e060a86d85954d954a556e5b7d8042634f5c3f9e1f917f5a185ff5637b64b578be5e7462c8852b6eba9006817b533f4f6062df5c3c6ce5502a971359ae80fd5ae95185998154626dd695f9607c8111632056ca96be753753575948801059764e436c167eb35a1c90a394a0545054ea62ff7a467267776676ee6728615552df5e5566ae58936bcd59c64ea9726162c767d0725f8c0b964c5bde6f206cab9ed858a883ab672b62b99b54646978e8819c6a218611647981d381d281d181d081cf81ce81cd81cb81c981c881c781c581c481bf81be81bd81bc81b981b881b781b681b581b481b281b181b081af81ae81ad81ac81ab81a981a781a581a481a281a181a0819f819e819a81998197819681958194819381928190818e818d818c818b8189818781868185818481838181817881778176817581738172816f816c816b816a816881668164816381628161815f815e815d815c815b8158815781568152814f814e814d81498147814581448143814281418140,
   0x6bd77435528862ab627997397812576f78b063679e4f670b81a87bf7787c68da84ec5f6d6f8e70f962a8783076c655b76c9b4f69914d966a8d5488f457f980da54786ce18dd1888d70ae52285486629b80d6802a65c15e9e4e5353db5224755476fc78d076d86f5865006d3e6e435f98724c639262cd743660155e15722c8db4556a6ca45076545585d56bb49e256b2754e68bfa7cef61e6632a759f865066965973601252aa59745f04519c6d5381137ebd94ae626d725b6cde62e7826982678266826582648263826282618260825e825d825c825b825982578256825582548253825282518250824e824d824c824a8248824682458243824282418240823f823d823c823a8232822e822982278226822582248220821d821a8219821882178216821582138211820f820e820b820a820982088207820381ff81fd81fa81f981f881f781f681f581f281f181f081ef81ee81eb81e981e881e681e581e481e281e181e081df81de81dd81dc81db81da81d981d881d781d681d581d4,
   0x63908bab6ce36c7d5f038fc46c145668780c5951542f4f014e5e5c828d779a917941794865d79f5081105d0e75666b67594768cb51766c8f67d26f0651c44e0359bb621a68166b3a671f701166dd8c316d66666e5703673457d484b283e9846183864ec694fa625152567c958feb9b4478345a4698876cfc57615c4f8bc474f651ed5e73840d82f9576a4e52805854c18d2b989162fc77a56487796874e26f0298d89a977247504f7bc78b6c5c4150fb75de533976ae75b2813e5564833d833b833783328330832e832a83298326832583248323832283218320831f831e831d831983188316831383128310830d830b830a830082ff82fe82fd82fc82fa82f882f682f582f382f282f082ee82ed82ec82ea82e982e882e782e282dd82da82d982d682d082c982c682c582c382c282c082bf82bc82bb82ba82b682b582b282a782a382a282a0829e829b829a82968295829482938290828c8289828782868285828382818280827c827b82788277827682758271826d826c826b826a,
   0x6e209a715c488eaf66f286c6533a8d8b6cc5914b56da6c42740390b14e1879cb7a77743c5e868bf7987760c56c30667464ce6e05537f503e6c228f7b97526c815bdd79bd64d282b952e4743479e64eb24fb594a67a83602f4e14830452077a8d4fcf5ced7fd864ac97985de74fa84e5477a768656084657295396a4762a25f3a853758997f8c8154545b67aa6b496b205d4c58118c346d4590636f5c524d94b394b19ed44e7e8c264edf7b7e8fc1534394c5948e626672756d3d607083ed83ec83eb83e883e783e683e483e383e283de83db83da83d983d783d583d383d283d183d083ce83cd83cb83c983c883c683c483c383c283bf83be83bb83b583af83ae83ad83ac83a783a683a583a483a383a283a1839f839d839a8399839783968395839483918390838f838d838c838b838a8388838783848383838283818380837f837e837a837983768375837483738372837183708362835d835983588357835683558353834e834d834c834b834a83488345834483428341833f833e,
   0x53c14e098d5b585e9cc3816e84286d1264925f3182e56da695f09510745e854a962e8f6f892551656c5d4e738fb159825b7a511288158339808967d463c951977ed25bb96eb67194878d836384c98338620e65e54ecd62547eab598a52038ba44efb97e75fcd4eba4ec158ec70ed60f97ed5627099768ba956b7651858e474e467d3518971c371367fa488d996c0786e69b79e4a5374763870947f3a529d523872ac62f375ca51686cc9919b674398a7570853bb8da39f8b5a3653d6847c847b84798477847484728470846f846e846a8468846784668465846484628460845f845e845d8458845684558454845384528450844f844e844d844c844b844a844984488447844584448443844284418440843f843e843b843a84398437843684358434843384328430842f842e842d842c842b842a84298423842284218420841f841e841b841a84198417841684158414841384128410840a84098408840784058402840083ff83fe83fc83fb83fa83f783f683f583f483f383ef83ee,
   0x7ef3534772727525751f58f06e17614e80be751a5a765ba16c88795e7ec55a206df18eab4f38547b753378378bbe793e6d8961515c0464448d66820d820c86c78d4a59627ecd90b554e85c1197f652fa828d70e77a0d634e68a288f35c1a4e0a664c8d4f55464f2458927f2e62476c55558481b38d6164c5965595ea886b717d52205c71674982eb73ca66527b5b715e556550bb7eb16c99523967407802838e50e768ee6da98272745f5ac2626b9a9a64144e2755d3685165634f1e85028501850084fe84fd84fb84fa84f984f884f784f684f584f484f384f284f184ef84ee84ed84eb84ea84e984e884e784e484e284e184de84dc84db84da84d984d884d784d584d484d284cf84ce84cc84cb84c884c784c684c584c384c284c084be84bc84bb84b784b684b584b384b184b084ae84ad84ac84ab84aa84a984a884a784a684a584a484a384a284a0849f849e849d849b849a84988496849584948493849284918490848f848d848a848684858484848384818480847f847e847d,
   0x6f3165705eb658857ad6620d675f68118ff0672f5c5e9f209ecd87007f7266d9669185af719f5b708d4e4e66758f6dd1821253d48f9362926b8a68b367a2852c517d762653d7552e63885bff5b889996624b65368bd589c65ba460435e026c0f997091ca4f8d4ed59002566c55dc662f52bf901d8a9362ed4e8b67ff4e1658eb793a5f0f59cb9a765c4e4f7f77e253f28bc65b9e868098df4ec065f662fe77f3534186715c388bd76e7f65bd72ee59315e08572380dc526976db770185818580857f857d857c8578857785768575857385718570856f856e856d856c856b856a85698567856685658563856285618560855f855d855c855b855a85588557855585548553855285518550854f854e854d854c854b8547854685458544854285418540853f853e8536853585348533853285318530852f852e852d852a852985288527852685258524852385228520851e851d851c851b8519851885168515851485128510850f850e850d850b850a8509850885078506850585048503,
   0x585459795b834ed6584c624095017d2274107f29550668ad84d17b0b635f5b59795f96a790427a575c81788e9ad37ee5968f968b867d7b97849c917880838bc95bbf6eaf585150f37c9f901f7d204fd7916582cf55fd64de8258641c8bf58bbc5b8b9001988260028038677e5df399724f3c4f3a56db55e35bfa80866b7b4e1d53f879c1601d5636649565af70c1671478558bf4821c987a77ac542e7a0e77616c348c01723d53cc971c62f468135e05752988706454800d5237605585f885f785f685f585f485f385f285f185f085ef85ee85ed85ec85eb85ea85e885e785e685e585e385e285e185e085df85de85dd85db85da85d985d885d785d685d485d285d185ce85cd85cc85cb85ca85c885c785c685c585c485c385c285c085bf85be85bd85bc85bb85ba85b885b685b585b485b385b285b185ad85ac85ab85a985a785a685a585a385a285a185a0859f859e859d859a8599859885978596859585948593859285918590858e858d858c858b858a85898588858685838582,
   0x70c3542c53855e1694c18d348df3773a8fe26761631181468214606c751c7530586b6dfb59295c4952436d9560d5568f66ff4f53557c8e44989863d095118e22525468af8a8a75bc817e85e4727959578ba896766dd89003684384047ee66ed46d9b638f70eb8d9f6dcc8eba50187cd65510819b68e05802642a58586c6470ad53f963a278b388926bef57668c088c2d6f6d75f06a80575b6ee9762b8d2a644a574d6c706001592a915e6cf053f062ac82d480ce8e0f8e4b631e736d866a866986688667866686658664866386618660865f865d865c865b8659865886578656865586538652864c864b864a8649864886478646864586448643864286418640863f863e863d863b863a863986378636863586348633863286318630862f862e862d862c862b862a86288626862586248623862286218620861f861e861d861c861b861a86198618861786158614861386128610860f860e860d860c860b860a86098608860786068604860386028601860085fe85fd85fc85fa85f9,
   0x5a0159845fd8671b65fa5f807f5167894ea1738b6c6a81554e075a495b9b60cb7696665a633d78975b8c70f74e38987d73a96e7e5f2f8c4c59166b6a889c74e65a036d3c86d954c76316553e62d359a5692d9a7c9a6e96409e358131625862d681c05c6f541e9000892a8715817f989363a856e26e4d51545410571f5c606d8290145f9256fe7a8179c351f8900f59346295507775db7edf7b52634568767ae55f6494dc540c77b3916e6850901a8247633a5ead4ead505c5ef76c408716871487118710870f870e870c870b870687058704870186ff86fd86fc86fb86fa86f786f686f586ef86ec86eb86ea86e886e786e686e586e386e286e186e086dd86dc86da86d786d686d586d386d286cd86cc86c886c586c386c286c186bf86be86bd86bc86bb86b986b886b786b386b286ae86ad86ab86a686a586a286a186a0869f869e869b869a86998698869786968694869286918690868f868e868986888687868686858684868386788677867686758674867386728670866f866d,
   0x727a95215438563b667077fd7852897f6790719966148bef609f52a152ff7269666496fe620a575e4fae4f0d821e534863424e946b666bcb5434543e68a7829c65e05c4b8bec6c614e4c94a8545c5deb6c8363e1536765a162117a9d6da18717631d74ee7fc155e195ee7d0a7a33543b7eb995fb6587868a6e29761f536b61705c098c136e2d4f4d9b4f558280c3754f5473851a672a7eac5c3e4f2a4f1f59d4840e82c77ef46f4d4e3a60df552f56f468458fdd97e653715fae5dcd87a487a387a287a187a0879e879d879c879b879a87998798879687958794879287918790878f878e878c878a878987878786878487818780877f877a8779877887778775877387728771876f876d876c876b876a876987688767876687628761875f875e875d875c875b875a8758875687558754875287518750874f874d874b874a8746874587448743874287418740873d873c873a8739873887368735873387328730872f872d872c872b872a87288727872687248720871f871d871b8719,
   0x66536dc65bb56d88950056a354ee524a9704785d84278c61541150cf6a615df798794eab54cd60f38be679657fd44e616e5889447bb19999957653a276f87ebf965096775baa7fa19985817a53bf732e73b09669663e5acc5f266d8e95f2823788548d2454b87ea49c9c4ed95148952863805413590f53a64e0b72ed4fa05ce166878f96971e5323867e778e7ec6620f96997cfb6d1794e3559c5ab34e605e2d88ad6a8472806c506eaa70ef718460dc5915819d60895e0c606f7a0088238820881f881e881d881c881a8819881888178814881288118810880f880e880d880c880b88098808880788068805880488028801880087ff87fd87fc87fb87fa87f887f787f687f587f487f387f287f187f087ef87ed87ec87eb87e987e887e787e687e487e387e287e187df87de87dd87dc87da87d987d887d787d687d587d487d087cf87ce87cd87cc87c987c887c787c587c487c387c287c187bf87be87bc87bb87b987b887b787b687b487b287b187b087ae87aa87a987a787a687a5,
   0x738465cb60ac5ba355a78f697eed7eea5a7f7d6e6064755c5e8f65ed53d9915784c48bb85f90987b5618865a9700620c589f7ee3889679c0950855c5673d7f9e4fee4f11718a96c46c79530880f851f6514459d36027674f5e789192884c90a25f62578b5211517460fa73298165661f88454fe15fc35ffb65b08f9b6b23950c82af85aa5c518c226cfb6cc461c887f9537868b051998c1080c1659c90aa643a631f534f978b874e6b474e9b695465487b115578809668215b5d5c0f88aa88a988a888a788a688a588a388a188a0889f889e889d889b889a88998898889788958894889388918890888f888e888c888a88898887888688838880887c887b887a8879887888768875887488738871886f886d886a886788668860885f885e885d885c885b885a8858885688558853885288518850884f884e884b884a8849884888478846884388428841883f883e883d883b883a88388837883688358834883388318830882f882e882d882c882b882a882988288827882688258824]
def gbRows5 : List Nat :=
  [0x74765996817090806f3e6837517b75d24ef06c2796336d0b7f8a75a14f6f626c676879e79e2f592e6b839a8c8c1a5bb471305f66550196c1781a538c71d5583082736f14884d773c63a959446cbf708e960e989c8a005ef65ca9871278144e2576d06df970df960954bd71098bb64e9a54d196c56daf88595d16869c725982bd4e2b54409e2d9e2662bc538b8fc5900a8baf8bad6c5b6b895de19a6f5bfb8be265ec5faa718f52cb884096ea7a745b66859b97747eda77297663900989378935893389328931892f892e892d892c89298928892789268924892389228920891f891e891d891c891889178916891589148911890f890e890d890c890b89098908890789068905890489038901890088ff88fd88fb88fa88f788f688f588f288ef88ee88ed88ec88eb88ea88e988e788e688e188e088de88dd88dc88db88da88d788d688d388d188d088cf88cd88cc88cb88ca88c888c788c488c388c088bf88be88bd88bb88ba88b988b888b688b588b488b388b288b088af88ae88ac,
   0x96905f155c39996e5bc56deb94f6541f59fb963497f36bb756e0836b83357ece7fcc7ffc5f028bd18c0a8bae8be36ea276ca4e495fc66bc5610f88d44ea675ab8084903881c65f794ebf5c79909166136291827a4ee577e34e595df2501a868169055f5d59e85b9c6c82759180f04eea79fb90575937989088634f0a4f9d94f163d6533b58f94e006db2591c814b66f353f64e1a639698754e5f51b691ce72378036564e693080008981836f820054ac59da8c237a9190655c27644789a189a0899f899e899d899c899b899a8999899889978996899589948993899289918990898f898e898d898c898b898a8989898889878985898489828980897e897d897c897a8979897889778976897589748973897289718970896f896e896d896c896b896a896989688967896589648963896289618960895d895c895b895a8959895889578956895589548953895289518950894f894e894d894c894b894a89498948894789468945894389428940893f893e893d893c893b893a89398938,
   0x8a8980b272f16b3261085fa15cea55bb9047540190c1828b57df73897fbd8bed5b8779b95c7f4e0e96e85a314e8896856e146e1d61099c7c903e4fde4f598206611a865e698676c24e8e6de48fc25e7c53c88bf191c94f5153f353cb670991496e386cb972b994c090ae75315c245fe760a04f185e7d752852c7607f6c386d8c6cf3548f86f98e0a96cd5eb875c881c34f6362e554df6620786c98965f7176c88d628fce874783678425842483b97f285e949e705a746a3182f153708a1d8a1c8a1b8a1a8a198a188a178a168a158a148a138a128a118a108a0f8a0e8a0d8a0c8a0b8a0a8a098a088a068a058a048a038a028a0189ff89fe89fd89fc89fb89fa89f989f889f789f689f589f489f289f189f089ee89ed89ec89ea89e989e889e789e489e289e189e089df89dd89db89d989d889d789d589d489d389cd89c389c089bf89be89bd89bc89bb89ba89b989b889b789b689b589b489b389b289b189b089af89ae89ad89ac89ab89aa89a989a889a789a689a589a489a389a2,
   0x8f67672d6e2355b3624e8d6066fe618e589e600e8d3c6cfd521962e98d2371e5707676829020566a8e8186a46fa165e967a385fb51ff7cdf906d846c810f8d438d5e6682651254b15728518d8f7d5bb0707e54c9683d67427838531d5b5597f56655915d85748fd051419668530090e74e918018960560a667087ca45cb394a58dc38d8a7ea666f096626028613f82d18fdc7f186e90733f5706545856ed8f9563f4539f888157a3514351a46e0a9e339a6d8c6b988488d55bd36d748a808a7f8a7e8a7d8a7c8a7b8a7a8a788a778a768a758a748a738a728a718a708a6f8a6e8a6d8a6c8a6b8a6a8a698a688a678a668a658a648a638a628a618a608a5f8a5e8a5d8a5c8a5b8a5a8a598a588a578a568a558a548a538a528a518a508a4f8a4e8a4d8a4c8a4b8a4a8a498a478a468a458a448a438a428a418a408a3f8a3d8a3c8a3b8a3a8a398a388a378a368a358a348a338a328a318a308a2f8a2e8a2d8a2c8a2b8a2a8a298a288a278a268a258a248a238a228a218a208a1f8a1e,
   0x653f6b6362ef657460144e8972f05f817741632384b896359547632f97078bca75b967954fa694888d1e81fb78277504771f659f73cd6d598fd98517951780058f9986f054f26298906e53ec808751467f6971678d756cbc627e662d62db969c763480c04ed78d265e104e0867566da8638c5f206f335f707ae06a1f7efd6e5b7ad962185360680886385c555d2d8f9765a976cf6cbe7c988a796be177bb5be8503a7a845b85658b64588bc870b84e4d548b69a86805772895f894e18ae38ae28ae18ae08adf8ade8add8adc8adb8ada8ad98ad88ad78ad68ad58ad48ad38ad28ad18ad08acf8ace8acd8acc8acb8aca8ac98ac88ac78ac68ac58ac48ac38ac28ac18ac08abf8abe8abd8abc8abb8aba8ab98ab88ab78ab68ab58ab48ab38ab28ab18ab08aaf8aae8aad8aac8aab8aaa8aa98aa88aa78aa68aa58aa48aa38aa28aa18aa08a9f8a9e8a9d8a9c8a9b8a9a8a998a988a978a968a958a948a928a918a908a8f8a8e8a8d8a8c8a8b8a888a878a868a858a848a838a828a81,
   0x7b5194f88d2e86c052a967f184574e3b563177a962c4716e70db7af990108bdb8bf8732a673186db682a73e09aa4663c5b9976b154925e1a80988f747ca58bcc6d325dde5468821f4f174ef291cd80bf79cd7ec88877949f5fe076c54e2d7a926cbb6ede75d470998d287a1a79e9667a52365cd95e1c7f6e81f481f363b7631a5fd77eb865e853ea8dbe6b62630757404f84503c62676b96690d76f4804c7ec74e4b6c41810280a277e587185431652f679d829d8bc190d175c75e278b458b448b438b428b418b408b3f8b3e8b3d8b3c8b3b8b3a8b398b388b378b368b358b348b338b328b318b308b2f8b2e8b2d8b2c8b2b8b2a8b298b288b278b258b248b238b228b218b208b1f8b1e8b1d8b1c8b1b8b1a8b198b188b178b168b158b148b138b128b118b108b0f8b0e8b0d8b0c8b0b8b0a8b098b088b068b058b048b038b028b018b008aff8afe8afd8afc8afb8afa8af98af88af78af68af58af48af38af28af18af08aef8aee8aed8aec8aeb8aea8ae98ae88ae78ae68ae58ae4,
   0xe814e813e812e811e8105ea757504f5c505a67de4f505de6662890755c0a7f6a6700918956347e8294bb7ec4963b8bc5795665cf53528db379df63cd594f8d7090b97eb5603b7efc5b978e2a68d59b035b576e0d81ea5b506ed37c7d4ed47d2b5b5c6dc46ecb59ff8d4454a851796d4a707c77405544914c83017422684c535362d9634951c68c067f0057608d588ffd9525690e72b658ee649e598688c55e8468697bc68d5a64b08f6c78164e1362fd722a62939a7b795d6ce84f4f8c1e8c098bea8bd08bc78bbb8bb18bac8b9f8b9e8b9d8b9c8b9b8b9a8b998b988b978b968b958b948b938b928b918b908b8f8b8e8b8d8b8c8b8b8b8a8b898b888b878b868b858b848b838b828b818b808b7f8b7e8b7d8b7c8b7b8b7a8b798b788b778b768b758b748b738b728b718b708b6f8b6e8b6d8b6b8b6a8b698b688b678b658b648b638b628b618b608b5f8b5e8b5d8b5c8b5b8b5a8b598b588b578b568b558b548b538b528b518b508b4f8b4e8b4d8b4c8b4b8b4a8b498b488b478b46,
   0x4f5d4f5a65384f674f5e4f2b4f094f274f254ef54f644f224ef34f1b4ede4eeb4ee14ee84ec24ec94ec34ebb7f5451825293529052815282527d84af525c5261525e524c5240523f5233522d520e52085202536353668d5c533e532e532653f5531a8d5d976553ae53a553a3539d538d4ec4560f556c5b5b82884e934e694e5c9f104e9f4e369f17777e6bd3999780e456df6c10536e723b592d4e4753154e3f79ba4e2856695b6c9b324e1e4e984e1553455eff4e1051404e0c4e8d8cad8cac8cab8caa8ca98ca88ca78ca68ca58ca48ca38ca28ca18ca08c9f8c9e8c9d8c9c8c9b8c9a8c998c978c968c958c938c928c918c908c8f8c8e8c8d8c8b8c888c878c868c848c838c818c808c7f8c7e8c7d8c7c8c7b8c778c768c758c748c728c718c708c6f8c6e8c6d8c6c8c698c688c678c668c658c648c638c608c5f8c5e8c5d8c5c8c5b8c598c588c578c568c548c538c528c518c508c4f8c4e8c4d8c4b8c4a8c488c458c448c438c428c408c3f8c3e8c3d8c3c8c3b8c3a8c398c38,
   0x51bc51bd51b151ab7fb888035b34798088d281144eb588a4886e4eb351564ea05155591951eb53108a07530d52f95914518199989ec95dfd516e7c746c469fa04fce4f654f586c3d4edd510b510750ee50e650ec50ed510650d650ba50a950a750a5507b506c504e504850555043507e50285025500c501c4ffe502d502e500f502c4ff3504c50294ff84fdf4fd14fdc4fe34fda4fc54fea4fe84fe64f944fac4f7c4faa4f7b4f7e4f8f4f834f894f914f744f764f3d4f324f574f5f8d0d8d0c8d0b8d0a8d098d088d078d068d058d048d038d028d018d008cff8cfe8cfd8cfc8cfb8cfa8cf98cf88cf78cf68cf58cf48cf38cf28cf18cf08cef8cee8ced8cec8ceb8cea8ce98ce88ce78ce68ce58ce48ce38ce28ce18ce08cdf8cde8cdd8cdc8cdb8cda8cd98cd88cd78cd68cd58cd48cd38cd28cd18cd08ccf8cce8ccd8ccc8ccb8cca8cc98cc88cc78cc68cc58cc48cc38cc28cc18cc08cbf8cbe8cbd8cbc8cbb8cba8cb98cb88cb78cb68cb58cb48cb38cb28cb18cb08caf8cae,
   0x90ba90b690b390b490a190ac9099909d909b909796b09697968d968896749672966c9667965f965496499642963c963d962a963196219622961d537a53698c368c358c338c328c2f8c2e8c2b8c2a8c278c258c218c208c1f8c1d8c188c1b8c198c168c158c148c128c118c0f8c0c8c078c048c028c008bff8bfc8bf98bf68bf38bf08bee8be98be88be48be08bdf8bdc8bd98bd88bd68bd48bd38bd28bce8bcf8bcb8bc38bc28bb78bb58bb48baa8ba78ba68ba051a551a2519651c78dd48dd38dd28dd08dcd8dca8dc98dc88dc78dc58dc28dc18dc08dbd8dbb8db98db78db68db28db08daf8dae8dad8dac8dab8daa8da98da88da78da68da58da48da28da18da08d9e8d9d8d9c8d9b8d9a8d998d988d978d968d958d938d928d908d8f8d8e8d8d8d8c8d898d888d878d868d838d828d808d7f8d7e8d7d8d7c8d7b8d7a8d798d788d728d718d6f8d6e8d6c8d6a8d698d688d658d5f8d578d528d518d208d1c8d1b8d1a8d198d188d178d168d158d148d138d128d118d108d0f8d0e,
   0x57dd57e457f857ef57f457b857d257d957da57d857d557a0579357b457a757cf57b2578c57a457ad57735776576d5768577b577c5786576b578557695742573b575c572f572e57395733572a572c572958d158c558bc587e57a157a9574c5def755a5f0153b69b2f51fc51f55ef477cd71ee53df52f052d652d054ff52be52ad52ac52a25942520d914691439139912f91319123911e9122910490fe90ef90eb90db90d790dc90e290e690d390c790c490d090be90c590cf90b090b88e718e6e8e6b8e6a8e688e678e658e648e638e628e618e608e5f8e5e8e5d8e5c8e5b8e5a8e588e578e568e558e548e538e508e4f8e4e8e4d8e4c8e468e458e438e3f8e3e8e3c8e3b8e388e378e368e348e338e328e308e2d8e2b8e288e278e268e258e248e218e208e1c8e1b8e1a8e198e188e178e168e158e138e128e118e108e0e8e0d8e0b8e088e078e068e048e038e028e018e008dff8dfe8dfc8df68df48df28df18df08dee8ded8de98de78de68de58de28de18de08ddc8dd98dd88dd5,
   0x836583668333833a832d836083178340835f83438347834f832f835e839b83318334833c83928308835c835b8351831c82d582e0831583148306831a831182d382fb830c82d882d282f482dc8307830f82e482f7830982e182a482ce82c4829f82aa82a182b482a982c182cc82cb82ae82b7829882e382ca82c882b082be82b882ab829982978291828e828482a8828a828f827f827d827961ff9f1999a85880589a58895881586c5865582058445819581e580057ed57fd580d580b8ee48ee38ee28ee18ee08edf8ede8edd8edc8edb8eda8ed98ed88ed78ed68ed58ed48ed38ed28ed18ed08ecf8ecd8ecc8ecb8eca8ec98ec88ec78ec68ec58ec48ec38ec28ec18ec08ebf8ebe8ebd8ebc8ebb8eb98eb88eb78eb68eb58eb48eb38eb18eb08eae8ead8eaa8ea98ea88ea78ea68ea58ea48ea38ea28ea18ea08e9f8e9d8e9b8e9a8e998e988e978e968e958e938e928e918e8e8e8d8e8c8e8b8e8a8e898e888e868e848e838e828e808e7e8e7d8e7b8e7a8e798e788e778e758e73,
   0x853a851f853984f08538750d850c84e384e5849784b484b984a184e084ba84bf84ca84d384bd84e684d084cd84c1846d8431848e848c847684698446843c84788489847a8488848784738459845a8451845c83e183f0842683c083c583ea83f983f88403840f83df83d4840684118438841c83d683fd83dd840b8418580783d883e5840183c183bc83ba83a8839e8398837b83b8837d83a983b6837c8385839c839383aa83a083b483b3837883b0836e836d836a836c8369831b83688f448f438f428f418f408f3f8f3e8f3d8f3c8f3b8f3a8f398f388f378f368f358f348f338f328f318f308f2f8f2e8f2d8f2c8f2b8f2a8f298f288f278f268f258f248f238f228f218f208f1f8f1e8f1d8f1c8f1b8f1a8f198f188f178f168f158f148f138f128f118f108f0f8f0e8f0d8f0c8f0b8f0a8f098f088f078f068f058f048f038f028f018f008eff8efe8efd8efc8efb8efa8ef98ef88ef78ef68ef58ef48ef38ef28ef18ef08eef8eee8eed8eec8eeb8eea8ee98ee88ee78ee68ee5,
   0x6496646d6484645e64216426640c6420641b640b6441644563be63c6645263ce63de63c463ff63e063f863f263bc63ae6369638a63ac636d63b4638e637a637163f663ad6343634b633962f6632262ee62d762da62ca62bb629f626a624c5c345c2c5c255c22530f5958595a595580375941593c5f085efe863c861686298605862785ff85dc85c185d385b085b785b98585859c85ae8579858f858785a885a4857b8572854377a2857a855e856485688548855984fc84ff853b8556901890159013900e900c900890078fff8ffe8ffc8ffb8ffa8ff68ff58ff48ff28ff18fef8fec8fe78fe38fe18fe08fda8fd78fd68fd28fcf8fcd8fcc8fcb8fca8fc98fc68fc38fc08fbf8fbc8fbb8fba8fb88fb78fb58fb48fb38fb28faf8fae8fad8fac8faa8fa78fa68fa58fa48fa28fa18fa08f9d8f928f8c8f808f6a8f658f648f638f628f618f608f5f8f5e8f5d8f5c8f5b8f5a8f598f588f578f568f558f548f538f528f518f508f4f8f4e8f4d8f4c8f4b8f4a8f498f488f478f468f45,
   0x553c5550553f55555541556d554955b5558f5567552a55275511550f5523552254f3551454fd552054e7551b54de54cf54dd54a454aa54a954dc54da54d954cc54bf54bb54d554a3547254d454d354a654a754d254b454c254ad54d0549d546654765484549b549a546454715477549454825432542354595457542154435456545454535452544b54065416541253fb53e853e953fd53f1535f5f1175195fd25f0b652e6525650964e264e464d764d064c064ba649964b864b7647a90c090bf90bd90bc90b790b290ad90ab90a990a890a790a590a490a0909f909e909c909a90989096909490929090908f908e908d908c908a908990879086908590849081907e907c907b907a90799078907790769073907290719070906f906c906b906a906990679066906490619060905f905e905d905c905a9059905690559054904e904c904b904a904990489046904590439040903f903d903a9039903790349033903290319030902c902b902a902990289027902590249023901c9019,
   0x5e3c5e3b5e315e115e145e195e0f571c5709570a570456ff56f956eb56f556e156dd56d756d456af56935685567c567b566b5671566456865654564c565c56595662564d562c565756395658562d5627560055fe562356245601560c5608561e8f9455e455f555e855cd55cc55f355f255e555ef55c455dd55e655d455ec55eb55d1561f55c955f755ea5599559455be55bd55df557b559155d6557e559f5581558855b955b1558355d2558b555c55305533557755765575555655379144914291419140913f913e913d913c913b913a91389137913691359134913391329130912e912d912c912b912a91299128912791269125912491219120911f911d911c911b911a911891179116911591149113911291119110910f910e910d910c910b910a9109910891079106910591039101910090ff90fc90fb90fa90f990f790f690f590f390f290f190f090ee90ec90ea90e990e590e490e390e090df90de90da90d990d890d690d590d490d290cd90cc90cb90c990c890c690c390c2]
def gbRows6 : List Nat :=
  [0x72fa730372f3730172f772f472f272e972ef72e872d272cd72ce72c172c372b872b772b472b072ad5f6188625fbc5fb55fad5fa85f9c5f995f955f8c5f895f875f825f775f735dc55db78c735d9d5d995d825d745d695d4a5d4b5d6b5d5d5d6f5d5b5d6c5d3d5d345d3e5d585d1b5d065d1e5d245d2e5d265d275d035d025ce55ccb5ce45cd25cc45cb75cc15ca35cb15cab5cac5cbd5ca25cb55c9c5c9a5c915c995c985c885c965c905c8d5c7a5c8c5e615e5e5e5b5e545e445e3791e591e491e391e291e191e091df91de91dd91db91da91d991d891d791d691d591d491d391d291d091cb91c891c691c591c491c391c291c191c091bf91be91bd91bc91bb91b991b891b791b691b391b291b191b091ac91ab91a991a891a791a691a591a491a191a0919f919e919d919c9199919891979196919591949193918f918e918a9188918691849183918291819180917c917b917a9173916d916b9168916791669160915f915c915b9159915891569155915491539151914891479145,
   0x6042607a607b607960786021603f600a602b6029600d600f601b6026603560195ff85fed5fea600660055ffe5fe45fe160045fee60035fcf5fd65fc95fc481ba5eea5ee85edb5ed15ed28d535eb35ebe5eb55eb95ea05ea55e965e8b5e915e8099959994999399919990998d998a998799849980997d99779974996c996b996a99699968996799635902592498e75925821b737e736f736c73607357734d735073317338732c7325733973227315731d731e730a73217313731772fb924592449243924292419240923f923e923d923c923b923a9239923892379236923592349233923292319230922f922e922d922c922b922a9229922892279226922592249223922292219220921f921e921d921c921b921a9219921892179216921592149213921292119210920f920e920d920c920b920a920992089207920692059204920392029201920091ff91fe91fd91fc91fb91fa91f991f891f791f691f591f491f391f291f191f091ef91ee91ed91ec91eb91ea91e991e891e791e6,
   0x6cfe6cef6cd36cb16cee6ceb6cfa6cd66ce06cb26cd76cf16cf86cf76cad6cd46cd06ca96c866c766c746c696c686c8c6c946c906c856ca36c4a6c5c6c546c356215723f4e2c961a96199617961696159612960f960d960c960b960a960896069604960395fe95fc95f695f595f395f195eb95e996b35fdd61f561d461b761a7619461ac6175614a612b610e610060f4612361156126612060b460da60c660d860dd60b160bb60ec609b608c60926083609d60ad609a6096607d606a92a792a692a592a492a392a292a192a0929f929e929d929c929b929a9299929892979296929592949293929292919290928f928d928c928b928a9289928892879286928592849283928292819280927f927e927d927c927b927a927992789277927692759273927292719270926f926e926d926c926b926a9269926892679266926592649263926292619260925f925e925d925c925b925a9259925892579256925592549253925292519250924f924e924d924c924b924a9249924892479246,
   0x6fd16f7a6f7c6f726f786f8c6f8d6f896f296f096f2a6f746f4b6f366f2f6ef96f156f246f476f466f626e9f6ec26e8f6ecf6eb46ed76eb76ebb6ebd6ea76ea56ee26f2d6ee06e986eb16edf6e446e256e326e546e536e866e5f6eb26e6b6e4e6e6e6e2b6dae6e0c6dab6e166dd96ddd6de66e116de06dbf6e0e6dde6dc56dc76e1a6d636d7c6d606d5c6d946d936d5e6da06d9e6d6f6d916d336d546d526d4f6d1a6d356d2e6d4d6d2b6d0e6d196d046d076d486d436d0c6d276d39930993089307930693059304930393029301930092ff92fe92fd92fc92fb92fa92f992f892f792f692f592f492f392f292f192f092ef92ee92ed92ec92eb92ea92e992e892e792e692e592e492e392e292e192e092df92de92dd92dc92db92da92d992d892d792d692d592d492d392d292d192d092cf92ce92cd92cc92cb92ca92c992c792c692c592c492c392c292c192c092bf92be92bd92bc92bb92ba92b992b892b792b692b592b492b392b292b192b092af92ad92ac92ab92aa92a992a8,
   0x59a359aa59a9598d598359815c6e9b3b5f3c82745f2d5f295f2a7fbc5c665c635b715c595c5054ab5c3b5f585f565f575f50908b908390889082907d907466b9905b9062905890689050905290519044902f902d9036903590219016900d90119026900b900490058fe88ff38fe68fe98fe48fee8fe58fd58fd38fb68b078e475bf089305bee5be464349a9e752f5bb85ba55b935b955b845b80705e704f70357039701b7023701a6fef6fe06fde6fee6fe16fc26fb66fb96fa76fc9936b9369936893679366936593649363936293619360935f935e935d935c935b935a9359935893579356935593549353935293519350934f934e934d934c934b934a9349934893479346934593449343934293419340933f933d933c933b933a9339933893379336933593349333933293319330932f932e932d932c932b932a9329932893279326932593249323932293219320931f931e931d931c931b931a9319931893179316931593149313931293119310930f930e930d930c930b930a,
   0x7ea97ea87ea57ea37ea17e9f9aa79aa59aa39aa29aa09a9f9a9d9a9c9a9b9a989a969a939a929a909a8a9a889a859a819a809a7d9a7f9a7a9a789a779a755b625b535b515b735b655b5a5c1c5c155b405b375b325b165b175b095adc5ad85ae65ad65af15ae35ae05ab85ad45ad25ab25aeb5abe5a7a5a775a9b5aaa80ec5a755a625a3c5a555a4a5a675a405a135a235a115a345a325a095a0c59f959d859e35a0859dd5a065a0559be59d759af59b259d259a4599e59ab59ca599793cd93cc93cb93c993c893c793c693c593c493c393c293c193c093bf93be93bd93bc93bb93ba93b993b893b793b693b593b493b393b293b193b093af93ae93ad93ac93ab93aa93a993a893a793a693a593a493a393a293a193a0939f939e939d939c939b939a9399939893979396939593949393939293919390938e938d938c938b938a9389938893879386938593849383938293819380937f937e937d937c937b937a9379937893779376937593749373937293719370936f936e936d936c,
   0x742c742e7430742874257426745b742a740f73f273ba73de73e773e9740a987c73d973e573c873c973c073b373b773d173c273cf739f73a273ae7391738e9095753e5ddb757f5e7a7f357f337f327f317f307f2f7f2d7f2c7f2b7f2a7f277f267f257f247f237f227f217f1f7f1b7f1c7f197f177f127f117f0f7f0c7f0b7f087f077f037f027f017efe7efb7efa7ef67f0d7ef27ef17eef7eee7eeb7ee87ee17ee07edb7ed77ed47ed07ecc7ecb7ec97ec27ec17ec07ebe7eb07ead942e942d942c942b942a9429942894279426942594249423942294219420941f941e941d941c941b941a9419941894179416941594149413941294119410940f940e940d940c940b940a940994089407940694059404940394029401940093ff93fe93fd93fc93fb93fa93f993f893f793f693f593f493f393f293f193f093ef93ee93ed93ec93eb93ea93e993e893e793e693e593e493e393e293e193e093df93de93dd93dc93db93da93d993d893d793d593d493d393d293d193d093cf93ce,
   0x68f96920691f68fc696e68c2686b689368776874688f68b568296849684a683e68406867684168666855681d6883686468446862684e686168606833683267fd67c1680e67e267b867c3680067dd67b367da67b567d9680c67b067e9680a67d8680967f0677c6777678b67ad679e67a8677567a767986773676a678767a567696748675e6753674c97ec97eb97ea74ba74d274a7749074a974a8749e748b748774817480748e749c747e746d7477745974557457745c7441741a741b9520951c94fb94e694da94d494d394cf94c794989496949194849483948294819480947f947e947d947c947b947a9479947894779476947594749473947294719470946f946e946d946c946a9469946894679466946594649463946294619460945f945e945d945c945b945a9459945894579456945594549453945294519450944f944e944d944c944b944a9449944894479446944594449443944294419440943f943d943c943b943a9439943894379436943594349433943294319430942f,
   0x8f8b8f878f848f828f818f7e8f7c8f7a8f798f778f788f768f758f738f728f718f6d8f6b6baa6ba16b9b6b9a6b8d6b936b926b846b876b826b81735273376aab6a976aa96a906a916a7c6a586a286a3d6a796a8e6a356a5b6a506aa06a3e6a4469f26a656a186a1769ed6a2f69ff698d69e0699569df69ca69c169b169d469ad69ab69bb69a7699b697969636966698969ce6988698769cc6934697869986980696b6984695d6942696069396971691068e369576901690b68f0692495cb95ca95c995c895c795c695c595c495c395c295c195c095bf95be95bd95bc95bb95ba95b995b895b795b695b595b495b395b295b195b095af95ae95ad95ac95ab95aa95a995a895a795a695a595a495a395a295a195a0959f959e959d959c959b959a9599959895979596959595949593959295919590958f958e958d958c958b958a9589958895879586958595849583958295819580957e957d957c957b957a95799578957795759574956e9560955a9555954b95489543953d95339527,
   0x63b0633263087292728f728d728b7284727f727e726f7266725d729f726e89d189d089cf89ce89cc89cb89ca89c78d598d558d4d8d478d498d488d468d458d408d3d8d3b8d368d338d3266e966e666dc66db66be669d66a7668c66846677665766616656664f66416654665f80066635663666316634661d66f7708566006615660367726619660a65f065ef65ee653475137511750f74ff74f474ef81e7622c6224622562216222621f621b6217620b8ece8f9a8f988f8f8f8e8f8d968a9689968796849683968296819680967f967e967d967c967b967a96799678967396719670966f966e966d966b9666966596639660965e965d965c965a9659965896579656965396529651964f964e964a96439641963e963a9639963896379630962f962d962c962b96299628962796269625962496239620961e961b96189613960795ff95ec95e795e695e595e495e395e295e195e095df95de95dd95dc95db95da95d995d895d795d695d595d495d395d295d195d095cf95ce95cd95cc,
   0x81bb81ca672681cc81aa81a36ed58191818281885ab5584d8167816d817d817c816981608171815a815981748153814c814881328118812c811e81368c5a8112671580fc80f2810e810d80ed80f480f180eb80dd671080d780cd80d980c480c280db80ea80e980e880e780b780b480ad80ab80b180bd670a80bc8093809c809f52168662723072567252724d656b655565356c326c2a6c246c296c216c1a6c196c186c156c0d6c066c076c056bf96bf56bfd6bf36bea800464d8643f9720971f971d971b971a97199718971797159714971297119710970c970b970a97059703970296ff96fd96fc96fb96fa96f896f596f496f296f196f096ee96ed96ec96eb96e796e696e596e496e396e296e196df96de96dd96dc96db96da96d996d896d796d696d496d396d196d096cb96ca96c896c396c296bf96bb96ba96b896b796b596b496b296b196af96ae96ad96ac96ab96aa96a996a896a696a596a496a396a296a196a0969f969e969d969b969a96969695969396929691968e968c,
   0x5fd05fd179b379a7799a798a7985797a7967796f796079577962795a7953795c795b794979467940793b624962486243623d623e71b971667118706c7228721d71f971e771d471e071a071a871b571b37198717a7178714a717271457168715c71737131712f71167113711070ca70e870b170ab70b770c070bb709d7096709c708065d665d265ce65cc65c365c465c665bc65939f51659089f36bc25f406bb398da98d998d598d398d298d16b596b466b436b396b376b2481a681c1979d979c979b979a979997979796979597939790978f978e978c978a978997889787978697849783978297819780977f977e977d977b977a9779977897779775977297719770976f976e976d976c976b976a97689767976697649763975f975d975c975a975897579755975497519750974f974e974d974c974b974a9749974897479746974597449743974297419740973f973d973c973b973a973797369735973497339731972f972e972c972b972997289727972697259724972397229721,
   0x7768775a7743774777517750773877357726772d77197722771a7708770776f9770d770476f19efc9efb9ef99f9b7934791e7924791378f4790578f278ec78c978d978d478a578b978b278a378a1789c7887789a7893789b786a784c78477850782678577856786d784e78297823782c7825783c781f783b783a7839781d781c782d65ab7811781878177809780077f877f66dfc6cf66c93807f8080620661d161cb619d61a9615d610d610660ab6063605960416067605a605d603c980e980d980c980b980a980998089807980698059804980398029801980097ff97fe97fd97fc97fb97fa97f997f897f797f497f297f197f097ef97ee97e897e597e497e397e297e197e097df97de97dd97dc97db97da97d997d897d797d697d597d497d397d297d197d097cf97ce97cd97cc97cb97ca97c997c897c797c697c597c497c397c297c197c097bf97be97bd97bc97bb97ba97b997b897b797b697b597b397b197b097ae97ac97aa97a997a897a797a697a597a497a297a1979f979e,
   0x94ea94e894e794e594e494e294e094df94de94db94d894d994d794d694d594d294d194d094ce94cd94cc94cb94ca94c994c894c494bf94bd94bc94ba94b994b894b794b694b494b294b094af94ac94ad94aa94ab94a494a3949c949b949a9495949794949490948f948d948c948a948b948794869485883276e576cd7f7e7f817f797f717f747f688a487f5f7f617f58758375797572755b7548754b754e7540753a77bd77b577b077a0779f7791778c7780777d778d777f77657762986e986d986c986b986a9869986898679866986598649863986298619860985f985e985d985c985b985a9859985898579856985598549853985298519850984f984e984d984c984b984a9849984898479846984598449843984298419840983f983e983d983c983b983a9839983898379836983598349833983298319830982f982e982d982c982b982a9829982898279826982598249823982298219820981f981e981d981c981b981a9819981898179816981598149813981298119810980f,
   0x7a147a1e7a027a035d477a0679eb79e379ed79d596c977ec77e7953a957395729571956f956c956b956a95699568956795669565956495629561955d955f955e955b9559955895579556955495539552954f954e954c954995469545954495359542953f953e953c953895379536953495329531952c9529952b952a9522951f951e951d951b951895169515951495139512950f950e950d950a9509950795069502950394ff94fd94fc94f994f794f594f494f394ef94ee94eb94e99907990699059904990399029901990098ff98fe98fd98fc98fb98fa98f998f898f798f698f598f498f398f298f198f098ef98ee98ed98ec98eb98ea98e998e698e598e498e398e298e198e098dd98dc98db98d798d698d498d098cf98cd98cc98cb98ca98c998c898c798c698c598c498c398c298c198c098bf98be98bd98bc98bb98ba98b998b898b798b698b598b498b398b298b198b098af98ae98ad98ac98ab98aa98a998a898a3989998959892988e988b98749873987298719870986f,
   0x7619761576187625760a7617760c76057600761075ff75fc75f1760375e775eb75e475e675e875e375cd75d675c275c375b075b175c475b875b475b375a375ac759d75a07596759475929e739e6d9e719e6c9e6b9e6a9e699e689e679e669e639e5e9e5c9e5b9e5a9e579e559e519e4e9e4c9e4b9e499e489e479e469e449e429e419e3e9e3a9e399e379e389e369e319e329e2c9e2b9e2a9e299e289e229e20752c74e074de76a476997693768e76887a7099a59ecf7a517a377a39998999839982997e997b99799978997399669964996299619960995f995e995d995c995b995a99599958995799569953995299519950994f994e994d994c994b994a9949994899479946994599449943994299419940993f993e993d993c993b993a9939993899379936993599349933993299319930992f992d992c992b992a9929992899279926992599249923992299219920991f991e991d991c991b991a991999189917991699159914991399129911990f990e990c990b990a99099908]
def gbRows7 : List Nat :=
  [0x9883988098788983807180698052804d804680438035800b80318028802980278026802580228020801c80168014801277dc76b476b280e5758b897b896689418936892b8934890a891b89138919892188f088fe88e888fc891a88f188e588e388ce88e288c988bc88b788c688a28882887f887d8872886988647ab37aad7aa87aac7aa07aa67a957a887a867a807a797a787ae67fca766f766b7656765c7654765e764d7633763e76437635763f7630762d764076207622763c761b99f999f899f799f699f599f499f399f299f199f099ef99ee99ed99ec99eb99ea99e999e899e799e699e599e499e399e299e199e099df99de99dd99dc99db99da99d999d899d799d699d599d499d399d299d199d099cf99ce99cd99cc99cb99ca99c999c899c799c699c599c499c399c299c199c099bf99be99bd99bc99bb99ba99b999b899b799b699b599b499b399b299b199b099af99ae99ad99ac99ab99aa99a999a799a699a499a399a299a199a0999f999e999d999c999b999a998e998c,
   0x87d287a887af8793876587598764877c87638753878b876e874c87708760877b877e877d87228782873f87378729873187348748873e871a872e8725871e873b87238709870d870a870886f88707870386d186d886df86f486de871386d086f386ed86f286f186e986b486cf86c986af86b186ba86b086ce86b586c486b686a9869386aa86a386a7869d86ac868b868d86a8867b867c867a867f866e866c8654864d98a698a598a298a1989f989e989b989a9894988f988d988c98899a599a589a579a569a559a549a539a529a519a509a4f9a4e9a4d9a4c9a4b9a4a9a499a489a479a469a459a449a439a429a419a409a3f9a3e9a3d9a3c9a3b9a3a9a399a389a379a369a359a349a339a329a319a309a2f9a2e9a2d9a2c9a2b9a2a9a299a289a279a269a259a249a239a229a219a209a1f9a1e9a1d9a1c9a1b9a1a9a199a189a179a169a159a149a139a129a119a109a0f9a0e9a0d9a0c9a0b9a0a9a099a089a079a069a059a049a039a029a019a0099ff99fe99fd99fc99fb99fa,
   0x7c0b7c167c0f7bfc7bfe7c0c7bea7be67be57bda7bdd7bcc7bc17bd17bb47bab7ba27b9c7baa7b857ba87b9d7bac7bb87ba77ba67b907b717b727b627b7b7b6e7b607b5d7b4c7b757b457b5a7b587b1e7b3e7b337b247b257b207b317b2e7b197b2a7b387b477b0f7b2b7b0a7b157b047b037b087afd7afa82107f457f447f427f36883c88398821881b880a87fe8813881687ee87e087ea87db87ca87c087d187bd87d387cb87b387b587ac87e587ab8783879787ad8785878887c69b069b059b049b029b019b009aff9afe9afd9afc9afa9af89af79af69af59af49af39af29af19af09aee9aec9aea9ae99ae89ae79ae59ae49ae39ae29ae09ade9add9adc9adb9ada9ad99ad79ad69ad59ad49ad29ad09acf9ace9acd9aca9ac99ac89ac79ac69ac49ac39abf9abe9abd9abb9ab99ab59ab49ab39ab29aaf9aae9aad9aac9aab9aaa9aa99aa69a999a959a949a8e9a8d9a899a839a729a6b9a6a9a699a689a679a669a659a649a639a629a619a609a5f9a5e9a5d9a5c9a5b9a5a,
   0x9164914f914e9150914a8c498c478d6d8d678db18d918d948d848d739eb49eb87e9b7e477dae7da67d777cf87ff37fee7fe97fe67fe17fe57fd57fce7fbf66a8826e7ce87cd77cc57cc87ccd7ccc7cc77cc17cbd7cbc7cb27ca27c9e7c9c7c9d7c9165497c7c7fb27fb07faf7fa77f9f7f9d895e88df88d888888885887e8268825f825a824f824b82498244823e82348233823b8238822b8228822f822d822382228221884481ec82048202820181fe7c407c417c387c267c2a7c1f9b7b9b7a9b799b789b779b769b759b749b739b729b719b709b6f9b6e9b6d9b6c9b6b9b6a9b699b689b679b669b659b649b639b629b619b609b5f9b5e9b5d9b5c9b5b9b5a9b599b589b579b569b559b539b529b509b4e9b4c9b4b9b4a9b469b409b3f9b3e9b3d9b3a9b399b389b379b369b359b349b339b319b309b2e9b2d9b2c9b2b9b2a9b299b289b279b269b259b249b229b219b209b1e9b1d9b1c9b1b9b1a9b199b189b179b169b159b149b129b119b109b0e9b0d9b0c9b0b9b0a9b099b07,
   0x89dc89da89de89d6659b8c948c988c858c8a8c828c788e9e8e9c8e908e948e8f8e858e748e6f8e7c8e768e708e4a8e528e518e428e418e498e318e3d8e358e398e408e3a8e2f8e238e2e8e2c8e1f8e1d8e148dfd8e098de48dfb8df98de38df88df78dec8dc68ddb8dcf8dce8dde8dda8dd78dd68dc48dba8dbc8dbf8db58e698e598e058deb8db89e7e8c5591ba91b491b591af91ae91ad91aa91a391a29191918d91909185918c917991749172917e917d916f91699170916191629bdb9bda9bd99bd89bd79bd69bd59bd49bd39bd29bd19bd09bcf9bce9bcd9bcc9bcb9bca9bc99bc89bc79bc69bc59bc49bc39bc29bc19bc09bbf9bbe9bbd9bbc9bbb9bba9bb99bb89bb79bb69bb59bb49bb39bb29bb19bb09baf9bae9bad9bac9bab9baa9ba99ba89ba79ba69ba59ba49ba39ba29ba19ba09b9f9b9e9b9d9b9c9b9b9b9a9b999b989b979b969b959b949b939b929b919b909b8f9b8e9b8d9b8c9b8b9b8a9b899b889b879b869b859b849b839b829b819b809b7f9b7e9b7d9b7c,
   0x9ccb9cca9cc79cc69cc59cc49cbd9cbc9cbb9cba9cb79cb69cb59cb49cb39cb29cb19cb09cae9cad9cab9ca99ca89ca79ca69ca59ca39ca29ca19ca09c9f9c9e9c9b9c9a9c959c949c929c919c909c8e9c8b7a239c889c879c869c859c829c7f946b943e938f93ca936a933e92c892ae928e96e077bf96d296ce96bd96bc96b99f0d9f0b9efe9f8c9f8a9f899f889f879f869f859f839f80973e9730972d972a970e970f97089701970696ef96f396e997538b268a3e89ef89eb89e59c3b9c3a9c399c389c379c369c359c349c339c329c319c309c2f9c2e9c2d9c2c9c2b9c2a9c299c289c279c269c259c249c239c229c219c209c1f9c1e9c1d9c1c9c1b9c1a9c199c189c179c169c159c149c139c129c119c109c0f9c0e9c0d9c0c9c0b9c0a9c099c089c079c069c059c049c039c029c019c009bff9bfe9bfd9bfc9bfb9bfa9bf99bf89bf79bf69bf59bf49bf39bf29bf19bf09bef9bee9bed9bec9beb9bea9be99be89be79be69be59be49be39be29be19be09bdf9bde9bdd9bdc,
   0x9f449f3e9f3d9f379f399f2f9f2c9f229eef9eea9ee59ee79ee99ee29edf9ee09edd9edc9edb9e9f9e9d93d69e929e8b9e889e879e827e3b9ebe9ebd9b239b1f9b139b0f9b089af99aed9afb9aeb9aef9ae69ae19adf99549955992e990d98e89b519b4d9b489b499b479b439b459ad19acc9acb9ac29ac59ac09ac19abc9aba9ab69e589ab79ab09ab197b497b297a397ab97af9794979297919785977c9ce29cdf9cdd9cdc9cd99cd89cd79cd59cd49cd39cd09ccf9cce9ccd9ccc9ce19ce09cdb9cda9cd29cd19cc99cc89cc29cc19cc09cbf9cbe9cb99caf9cac9caa9c9d9c999c989c979c969c939c8f9c8c9c8a9c899c849c839c809c7e9c7d9c7b9c7a9c799c789c779c769c759c749c739c729c719c709c6f9c6e9c6d9c6c9c6b9c6a9c699c689c679c669c659c649c639c629c619c609c5f9c5e9c5d9c5c9c5b9c5a9c599c589c579c569c559c549c539c529c519c509c4f9c4e9c4d9c4c9c4b9c4a9c499c489c479c469c459c449c439c429c419c409c3f9c3e9c3d9c3c,
   0xe291e290e28fe28ee28de28ce28be28ae289e288e287e286e285e284e283e282e281e280e27fe27ee27de27ce27be27ae279e278e277e276e275e274e273e272e271e270e26fe26ee26de26ce26be26ae269e268e267e266e265e264e263e262e261e260e25fe25ee25de25ce25be25ae259e258e257e256e255e254e253e252e251e250e24fe24ee24de24ce24be24ae249e248e247e246e245e244e243e242e241e240e23fe23ee23de23ce23be23ae239e238e237e236e235e2349d429d419d409d3f9d3e9d3d9d3c9d3b9d3a9d399d389d379d369d359d349d339d329d319d309d2f9d2e9d2d9d2c9d2b9d2a9d299d289d279d269d259d249d239d229d219d209d1f9d1e9d1d9d1c9d1b9d1a9d199d189d179d169d159d149d139d129d119d109d0f9d0e9d0d9d0c9d0b9d0a9d099d089d079d069d059d049d039d029d019d009cff9cfe9cfd9cfc9cfb9cfa9cf99cf89cf79cf69cf59cf49cf39cf29cf19cf09cef9cee9ced9cec9ceb9cea9ce99ce89ce79ce69ce59ce49ce3,
   0xe2efe2eee2ede2ece2ebe2eae2e9e2e8e2e7e2e6e2e5e2e4e2e3e2e2e2e1e2e0e2dfe2dee2dde2dce2dbe2dae2d9e2d8e2d7e2d6e2d5e2d4e2d3e2d2e2d1e2d0e2cfe2cee2cde2cce2cbe2cae2c9e2c8e2c7e2c6e2c5e2c4e2c3e2c2e2c1e2c0e2bfe2bee2bde2bce2bbe2bae2b9e2b8e2b7e2b6e2b5e2b4e2b3e2b2e2b1e2b0e2afe2aee2ade2ace2abe2aae2a9e2a8e2a7e2a6e2a5e2a4e2a3e2a2e2a1e2a0e29fe29ee29de29ce29be29ae299e298e297e296e295e294e293e2929da29da19da09d9f9d9e9d9d9d9c9d9b9d9a9d999d989d979d969d959d949d939d929d919d909d8f9d8e9d8d9d8c9d8b9d8a9d899d889d879d869d859d849d839d829d819d809d7f9d7e9d7d9d7c9d7b9d7a9d799d789d779d769d759d749d739d729d719d709d6f9d6e9d6d9d6c9d6b9d6a9d699d689d679d669d659d649d639d629d619d609d5f9d5e9d5d9d5c9d5b9d5a9d599d589d579d569d559d549d539d529d519d509d4f9d4e9d4d9d4c9d4b9d4a9d499d489d479d469d459d449d43,
   0xe34de34ce34be34ae349e348e347e346e345e344e343e342e341e340e33fe33ee33de33ce33be33ae339e338e337e336e335e334e333e332e331e330e32fe32ee32de32ce32be32ae329e328e327e326e325e324e323e322e321e320e31fe31ee31de31ce31be31ae319e318e317e316e315e314e313e312e311e310e30fe30ee30de30ce30be30ae309e308e307e306e305e304e303e302e301e300e2ffe2fee2fde2fce2fbe2fae2f9e2f8e2f7e2f6e2f5e2f4e2f3e2f2e2f1e2f09e029e019e009dff9dfe9dfd9dfc9dfb9dfa9df99df89df79df69df59df49df39df29df19df09def9dee9ded9dec9deb9dea9de99de89de79de69de59de49de39de29de19de09ddf9dde9ddd9ddc9ddb9dda9dd99dd89dd79dd69dd59dd49dd39dd29dd19dd09dcf9dce9dcd9dcc9dcb9dca9dc99dc89dc79dc69dc59dc49dc39dc29dc19dc09dbf9dbe9dbd9dbc9dbb9dba9db99db89db79db69db59db49db39db29db19db09daf9dae9dad9dac9dab9daa9da99da89da79da69da59da49da3,
   0xe3abe3aae3a9e3a8e3a7e3a6e3a5e3a4e3a3e3a2e3a1e3a0e39fe39ee39de39ce39be39ae399e398e397e396e395e394e393e392e391e390e38fe38ee38de38ce38be38ae389e388e387e386e385e384e383e382e381e380e37fe37ee37de37ce37be37ae379e378e377e376e375e374e373e372e371e370e36fe36ee36de36ce36be36ae369e368e367e366e365e364e363e362e361e360e35fe35ee35de35ce35be35ae359e358e357e356e355e354e353e352e351e350e34fe34e9eaa9ea99ea89ea79ea59ea49ea39ea29ea19ea09e9e9e9c9e9b9e9a9e999e989e979e969e959e949e919e909e8f9e8e9e8d9e8c9e8a9e899e869e859e849e839e819e809e7d9e7c9e7b9e7a9e799e789e779e769e759e749e729e6f9e6e9e659e629e619e609e5f9e5d9e599e569e549e539e529e509e4d9e409e3c9e3b9e349e309e2e9e279e249e1e9e1d9e1c9e1b9e1a9e199e189e179e169e159e149e139e129e119e109e0f9e0e9e0d9e0c9e0b9e0a9e099e089e079e069e059e049e03,
   0xe409e408e407e406e405e404e403e402e401e400e3ffe3fee3fde3fce3fbe3fae3f9e3f8e3f7e3f6e3f5e3f4e3f3e3f2e3f1e3f0e3efe3eee3ede3ece3ebe3eae3e9e3e8e3e7e3e6e3e5e3e4e3e3e3e2e3e1e3e0e3dfe3dee3dde3dce3dbe3dae3d9e3d8e3d7e3d6e3d5e3d4e3d3e3d2e3d1e3d0e3cfe3cee3cde3cce3cbe3cae3c9e3c8e3c7e3c6e3c5e3c4e3c3e3c2e3c1e3c0e3bfe3bee3bde3bce3bbe3bae3b9e3b8e3b7e3b6e3b5e3b4e3b3e3b2e3b1e3b0e3afe3aee3ade3ac9f319f309f2e9f2d9f2b9f2a9f299f289f279f269f259f249f239f219f1f9f1e9f1d9f1c9f1b9f1a9f189f169f159f149f129f119f0f9f0c9f0a9f099f089f079f069f059f049f039f029f019f009eff9efd9efa9ef89ef79ef69ef59ef49ef39ef29ef19ef09eee9eed9eec9eeb9ee89ee69ee49ee39ee19ede9eda9ed99ed79ed69ed59ed39ed29ed09ecc9ecb9eca9ec89ec79ec69ec59ec39ec29ec19ec09ebf9ebc9eba9eb99eb79eb69eb59eb39eb29eb19eb09eaf9eae9ead9eac9eab,
   0xe467e466e465e464e463e462e461e460e45fe45ee45de45ce45be45ae459e458e457e456e455e454e453e452e451e450e44fe44ee44de44ce44be44ae449e448e447e446e445e444e443e442e441e440e43fe43ee43de43ce43be43ae439e438e437e436e435e434e433e432e431e430e42fe42ee42de42ce42be42ae429e428e427e426e425e424e423e422e421e420e41fe41ee41de41ce41be41ae419e418e417e416e415e414e413e412e411e410e40fe40ee40de40ce40be40af9f1f9e7f995f979f92c9fa59fa49fa39fa29fa19f9e9f9d9f9c9f989f979f969f959f949f939f929f919f909f8f9f8e9f8d9f829f819f7e9f7d9f7c9f7b9f7a9f799f789f779f769f759f749f739f729f719f709f6f9f6e9f6d9f6c9f6b9f6a9f699f689f679f669f659f649f639f629f619f609f5f9f5e9f5d9f5c9f5b9f5a9f599f589f579f569f559f549f539f529f4f9f4e9f4d9f4c9f4b9f4a9f499f489f479f469f459f439f429f419f409f3f9f3c9f3a9f389f369f359f349f339f32,
   0xe4c5e4c4e4c3e4c2e4c1e4c0e4bfe4bee4bde4bce4bbe4bae4b9e4b8e4b7e4b6e4b5e4b4e4b3e4b2e4b1e4b0e4afe4aee4ade4ace4abe4aae4a9e4a8e4a7e4a6e4a5e4a4e4a3e4a2e4a1e4a0e49fe49ee49de49ce49be49ae499e498e497e496e495e494e493e492e491e490e48fe48ee48de48ce48be48ae489e488e487e486e485e484e483e482e481e480e47fe47ee47de47ce47be47ae479e478e477e476e475e474e473e472e471e470e46fe46ee46de46ce46be46ae469e4689fbb4dae4d194d184d174d164d154d144d134ca24c774ca14ca04c9f4ca3e8559fba49b649b7499b499f4986498549834982497d497a49472eca478d477c472947239fb9464c466144d643dd2ebb43ac43b1e83b2eb72eb62eb343372eae415f40562eaa9fb8e8312ea73ce03c6e3b4e9fb79fb639d03a7339df39cf9fb53918396e2e972e8c360e361a359e9fb42e8b2e88344734732e84e818e817e8162e81fa29fa28fa27fa24fa23fa21fa20fa1ffa18fa14fa13fa11fa0ffa0efa0dfa0c]
/-- GB18030: rows of 190 for lead bytes 0x81 to 0xFE. -/
def gbRows : List Nat := gbRows0 ++ gbRows1 ++ gbRows2 ++ gbRows3 ++ gbRows4 ++ gbRows5 ++ gbRows6 ++ gbRows7
/-- Ranges of the four-byte codes of GB18030: the first pointer of each and its code point. -/
def gbRanges : List (Nat × Nat) :=
  [(0, 128), (36, 165), (38, 169), (45, 178), (50, 184), (81, 216), (89, 226), (95, 235), (96, 238), (100, 244), (103, 248), (104, 251), (105, 253), (109, 258), (126, 276), (133, 284), (148, 300), (172, 325), (175, 329), (179, 334), (208, 364), (306, 463), (307, 465), (308, 467), (309, 469), (310, 471), (311, 473), (312, 475), (313, 477), (341, 506), (428, 594), (443, 610), (544, 712), (545, 716), (558, 730), (741, 930), (742, 938), (749, 962), (750, 970), (805, 1026), (819, 1104), (820, 1106), (7922, 8209), (7924, 8215), (7925, 8218), (7927, 8222), (7934, 8231), (7943, 8241), (7944, 8244), (7945, 8246)] ++
  [(7950, 8252), (8062, 8365), (8148, 8452), (8149, 8454), (8152, 8458), (8164, 8471), (8174, 8482), (8236, 8556), (8240, 8570), (8262, 8596), (8264, 8602), (8374, 8713), (8380, 8720), (8381, 8722), (8384, 8726), (8388, 8731), (8390, 8737), (8392, 8740), (8393, 8742), (8394, 8748), (8396, 8751), (8401, 8760), (8406, 8766), (8416, 8777), (8419, 8781), (8424, 8787), (8437, 8802), (8439, 8808), (8445, 8816), (8482, 8854), (8485, 8858), (8496, 8870), (8521, 8896), (8603, 8979), (8936, 9322), (8946, 9372), (9046, 9548), (9050, 9588), (9063, 9616), (9066, 9622), (9076, 9634), (9092, 9652), (9100, 9662), (9108, 9672), (9111, 9676), (9113, 9680), (9131, 9702), (9162, 9735), (9164, 9738), (9218, 9793)] ++
  [(9219, 9795), (11329, 11906), (11331, 11909), (11334, 11913), (11336, 11917), (11346, 11928), (11361, 11944), (11363, 11947), (11366, 11951), (11370, 11956), (11372, 11960), (11375, 11964), (11389, 11979), (11682, 12284), (11686, 12292), (11687, 12312), (11692, 12319), (11694, 12330), (11714, 12351), (11716, 12436), (11723, 12447), (11725, 12535), (11730, 12543), (11736, 12586), (11982, 12842), (11989, 12850), (12102, 12964), (12336, 13200), (12348, 13215), (12350, 13218), (12384, 13253), (12393, 13263), (12395, 13267), (12397, 13270), (12510, 13384), (12553, 13428), (12851, 13727), (12962, 13839), (12973, 13851), (13738, 14617), (13823, 14703), (13919, 14801), (13933, 14816), (14080, 14964), (14298, 15183), (14585, 15471), (14698, 15585), (15583, 16471), (15847, 16736), (16318, 17208)] ++
  [(16434, 17325), (16438, 17330), (16481, 17374), (16729, 17623), (17102, 17997), (17122, 18018), (17315, 18212), (17320, 18218), (17402, 18301), (17418, 18318), (17859, 18760), (17909, 18811), (17911, 18814), (17915, 18820), (17916, 18823), (17936, 18844), (17939, 18848), (17961, 18872), (18664, 19576), (18703, 19620), (18814, 19738), (18962, 19887), (19043, 40870), (33469, 59244), (33470, 59336), (33471, 59367), (33484, 59413), (33485, 59417), (33490, 59423), (33497, 59431), (33501, 59437), (33505, 59443), (33513, 59452), (33520, 59460), (33536, 59478), (33550, 59493), (37845, 63789), (37921, 63866), (37948, 63894), (38029, 63976), (38038, 63986), (38064, 64016), (38065, 64018), (38066, 64021), (38069, 64025), (38075, 64034), (38076, 64037), (38078, 64042), (39108, 65074), (39109, 65093)] ++
  [(39113, 65107), (39114, 65112), (39115, 65127), (39116, 65132), (39265, 65375), (39394, 65510)]

/-- A byte below 0x80 after a lead byte that makes no pair is read again. -/
def pairError (c : Byte) : Option Nat × Nat := (none, if c.toNat < 0x80 then 1 else 2)

/-- The Shift_JIS decoder: the first character, or an error, and the bytes it takes. -/
def sjisChar (b : Byte) (bs : List Byte) : Option Nat × Nat :=
  let x := b.toNat
  if x ≤ 0x80 then (some x, 1)
  else if 0xA1 ≤ x ∧ x ≤ 0xDF then (some (0xFF61 + (x - 0xA1)), 1)
  else if x = 0xA0 ∨ 0xFC < x then (none, 1)
  else match bs with
    | [] => (none, 1)
    | c :: _ =>
      let y := c.toNat
      if y < 0x40 ∨ y = 0x7F ∨ 0xFC < y then pairError c
      else match rowAt (sjisRows.getD (if x < 0xA0 then x - 0x81 else x - 0xC1) 0) (if y < 0x7F then y - 0x40 else y - 0x41) with
        | some u => (some u, 2)
        | none => pairError c

/-- The EUC-KR decoder. -/
def uhcChar (b : Byte) (bs : List Byte) : Option Nat × Nat :=
  let x := b.toNat
  if x < 0x80 then (some x, 1)
  else if x = 0x80 ∨ x = 0xFF then (none, 1)
  else match bs with
    | [] => (none, 1)
    | c :: _ =>
      let y := c.toNat
      if y < 0x41 ∨ y = 0xFF then pairError c
      else match rowAt (uhcRows.getD (x - 0x81) 0) (y - 0x41) with
        | some u => (some u, 2)
        | none => pairError c

/-- The code point of a four-byte pointer of GB18030. -/
def gbRange (p : Nat) : Option Nat :=
  if (39419 < p ∧ p < 189000) ∨ 1237575 < p then none
  else if p = 7457 then some 0xE7C7
  else if 189000 ≤ p then some (p - 189000 + 0x10000)
  else (gbRanges.foldl (fun (acc : Option (Nat × Nat)) r => if r.1 ≤ p then some r else acc) none).map fun r => r.2 + (p - r.1)
def isDigit (b : Byte) : Bool := decide (0x30 ≤ b.toNat ∧ b.toNat ≤ 0x39)
/-- A byte that leads a pair. -/
def isLead (b : Byte) : Bool := decide (0x81 ≤ b.toNat ∧ b.toNat ≤ 0xFE)
/-- The GB18030 decoder. -/
def gbChar (b : Byte) (bs : List Byte) : Option Nat × Nat :=
  let x := b.toNat
  if x < 0x80 then (some x, 1)
  else if x = 0x80 then (some 0x20AC, 1)
  else if x = 0xFF then (none, 1)
  else match bs with
    | [] => (none, 1)
    | c :: rest =>
      let y := c.toNat
      if isDigit c then match rest with
        | [] => (none, 2)
        | e :: rest =>
          if !isLead e then (none, 1)
          else match rest with
            | [] => (none, 3)
            | f :: _ =>
              if !isDigit f then (none, 1)
              else (gbRange ((x - 0x81) * 12600 + (y - 0x30) * 1260 + (e.toNat - 0x81) * 10 + (f.toNat - 0x30)), 4)
      else if y < 0x40 ∨ y = 0x7F ∨ y = 0xFF then pairError c
      else match rowAt (gbRows.getD (x - 0x81) 0) (if y < 0x7F then y - 0x40 else y - 0x41) with
        | some u => (some u, 2)
        | none => pairError c

/-- A single-byte set: bytes below 0x80 are themselves, the others by its upper half. -/
def singleByte (mib : Nat) (b : Byte) : Option Nat :=
  if b.toNat < 0x80 then some b.toNat
  else match upperHalves.find? fun r => r.1 == mib with
    | some r => rowAt r.2 (b.toNat - 0x80)
    | none => none

end Sys2Proof.Machine
end

