-- ==== Sys2Proof/Machine/Zstd.lean ====
section
/-! DEFINITION. Zstandard (RFC 8878) as the Inflate engine accepts it (20 R353): frames in sequence, skippable frames, the content
checksum; a Dictionary_ID or a window above 8 MiB is an unsupported feature. The format is the RFC's (log 10). -/

namespace Sys2Proof.Machine

open Sys2Proof Decode

/-! XXH64, whose low half is the content checksum. -/

def xxhP (i : Nat) : BitVec 64 :=
  [0x9E3779B185EBCA87, 0xC2B2AE3D27D4EB4F, 0x165667B19E3779F9, 0x85EBCA77C2B2AE63, 0x27D4EB2F165667C5].getD (i - 1) 0
def xxhRound (acc lane : BitVec 64) : BitVec 64 := (acc + lane * xxhP 2).rotateLeft 31 * xxhP 1
def xxhLane (n : Nat) (bs : List Byte) : BitVec 64 := BitVec.ofNat 64 (leNat (bs.take n))
/-- The stripes of 32 bytes on the four accumulators, and what is left; the first argument bounds them. -/
def xxhStripes : Nat → List (BitVec 64) → List Byte → List (BitVec 64) × List Byte
  | 0, v, bs => (v, bs)
  | n + 1, v, bs =>
    if bs.length < 32 then (v, bs)
    else xxhStripes n ((List.range 4).map fun i => xxhRound (v.getD i 0) (xxhLane 8 (bs.drop (8 * i)))) (bs.drop 32)
/-- The last bytes, eight, four and one at a time; the first argument bounds them. -/
def xxhTail : Nat → BitVec 64 → List Byte → BitVec 64
  | 0, h, _ => h
  | n + 1, h, bs =>
    if 8 ≤ bs.length then
      xxhTail n ((h ^^^ xxhRound 0 (xxhLane 8 bs)).rotateLeft 27 * xxhP 1 + xxhP 4) (bs.drop 8)
    else if 4 ≤ bs.length then xxhTail n ((h ^^^ xxhLane 4 bs * xxhP 1).rotateLeft 23 * xxhP 2 + xxhP 3) (bs.drop 4)
    else match bs with
      | [] => h
      | _ :: rest => xxhTail n ((h ^^^ xxhLane 1 bs * xxhP 5).rotateLeft 11 * xxhP 1) rest
/-- XXH64 with seed 0. -/
def xxh64 (bs : List Byte) : BitVec 64 :=
  let (v, rest) := xxhStripes bs.length [xxhP 1 + xxhP 2, xxhP 2, 0, 0 - xxhP 1] bs
  let g (i : Nat) : BitVec 64 := v.getD i 0
  let h := if bs.length < 32 then xxhP 5
    else v.foldl (fun (h : BitVec 64) x => (h ^^^ xxhRound 0 x) * xxhP 1 + xxhP 4)
      ((g 0).rotateLeft 1 + (g 1).rotateLeft 7 + (g 2).rotateLeft 12 + (g 3).rotateLeft 18)
  let h := xxhTail rest.length (h + BitVec.ofNat 64 bs.length) rest
  let h := (h ^^^ (h >>> 33)) * xxhP 2
  let h := (h ^^^ (h >>> 29)) * xxhP 3
  h ^^^ (h >>> 32)

/-! Bit streams that are read from their end. -/

/-- The bits as a number, and how many of them are left. -/
structure BackBits where
  bits : Nat
  left : Nat
deriving DecidableEq, Repr

/-- The last byte is not zero; its highest bit marks the end. -/
def backBits (bs : List Byte) : Option BackBits :=
  if bs.getLastD 0 = 0 then none else some { bits := leNat bs, left := (leNat bs).log2 }
def BackBits.get (x : BackBits) (n : Nat) : Option (Nat × BackBits) :=
  if x.left < n then none else some (x.bits / 2 ^ (x.left - n) % 2 ^ n, { x with left := x.left - n })
/-- The next bits, with zeros past the last. -/
def BackBits.peek (x : BackBits) (n : Nat) : Nat :=
  if n ≤ x.left then x.bits / 2 ^ (x.left - n) % 2 ^ n else x.bits % 2 ^ x.left * 2 ^ (n - x.left)

/-! FSE tables. -/

/-- A state of a table: its symbol, and the bits whose value is added to the base for the next state. -/
structure FseCell where
  sym : Nat
  nb : Nat
  base : Nat
deriving DecidableEq, Repr
structure FseTab where
  al : Nat
  cells : List FseCell
deriving DecidableEq, Repr
def FseTab.cell (t : FseTab) (i : Nat) : FseCell := t.cells.getD i { sym := 0, nb := 0, base := 0 }
/-- The table of one symbol. -/
def fseOne (sym : Nat) : FseTab := { al := 0, cells := [{ sym := sym, nb := 0, base := 0 }] }
/-- The table of a normalised distribution over 2^al states, where -1 is a probability below 1. -/
def fseTable (al : Nat) (probs : List Int) : FseTab :=
  let size := 2 ^ al
  let symsOf (f : Int → Nat) : List Nat := (List.range probs.length).flatMap fun s => List.replicate (f (probs.getD s 0)) s
  let lows := symsOf fun p => if p = -1 then 1 else 0
  let high := size - lows.length
  let order := ((List.range size).map fun k => k * (size / 2 + size / 8 + 3) % size).filter fun p => decide (p < high)
  let placed := order.zip (symsOf Int.toNat)
  let symAt (i : Nat) : Nat := if high ≤ i then lows.getD (size - 1 - i) 0 else ((placed.find? fun p => p.1 == i).map (·.2)).getD 0
  let first := probs.map fun p => if p = -1 then 1 else p.toNat
  { al := al
    cells := ((List.range size).foldl (fun (acc : List FseCell × List Nat) i =>
      let s := symAt i
      let next := acc.2.getD s 1
      let nb := al - next.log2
      (acc.1 ++ [{ sym := s, nb := nb, base := next * 2 ^ nb - size }], acc.2.set s (next + 1))) ([], first)).1 }

/-- The zero probabilities that follow one: two-bit counts, of which 3 is followed by another. -/
def fseZeros (w : Nat) : Nat → Nat → Nat → Nat × Nat
  | 0, pos, k => (pos, k)
  | n + 1, pos, k => if w / 2 ^ pos % 4 = 3 then fseZeros w n (pos + 2) (k + 3) else (pos + 2, k + w / 2 ^ pos % 4)
/-- The probabilities until their sum is reached; the first argument bounds the symbols. -/
def fseProbs (w : Nat) : Nat → Nat → Nat → List Int → Option (Nat × List Int)
  | 0, pos, room, acc => if room = 0 then some (pos, acc) else none
  | n + 1, pos, room, acc =>
    if room = 0 then some (pos, acc)
    else
      let bits := (room + 1).log2 + 1
      let half := 2 ^ (bits - 1)
      let few := 2 ^ bits - 1 - (room + 1)
      let v := w / 2 ^ pos % 2 ^ bits
      let short := decide (v % half < few)
      let k := if short then v % half else if half ≤ v then v - few else v
      let pos := pos + (if short then bits - 1 else bits)
      if k = 1 then
        let (pos, z) := fseZeros w 64 pos 1
        fseProbs w n pos room (acc ++ List.replicate z 0)
      else fseProbs w n pos (room - (if k = 0 then 1 else k - 1)) (acc ++ [(k : Int) - 1])
/-- A table description at the start of the bytes: the table, and the bytes it takes. -/
def fseRead (maxAl maxSym : Nat) (bs : List Byte) : Option (FseTab × Nat) :=
  let w := leNat (bs.take 512)
  let al := w % 16 + 5
  if bs.isEmpty ∨ maxAl < al then none
  else match fseProbs w (maxSym + 1) 4 (2 ^ al) [] with
    | none => none
    | some (pos, probs) => if maxSym + 1 < probs.length ∨ 8 * bs.length < pos then none else some (fseTable al probs, (pos + 7) / 8)

/-! Huffman codes of the literals. -/

/-- The code: the longest word, and for each value of so many bits its symbol and the bits it takes. -/
structure HufTab where
  top : Nat
  cells : List (Nat × Nat)
deriving DecidableEq, Repr

/-- Weights by two states in turn, until the bits run out. -/
def weightsGo (t : FseTab) : Nat → Nat → Nat → BackBits → List Nat → Option (List Nat)
  | 0, _, _, _, _ => none
  | n + 1, a, b, x, acc =>
    let c := t.cell a
    match x.get c.nb with
    | none => some (acc ++ [c.sym, (t.cell b).sym])
    | some (v, x) => weightsGo t n b (c.base + v) x (acc ++ [c.sym])
/-- The code of weights, the last of which is what completes the sum to a power of two. -/
def hufTable (ws : List Nat) : Option HufTab :=
  let sum := ws.foldl (fun (n : Nat) w => if w = 0 then n else n + 2 ^ (w - 1)) 0
  let top := sum.log2 + 1
  let rest := 2 ^ top - sum
  if sum = 0 ∨ 11 < top ∨ rest ≠ 2 ^ rest.log2 ∨ 255 < ws.length then none
  else
    let ws := ws ++ [rest.log2 + 1]
    some { top := top
           cells := (List.range top).flatMap fun i => (List.range ws.length).flatMap fun s =>
             if ws.getD s 0 = i + 1 then List.replicate (2 ^ i) (s, top - i) else [] }
/-- A tree description at the start of the bytes: the code, and the bytes it takes. -/
def hufRead (bs : List Byte) : Option (HufTab × Nat) :=
  match bs with
  | [] => none
  | h :: rest =>
    let h := h.toNat
    if 128 ≤ h then
      let n := h - 127
      let take := (n + 1) / 2
      if rest.length < take then none
      else (hufTable ((List.range n).map fun i => (rest.getD (i / 2) 0).toNat / (if i % 2 = 0 then 16 else 1) % 16)).map fun t => (t, 1 + take)
    else if rest.length < h then none
    else
      let body := rest.take h
      match fseRead 6 255 body with
      | none => none
      | some (t, used) => do
        let x ← backBits (body.drop used)
        let (a, x) ← x.get t.al
        let (b, x) ← x.get t.al
        let ws ← weightsGo t 255 a b x []
        let code ← hufTable ws
        some (code, 1 + h)
/-- `n` literals of a stream, which they use up. -/
def hufGo (t : HufTab) : Nat → BackBits → List Byte → Option (List Byte)
  | 0, x, acc => if x.left = 0 then some acc else none
  | n + 1, x, acc =>
    let c := t.cells.getD (x.peek t.top) (0, 0)
    if x.left < c.2 then none else hufGo t n { x with left := x.left - c.2 } (acc ++ [BitVec.ofNat 8 c.1])
def hufStream (t : HufTab) (n : Nat) (bs : List Byte) : Option (List Byte) := (backBits bs).bind fun x => hufGo t n x []

/-! Blocks. -/

/-- What a frame carries from block to block: its window, the code of the literals, the three tables, and the last offsets. -/
structure ZstdFrame where
  start : Nat
  window : Nat
  huf : Option HufTab := none
  ll : Option FseTab := none
  offs : Option FseTab := none
  ml : Option FseTab := none
  reps : Nat × Nat × Nat := (1, 4, 8)
deriving DecidableEq, Repr

/-- The literals section: the literals, the bytes it takes and the code for later blocks. -/
def literalsOf (f : ZstdFrame) (bs : List Byte) : Option (List Byte × Nat × Option HufTab) :=
  let w := leNat (bs.take 5)
  let kind := w % 4
  let sf := w / 4 % 4
  if bs.isEmpty then none
  else if kind < 2 then
    let (head, n) := if sf % 2 = 0 then (1, w / 8 % 32) else if sf = 1 then (2, w / 16 % 2 ^ 12) else (3, w / 16 % 2 ^ 20)
    let body := bs.drop head
    let take := if kind = 0 then n else 1
    if 2 ^ 17 < n ∨ bs.length < head + take then none
    else some (if kind = 0 then body.take n else List.replicate n (body.getD 0 0), head + take, f.huf)
  else
    let (head, bits) := if sf < 2 then (3, 10) else if sf = 2 then (4, 14) else (5, 18)
    let n := w / 16 % 2 ^ bits
    let size := w / 2 ^ (4 + bits) % 2 ^ bits
    let body := (bs.drop head).take size
    if 2 ^ 17 < n ∨ bs.length < head + size then none
    else do
      let (t, used) ← if kind = 2 then hufRead body else f.huf.map fun t => (t, 0)
      let body := body.drop used
      let lits ←
        if sf = 0 then hufStream t n body
        else
          let part (i : Nat) : Nat := leNat ((body.drop (2 * i)).take 2)
          let q := (n + 3) / 4
          if body.length < 6 + part 0 + part 1 + part 2 ∨ n < 3 * q then none
          else do
            let s (i lo : Nat) : List Byte := (body.drop (6 + lo)).take (part i)
            let a ← hufStream t q (s 0 0)
            let b ← hufStream t q (s 1 (part 0))
            let c ← hufStream t q (s 2 (part 0 + part 1))
            let d ← hufStream t (n - 3 * q) (body.drop (6 + part 0 + part 1 + part 2))
            some (a ++ b ++ c ++ d)
      some (lits, head + size, some t)

/-- Base and extra bits of a literals-length code and of a match-length code. -/
def llBase (c : Nat) : Nat × Nat :=
  if c < 16 then (c, 0)
  else [(16, 1), (18, 1), (20, 1), (22, 1), (24, 2), (28, 2), (32, 3), (40, 3), (48, 4), (64, 6), (128, 7), (256, 8), (512, 9),
        (1024, 10), (2048, 11), (4096, 12), (8192, 13), (16384, 14), (32768, 15), (65536, 16)].getD (c - 16) (0, 0)
def mlBase (c : Nat) : Nat × Nat :=
  if c < 32 then (3 + c, 0)
  else [(35, 1), (37, 1), (39, 1), (41, 1), (43, 2), (47, 2), (51, 3), (59, 3), (67, 4), (83, 4), (99, 5), (131, 7), (259, 8),
        (515, 9), (1027, 10), (2051, 11), (4099, 12), (8195, 13), (16387, 14), (32771, 15), (65539, 16)].getD (c - 32) (0, 0)
def llDefault : List Int := [4, 3, 2, 2, 2, 2, 2, 2, 2, 2, 2, 2, 2, 1, 1, 1, 2, 2, 2, 2, 2, 2, 2, 2, 2, 3, 2, 1, 1, 1, 1, 1, -1, -1, -1, -1]
def mlDefault : List Int := [1, 4, 3, 2, 2, 2, 2, 2, 2] ++ List.replicate 37 1 ++ List.replicate 7 (-1)
def offDefault : List Int := [1, 1, 1, 1, 1, 1, 2, 2, 2] ++ List.replicate 15 1 ++ List.replicate 5 (-1)

/-- One of the three tables by its mode: predefined, one symbol, described, or the last one. -/
def seqTable (mode maxAl maxSym al : Nat) (default : List Int) (last : Option FseTab) (bs : List Byte) : Option (FseTab × List Byte) :=
  if mode = 0 then some (fseTable al default, bs)
  else if mode = 1 then
    (match bs with
    | [] => none
    | b :: rest => if maxSym < b.toNat then none else some (fseOne b.toNat, rest))
  else if mode = 2 then (fseRead maxAl maxSym bs).map fun r => (r.1, bs.drop r.2)
  else last.map fun t => (t, bs)
/-- The offset that a value names after so many literals, and the last offsets then. -/
def offsetOf (v lits : Nat) (r : Nat × Nat × Nat) : Nat × Nat × Nat × Nat :=
  let (a, b, c) := r
  if 3 < v then (v - 3, v - 3, a, b)
  else
    let i := if lits = 0 then v + 1 else v
    if i = 1 then (a, a, b, c) else if i = 2 then (b, b, a, c) else
      let o := if i = 3 then c else a - 1
      (o, o, a, b)

/-- Output so far, or with a failure of R354. -/
structure ZstdOut where
  out : List Byte
  bad : Option (Nat × Nat) := none
deriving DecidableEq, Repr
def ZstdOut.fail (x : ZstdOut) (reason o : Nat) : ZstdOut := { x with bad := some (reason, o) }
/-- Bytes more, up to the largest output (reason 4). -/
def ZstdOut.add (x : ZstdOut) (maxOut o : Nat) (bs : List Byte) : ZstdOut :=
  let all := x.out ++ bs
  if maxOut < all.length then { out := all.take maxOut, bad := some (4, o) } else { out := all }
/-- `n` bytes from `d` back. -/
def zstdCopy (d : Nat) : Nat → List Byte → List Byte
  | 0, out => out
  | n + 1, out => zstdCopy d n (out ++ [out.getD (out.length - d) 0])

/-- `n` sequences and then the rest of the literals; `o` is the offset of the block in the input, `cap` the longest output it may reach. -/
def seqGo (start window maxOut cap o : Nat) (ll offs ml : FseTab) :
    Nat → Nat → Nat → Nat → BackBits → List Byte → Nat × Nat × Nat → ZstdOut → ZstdOut × (Nat × Nat × Nat)
  | 0, _, _, _, b, lits, reps, x => (if b.left ≠ 0 then x.fail 1 o else x.add maxOut o lits, reps)
  | n + 1, i, j, k, b, lits, reps, x =>
    let oc := (offs.cell j).sym
    let l := llBase (ll.cell i).sym
    let m := mlBase (ml.cell k).sym
    match (do
      let (ov, b) ← b.get oc
      let (me, b) ← b.get m.2
      let (le, b) ← b.get l.2
      if n = 0 then some (ov, me, le, i, j, k, b)
      else do
        let (di, b) ← b.get (ll.cell i).nb
        let (dk, b) ← b.get (ml.cell k).nb
        let (dj, b) ← b.get (offs.cell j).nb
        some (ov, me, le, (ll.cell i).base + di, (offs.cell j).base + dj, (ml.cell k).base + dk, b)) with
    | none => (x.fail 1 o, reps)
    | some (ov, me, le, i, j, k, b) =>
      let nl := l.1 + le
      let nm := m.1 + me
      let (off, reps) := offsetOf (2 ^ oc + ov) nl reps
      if lits.length < nl then (x.fail 1 o, reps)
      else
        let y := x.add maxOut o (lits.take nl)
        if y.bad.isSome then (y, reps)
        else if off = 0 ∨ window < off ∨ y.out.length - start < off ∨ cap < y.out.length + nm then (y.fail 1 o, reps)
        else if maxOut < y.out.length + nm then ({ out := zstdCopy off (maxOut - y.out.length) y.out, bad := some (4, o) }, reps)
        else seqGo start window maxOut cap o ll offs ml n i j k b (lits.drop nl) reps { out := zstdCopy off nm y.out }

/-- The number of sequences, and the bytes it takes. -/
def seqCount (bs : List Byte) : Option (Nat × Nat) :=
  let b (i : Nat) : Nat := (bs.getD i 0).toNat
  let n := if b 0 < 128 then 1 else if b 0 < 255 then 2 else 3
  if bs.length < n then none
  else some (if b 0 < 128 then b 0 else if b 0 < 255 then (b 0 - 128) * 256 + b 1 else b 1 + 256 * b 2 + 0x7F00, n)
/-- A compressed block. -/
def zstdBlock (f : ZstdFrame) (maxOut cap o : Nat) (bs : List Byte) (x : ZstdOut) : ZstdFrame × ZstdOut :=
  match literalsOf f bs with
  | none => (f, x.fail 1 o)
  | some (lits, used, huf) =>
    let f := { f with huf := huf }
    let bs := bs.drop used
    match seqCount bs with
    | none => (f, x.fail 1 o)
    | some (n, used) =>
      let bs := bs.drop used
      let within (y : ZstdOut) : ZstdOut := if y.bad.isNone && decide (cap < y.out.length) then y.fail 1 o else y
      if n = 0 then (f, if bs.isEmpty then within (x.add maxOut o lits) else x.fail 1 o)
      else
        let modes := (bs.getD 0 0).toNat
        match (do
          if bs.isEmpty ∨ modes % 4 ≠ 0 then none
          else do
            let (ll, bs) ← seqTable (modes / 64) 9 35 6 llDefault f.ll (bs.drop 1)
            let (offs, bs) ← seqTable (modes / 16 % 4) 8 31 5 offDefault f.offs bs
            let (ml, bs) ← seqTable (modes / 4 % 4) 9 52 6 mlDefault f.ml bs
            let b ← backBits bs
            let (i, b) ← b.get ll.al
            let (j, b) ← b.get offs.al
            let (k, b) ← b.get ml.al
            some (ll, offs, ml, i, j, k, b)) with
        | none => (f, x.fail 1 o)
        | some (ll, offs, ml, i, j, k, b) =>
          let (y, reps) := seqGo f.start f.window maxOut cap o ll offs ml n i j k b lits f.reps x
          ({ f with ll := some ll, offs := some offs, ml := some ml, reps := reps }, within y)

/-- The blocks of a frame from an offset, and the offset after the last; the first argument bounds them. -/
def zstdBlocks (bs : List Byte) (maxOut : Nat) : Nat → ZstdFrame → Nat → ZstdOut → Nat × ZstdOut
  | 0, _, o, x => (o, x.fail 5 o)
  | n + 1, f, o, x =>
    if bs.length < o + 3 then (o, x.fail 5 bs.length)
    else
      let h := leNat ((bs.drop o).take 3)
      let kind := h / 2 % 4
      let size := h / 8
      let most := min f.window (2 ^ 17)
      let body := (bs.drop (o + 3)).take (if kind = 1 then 1 else size)
      let fin := o + 3 + (if kind = 1 then 1 else size)
      if kind = 3 ∨ most < size then (o, x.fail 1 o)
      else
        let (f, y) :=
          if kind = 0 then
            let y := x.add maxOut (o + 3) body
            (f, if y.bad.isNone && decide (bs.length < fin) then y.fail 5 bs.length else y)
          else if bs.length < fin then (f, x.fail 5 bs.length)
          else if kind = 1 then (f, x.add maxOut (o + 3) (List.replicate size (body.getD 0 0)))
          else zstdBlock f maxOut (x.out.length + most) (o + 3) body x
        if y.bad.isSome ∨ h % 2 = 1 then (fin, y) else zstdBlocks bs maxOut n f fin y

/-- A frame whose header stands at an offset, past its magic number. -/
def zstdFrame (bs : List Byte) (maxOut o : Nat) (x : ZstdOut) : Nat × ZstdOut :=
  if bs.length < o + 1 then (o, x.fail 5 bs.length)
  else
    let d := (bs.getD o 0).toNat
    let single := decide (d / 32 % 2 = 1)
    let nw := if single then 0 else 1
    let nd := [0, 1, 2, 4].getD (d % 4) 0
    let nc := [if single then 1 else 0, 2, 4, 8].getD (d / 64) 0
    let head := o + 1 + nw + nd + nc
    if bs.length < head then (o, x.fail 5 bs.length)
    else
      let field (lo n : Nat) : Nat := leNat ((bs.drop lo).take n)
      let w := field (o + 1) 1
      let content := field (o + 1 + nw + nd) nc + (if nc = 2 then 256 else 0)
      let window := if single then content else 2 ^ (10 + w / 8) + 2 ^ (10 + w / 8) / 8 * (w % 8)
      if d / 8 % 2 = 1 then (o, x.fail 1 o)
      else if field (o + 1 + nw) nd ≠ 0 ∨ 2 ^ 23 < window then (o, x.fail 3 o)
      else
        let (e, y) := zstdBlocks bs maxOut bs.length { start := x.out.length, window := window } head x
        if y.bad.isSome then (e, y)
        else
          let made := y.out.drop x.out.length
          if nc ≠ 0 ∧ made.length ≠ content then (e, y.fail 1 e)
          else if d / 4 % 2 = 0 then (e, y)
          else if bs.length < e + 4 then (e, y.fail 5 bs.length)
          else if field e 4 ≠ (xxh64 made).toNat % 2 ^ 32 then (e, y.fail 2 e)
          else (e + 4, y)
/-- Frames in sequence, with skippable frames skipped; bytes that begin no frame are malformed, or trailing bytes. -/
def zstdGo (bs : List Byte) (maxOut : Nat) : Nat → Nat → ZstdOut → ZstdOut
  | 0, _, x => x
  | n + 1, o, x =>
    let left := bs.length - o
    let magic := leNat ((bs.drop o).take 4)
    if left = 0 ∧ 0 < o then x
    else if left < 4 then
      let starts (m : Nat) : Bool := (leBytes 4 m).take left == (bs.drop o).take left
      x.fail (if starts 0xFD2FB528 || ((List.range 16).any fun i => starts (0x184D2A50 + i)) then 5 else 1) (if left = 0 then 0 else o)
    else if magic = 0xFD2FB528 then
      let (e, y) := zstdFrame bs maxOut (o + 4) x
      if y.bad.isSome then y else zstdGo bs maxOut n e y
    else if magic / 16 = 0x184D2A5 then
      let size := leNat ((bs.drop (o + 4)).take 4)
      if left < 8 + size then x.fail 5 bs.length else zstdGo bs maxOut n (o + 8 + size) x
    else x.fail 1 o
/-- R353: Zstandard: the output, and where it fails the reason of R354 and the offset reached. -/
def zstd (bs : List Byte) (maxOut : Nat) : List Byte × Option (Nat × Nat) :=
  let x := zstdGo bs maxOut (bs.length + 1) 0 { out := [] }
  (x.out, x.bad)

end Sys2Proof.Machine
end

