-- ==== Sys2Proof/Machine/Inflate.lean ====
section
/-! DEFINITION. What the engines of the text front-end compute (20 R353 to R356): DEFLATE and gzip, character sets, and byte-level
pair merging. -/

namespace Sys2Proof.Machine

open Sys2Proof Decode

/-! DEFLATE (RFC 1951). A failure is a reason of R354 with the offset of the byte that holds the bit reached. -/

/-- Output so far, and the position in bits, or the failure. -/
structure Inflated where
  out : List Byte := []
  pos : Nat := 0
  bad : Option (Nat × Nat) := none
deriving Repr

def Inflated.fail (x : Inflated) (reason : Nat) : Inflated := { x with bad := some (reason, x.pos / 8) }
/-- `n` bits at a position, least significant first, or none past the end. -/
def bitsAt (bs : List Byte) (pos n : Nat) : Option Nat :=
  if 8 * bs.length < pos + n then none
  else some ((List.range n).foldl (fun (v : Nat) i => v + (bs.getD ((pos + i) / 8) 0).toNat / 2 ^ ((pos + i) % 8) % 2 * 2 ^ i) 0)

/-- One symbol of the canonical code of the lengths: the symbol and the position after it, or the reason it fails. -/
def huffGo (bs : List Byte) (lens : List Nat) : Nat → Nat → Nat → Nat → Nat → Except Nat (Nat × Nat)
  | 0, _, _, _, _ => .error 1
  | n + 1, len, pos, code, first =>
    match bitsAt bs pos 1 with
    | none => .error 5
    | some b =>
      let code := code + b
      let syms := (List.range lens.length).filter fun i => lens.getD i 0 == len
      if first ≤ code ∧ code < first + syms.length then .ok (syms.getD (code - first) 0, pos + 1)
      else huffGo bs lens n (len + 1) (pos + 1) (2 * code) (2 * (first + syms.length))
def huff (bs : List Byte) (lens : List Nat) (pos : Nat) : Except Nat (Nat × Nat) := huffGo bs lens 15 1 pos 0 0
/-- A code with more words than its lengths allow. -/
def overfull (lens : List Nat) : Bool :=
  decide (2 ^ 15 < lens.foldl (fun (n : Nat) l => if l = 0 ∨ 15 < l then n else n + 2 ^ (15 - l)) 0)

/-- RFC 1951 3.2.5: base and extra bits of a length symbol 257 + i, and of a distance symbol. -/
def lengthBase (i : Nat) : Nat × Nat :=
  if i < 8 then (3 + i, 0) else if i = 28 then (258, 0)
  else let e := i / 4 - 1; (3 + (4 + i % 4) * 2 ^ e, e)
def distBase (i : Nat) : Nat × Nat := if i < 4 then (1 + i, 0) else let e := i / 2 - 1; (1 + (2 + i % 2) * 2 ^ e, e)

/-- `n` bytes from `d` back, one after the other. -/
def copyBack (d : Nat) : Nat → List Byte → List Byte
  | 0, out => out
  | n + 1, out => copyBack d n (out ++ [out.getD (out.length - d) 0])

/-- The symbols of a block up to its end; `n` bounds them. -/
def blockGo (bs : List Byte) (lit dist : List Nat) (maxOut : Nat) : Nat → Inflated → Inflated
  | 0, x => x.fail 5
  | n + 1, x =>
    match huff bs lit x.pos with
    | .error r => x.fail r
    | .ok (sym, pos) =>
      if sym < 256 then
        if maxOut ≤ x.out.length then x.fail 4
        else blockGo bs lit dist maxOut n { x with out := x.out ++ [BitVec.ofNat 8 sym], pos := pos }
      else if sym = 256 then { x with pos := pos }
      else if 285 < sym then x.fail 1
      else
        let l := lengthBase (sym - 257)
        match bitsAt bs pos l.2 with
        | none => x.fail 5
        | some e =>
          let pos := pos + l.2
          match huff bs dist pos with
          | .error r => x.fail r
          | .ok (ds, pos) =>
            if 29 < ds then x.fail 1
            else
              let d := distBase ds
              match bitsAt bs pos d.2 with
              | none => x.fail 5
              | some f =>
                let len := l.1 + e
                let back := d.1 + f
                if x.out.length < back then x.fail 1
                else if maxOut < x.out.length + len then { x with out := copyBack back (maxOut - x.out.length) x.out }.fail 4
                else blockGo bs lit dist maxOut n { x with out := copyBack back len x.out, pos := pos + d.2 }

/-- The code lengths of a dynamic block: `need` are wanted; `n` bounds the symbols. -/
def lensGo (bs : List Byte) (cl : List Nat) (need : Nat) : Nat → Nat → List Nat → Except Nat (Nat × List Nat)
  | 0, _, _ => .error 1
  | n + 1, pos, acc =>
    if need = acc.length then .ok (pos, acc)
    else if need < acc.length then .error 1
    else match huff bs cl pos with
      | .error r => .error r
      | .ok (sym, pos) =>
        if sym < 16 then lensGo bs cl need n pos (acc ++ [sym])
        else
          let (bits, base) := if sym = 16 then (2, 3) else if sym = 17 then (3, 3) else (7, 11)
          match bitsAt bs pos bits with
          | none => .error 5
          | some r =>
            if sym = 16 ∧ acc.isEmpty then .error 1
            else lensGo bs cl need n (pos + bits) (acc ++ List.replicate (base + r) (if sym = 16 then acc.getLastD 0 else 0))

/-- The order in which the lengths of the code-length code stand. -/
def clOrder : List Nat := [16, 17, 18, 0, 8, 7, 9, 6, 10, 5, 11, 4, 12, 3, 13, 2, 14, 1, 15]
def fixedLit : List Nat := List.replicate 144 8 ++ List.replicate 112 9 ++ List.replicate 24 7 ++ List.replicate 8 8
/-- The two codes of a dynamic block and the position of its first symbol. -/
def dynamicCodes (bs : List Byte) (pos : Nat) : Except Nat (Nat × List Nat × List Nat) :=
  match bitsAt bs pos 14 with
  | none => .error 5
  | some h =>
    let nlit := 257 + h % 32
    let ndist := 1 + h / 32 % 32
    let ncl := 4 + h / 1024
    match bitsAt bs (pos + 14) (3 * ncl) with
    | none => .error 5
    | some w =>
      let cl := (List.range 19).map fun s => match (List.range ncl).find? fun j => clOrder.getD j 0 == s with
        | some j => w / 8 ^ j % 8
        | none => 0
      if overfull cl ∨ 286 < nlit ∨ 30 < ndist then .error 1
      else match lensGo bs cl (nlit + ndist) (nlit + ndist + 1) (pos + 14 + 3 * ncl) [] with
        | .error r => .error r
        | .ok (pos, ls) =>
          if overfull (ls.take nlit) || overfull (ls.drop nlit) then .error 1 else .ok (pos, ls.take nlit, ls.drop nlit)

/-- A stored block at a position. -/
def storedBlock (bs : List Byte) (maxOut : Nat) (x : Inflated) : Inflated :=
  let pos := (x.pos + 7) / 8 * 8
  match bitsAt bs pos 32 with
  | none => x.fail 5
  | some h =>
    let len := h % 2 ^ 16
    if len + h / 2 ^ 16 ≠ 2 ^ 16 - 1 then x.fail 1
    else
      let body := (bs.drop (pos / 8 + 4)).take len
      let out := x.out ++ body
      if maxOut < out.length then { x with out := out.take maxOut, pos := pos + 32 }.fail 4
      else if body.length < len then { x with out := out, pos := 8 * bs.length }.fail 5
      else { x with out := out, pos := pos + 32 + 8 * len }

/-- Blocks up to the final one; `n` bounds them. -/
def deflateGo (bs : List Byte) (maxOut : Nat) : Nat → Inflated → Inflated
  | 0, x => x.fail 5
  | n + 1, x =>
    match bitsAt bs x.pos 3 with
    | none => x.fail 5
    | some h =>
      let y := { x with pos := x.pos + 3 }
      let z :=
        if h / 2 = 0 then storedBlock bs maxOut y
        else if h / 2 = 1 then blockGo bs fixedLit (List.replicate 30 5) maxOut (8 * bs.length + 1) y
        else if h / 2 = 2 then
          (match dynamicCodes bs y.pos with
          | .error r => y.fail r
          | .ok (pos, lit, dist) => blockGo bs lit dist maxOut (8 * bs.length + 1) { y with pos := pos })
        else x.fail 1
      if z.bad.isSome ∨ h % 2 = 1 then z else deflateGo bs maxOut n z
def deflate (bs : List Byte) (maxOut : Nat) (x : Inflated) : Inflated := deflateGo bs maxOut (8 * bs.length + 1) x

/-! gzip (RFC 1952). -/

/-- The bytes up to and with a zero byte, from an offset, or none where the input ends. -/
def pastZero (bs : List Byte) (o : Nat) : Option Nat :=
  ((List.range (bs.length - o)).find? fun i => bs.getD (o + i) 0 == 0).map fun i => o + i + 1
/-- The offset of the compressed data of the member at `o`, or the failure. -/
def gzipHeader (bs : List Byte) (o : Nat) : Except (Nat × Nat) Nat := do
  let b (i : Nat) : Nat := (bs.getD (o + i) 0).toNat
  let fin := bs.length
  if (o < fin ∧ b 0 ≠ 0x1F) ∨ (o + 1 < fin ∧ b 1 ≠ 0x8B) ∨ (o + 2 < fin ∧ b 2 ≠ 8) ∨ (o + 3 < fin ∧ 32 ≤ b 3) then .error (1, o)
  else if fin < o + 10 then .error (5, fin)
  else
    let flg := b 3
    let extra : Except (Nat × Nat) Nat := if flg / 4 % 2 = 1 then
        (if fin < o + 12 then .error (5, fin) else .ok (o + 12 + b 10 + 256 * b 11)) else .ok (o + 10)
    let o1 ← extra
    let skip (on : Bool) (o : Nat) : Except (Nat × Nat) Nat := if !on then .ok o else match pastZero bs o with
      | some o => .ok o
      | none => .error (5, fin)
    let o2 ← skip (flg / 8 % 2 = 1) o1
    let o3 ← skip (flg / 16 % 2 = 1) o2
    let o4 := if flg / 2 % 2 = 1 then o3 + 2 else o3
    if fin ≤ o4 then .error (5, fin) else .ok o4
/-- Members in sequence; bytes after the last that begin no member are trailing (reason 1). -/
def gzipGo (bs : List Byte) (maxOut : Nat) : Nat → Nat → List Byte → List Byte × Option (Nat × Nat)
  | 0, o, out => (out, some (1, o))
  | n + 1, o, out =>
    match gzipHeader bs o with
    | .error e => (out, some e)
    | .ok d =>
      let x := deflate bs (maxOut - out.length) { pos := 8 * d }
      let all := out ++ x.out
      if x.bad.isSome then (all, x.bad)
      else
        let e := (x.pos + 7) / 8
        let tail := (bs.drop e).take 8
        if tail.length < 8 then (all, some (5, bs.length))
        else if leNat (tail.take 4) ≠ crcReflected 0xEDB88320 x.out ∨ leNat (tail.drop 4) ≠ x.out.length % 2 ^ 32 then (all, some (2, e))
        else if bs.length ≤ e + 8 then (all, none)
        else gzipGo bs maxOut n (e + 8) all

/-- R353: what the Inflate engine makes of an input. -/
def inflateAs (enc maxOut : Nat) (bs : List Byte) : List Byte × Option (Nat × Nat) :=
  if enc = 0 then (bs.take maxOut, if maxOut < bs.length then some (4, maxOut) else none)
  else if enc = 1 then
    let x := deflate bs maxOut {}
    (x.out, if x.bad.isSome then x.bad else if (x.pos + 7) / 8 < bs.length then some (1, (x.pos + 7) / 8) else none)
  else if enc = 2 then gzipGo bs maxOut (bs.length + 1) 0 []
  else zstd bs maxOut

/-! Character sets (R355). -/

/-- The UTF-8 bytes of a code point. -/
def utf8Bytes (c : Nat) : List Byte :=
  let b (n : Nat) : Byte := BitVec.ofNat 8 n
  if c < 0x80 then [b c]
  else if c < 0x800 then [b (0xC0 + c / 64), b (0x80 + c % 64)]
  else if c < 0x10000 then [b (0xE0 + c / 4096), b (0x80 + c / 64 % 64), b (0x80 + c % 64)]
  else [b (0xF0 + c / 2 ^ 18), b (0x80 + c / 4096 % 64), b (0x80 + c / 64 % 64), b (0x80 + c % 64)]

/-- Continuation bytes of a UTF-8 character: the value when `n` of them follow, each in its range, else how many do. -/
def utf8Tail : Nat → Nat → Nat → Nat → Nat → List Byte → Except Nat (Nat × Nat)
  | 0, _, _, v, k, _ => .ok (v, k)
  | _ + 1, _, _, _, k, [] => .error k
  | n + 1, lo, hi, v, k, b :: bs =>
    if b.toNat < lo ∨ hi < b.toNat then .error k else utf8Tail n 0x80 0xBF (v * 64 + b.toNat % 64) (k + 1) bs
/-- The UTF-8 decoder of the Encoding Standard: the first character, or an error, and the bytes it takes. -/
def utf8Char (b : Byte) (bs : List Byte) : Option Nat × Nat :=
  let x := b.toNat
  if x < 0x80 then (some x, 1)
  else if x < 0xC2 ∨ 0xF4 < x then (none, 1)
  else
    let n := if x < 0xE0 then 1 else if x < 0xF0 then 2 else 3
    let lo := if x = 0xE0 then 0xA0 else if x = 0xF0 then 0x90 else 0x80
    let hi := if x = 0xED then 0x9F else if x = 0xF4 then 0x8F else 0xBF
    match utf8Tail n lo hi (x % 2 ^ (6 - n)) 0 bs with
    | .ok (v, _) => (some v, 1 + n)
    | .error k => (none, 1 + k)
/-- Characters of an input by a decoder of one; each with its offset; `n` bounds them. -/
def charsGo (one : Byte → List Byte → Option Nat × Nat) : Nat → Nat → List Byte → List (Nat × Option Nat)
  | 0, _, _ => []
  | _ + 1, _, [] => []
  | n + 1, o, b :: bs =>
    let r := one b bs
    (o, r.1) :: charsGo one n (o + r.2) ((b :: bs).drop (max 1 r.2))
/-- UTF-16 of a byte order: a lone surrogate and an odd last byte are errors. -/
def utf16Char (big : Bool) (b : Byte) (bs : List Byte) : Option Nat × Nat :=
  let unit (x y : Byte) : Nat := if big then 256 * x.toNat + y.toNat else 256 * y.toNat + x.toNat
  match bs with
  | [] => (none, 1)
  | c :: rest =>
    let u := unit b c
    if u < 0xD800 ∨ 0xDFFF < u then (some u, 2)
    else if 0xDC00 ≤ u then (none, 2)
    else match rest with
      | d :: e :: _ =>
        let v := unit d e
        if 0xDC00 ≤ v ∧ v ≤ 0xDFFF then (some (0x10000 + (u - 0xD800) * 1024 + (v - 0xDC00)), 4) else (none, 2)
      | [_] => (none, 3)
      | [] => (none, 2)
def charsetKnown (mib : Nat) : Bool :=
  decide (3 ≤ mib ∧ mib ≤ 13) || decide (109 ≤ mib ∧ mib ≤ 112) || [17, 38, 106, 114, 1013, 1014, 1015].contains mib
/-- The characters of an input: offset and code point, `none` for an error. -/
def charsOf (mib : Nat) (bs : List Byte) : List (Nat × Option Nat) :=
  let n := bs.length
  if mib = 106 then charsGo utf8Char n 0 bs
  else if mib = 1013 then charsGo (utf16Char true) n 0 bs
  else if mib = 1014 then charsGo (utf16Char false) n 0 bs
  else if mib = 1015 then
    if bs.take 2 = [0xFE, 0xFF] then charsGo (utf16Char true) n 2 (bs.drop 2)
    else if bs.take 2 = [0xFF, 0xFE] then charsGo (utf16Char false) n 2 (bs.drop 2)
    else charsGo (utf16Char true) n 0 bs
  else if mib = 17 then charsGo sjisChar n 0 bs
  else if mib = 38 then charsGo uhcChar n 0 bs
  else if mib = 114 then charsGo gbChar n 0 bs
  else charsGo (fun b _ => (singleByte mib b, 1)) n 0 bs

/-! The Tokeniser (R356). -/

def isGap (b : Byte) : Bool := decide (b = 0x20 ∨ b = 0x09 ∨ b = 0x0A ∨ b = 0x0D)
/-- The pieces of a text. -/
def piecesOf (bs : List Byte) : List (List Byte) :=
  (bs.foldl (fun (acc : List (List Byte) × Bool) b =>
    match acc.1.getLast? with
    | none => ([[b]], isGap b)
    | some p => if isGap b && !acc.2 then (acc.1 ++ [[b]], true) else (acc.1.dropLast ++ [p ++ [b]], isGap b)) ([], false)).1
/-- The rank of a pair: the lowest merge that holds it. -/
def rankOf (table : List (Nat × Nat)) (x y : Nat) : Option Nat := (List.range table.length).find? fun m => table.getD m (0, 0) == (x, y)
/-- The leftmost pair of rank `m` replaced. -/
def mergeAt (table : List (Nat × Nat)) (m : Nat) : List Nat → List Nat
  | x :: y :: rest => if rankOf table x y = some m then (256 + m) :: rest else x :: mergeAt table m (y :: rest)
  | l => l
/-- The ids of a piece; `n` bounds the merges. -/
def mergePiece (table : List (Nat × Nat)) : Nat → List Nat → List Nat
  | 0, ids => ids
  | n + 1, ids =>
    let ranks := (ids.zip (ids.drop 1)).filterMap fun p => rankOf table p.1 p.2
    match ranks with
    | [] => ids
    | r :: rs => mergePiece table n (mergeAt table (rs.foldl min r) ids)
def pieceIds (table : List (Nat × Nat)) (p : List Byte) : List Nat := mergePiece table p.length (p.map (·.toNat))
/-- The bytes of the pieces whose ids all stand among `n` ids. -/
def pieceBytes (table : List (Nat × Nat)) : Nat → List (List Byte) → Nat
  | _, [] => 0
  | n, p :: ps => let k := (pieceIds table p).length; if k ≤ n then p.length + pieceBytes table (n - k) ps else 0
/-- The token ids a text gives once it is known: its pieces, without the last while more of it may come, after BOS; EOS when it
has ended. -/
def tokensOf (table : List (Nat × Nat)) (bos eos : BitVec 32) (text : List Byte) (ended : Bool) : List Nat :=
  let ps := piecesOf text
  let ps := if ended then ps else ps.dropLast
  (if bos = BitVec.allOnes 32 then [] else [bos.toNat]) ++ ps.flatMap (pieceIds table) ++
    (if ended && eos != BitVec.allOnes 32 then [eos.toNat] else [])

end Sys2Proof.Machine
end

