-- ==== Sys2Proof/Machine/Racking.lean ====
section
/-! DEFINITION. The Racking Engine and the Cellar (19 R336 to R344): request rings, block descriptors, frames and drives. -/

namespace Sys2Proof.Machine

open Sys2Proof Decode

/-! Address spaces of contexts (R213, R433). -/

def Context.space (x : Context) : Space :=
  { ctx := x.num, asn := BitVec.ofNat 12 x.asn, rootDie := x.ptroot.extractLsb' 41 2, rootPfn := x.ptroot.extractLsb' 14 27, profile := x.profile }
def State.ctxSpace (s : State) (n : Nat) : Space := ((((s.host.contexts.find? fun x => x.num == n)).map Context.space)).getD {}

/-- The place of an address for a unit of the hub die, on this module. -/
def State.unitPlace (s : State) (sp : Space) (va : Nat) (k : Access) (p : Bool := false) : Option Place :=
  if 2 ^ 51 ≤ va then none
  else match s.walk sp.asn.toNat sp.rootDie.toNat sp.rootPfn.toNat va with
    | .error _ => none
    | .ok e =>
      let pl := s.placeOf e va
      if (leafFault e.pte k p).isSome ∨ pl.node ≠ s.fab.node.toNat ∨ !paExists pl.pa then none else some pl
/-- The place of an address for a unit of the hub die, on another module (log 109). -/
def State.unitFar (s : State) (sp : Space) (va : Nat) (k : Access := .read) : Option Place :=
  if 2 ^ 51 ≤ va then none
  else match s.walk sp.asn.toNat sp.rootDie.toNat sp.rootPfn.toNat va with
    | .error _ => none
    | .ok e =>
      let pl := s.placeOf e va
      if (leafFault e.pte k false).isNone ∧ pl.node ≠ s.fab.node.toNat then some pl else none
/-- `n` bytes of a place as they stand at its home. -/
def State.homeLE (s : State) (p : Place) (n : Nat) : Nat := s.readLE p.die (paKey p.die p.pa) n
/-- Bytes a unit writes at a place. -/
def State.unitWrite (s : State) (p : Place) (bs : List Byte) (org : Nat × Nat) : State :=
  s.emitWrite p.die (spanAt (paKey p.die p.pa) bs) (some org)
/-- Bytes a unit writes at an address of a context: on another module they leave as WRITEs of the context's ordered flow, and without
a free slot the answer is none; an address that does not translate takes none (R257, log 109). -/
def State.unitPut (s : State) (ctx va : Nat) (bs : List Byte) (org : Nat × Nat) : Option State :=
  match s.unitPlace (s.ctxSpace ctx) va .write with
  | some p => some (s.unitWrite p bs org)
  | none => match s.unitFar (s.ctxSpace ctx) va .write with
    | some p => s.flowSend ctx 0 p.node true (s.writeItems 0 p true bs (.unit org))
    | none => some s
/-- What a unit has written under a mark is performed. -/
def State.unitQuiet (s : State) (org : Nat × Nat) : Bool := s.mem.emitted.all (fun w => w.org != some org) && !s.usePending (.unit org)

/-! Pools (R336, R338, R344). -/

def State.poolAt (s : State) (i : Nat) : Option Pool := s.rack.pools[i]?
def State.modPool (s : State) (i : Nat) (f : Pool → Pool) : State :=
  match s.poolAt i with
  | some p => { s with rack := { s.rack with pools := s.rack.pools.set i (f p) } }
  | none => s
def Pool.req (p : Pool) (k : Nat) : Option RackReq := p.reqs.find? fun r => r.k == k
def State.modReq (s : State) (i k : Nat) (f : RackReq → RackReq) : State :=
  s.modPool i fun p => { p with reqs := p.reqs.map fun r => if r.k = k then f r else r }
/-- The mark of the writes the engine makes for a request. -/
def rackOrg (i k : Nat) : Nat × Nat := (2 ^ 21 + i, k)

/-- R338: the descriptor of a block. -/
def State.descPlace (s : State) (p : Pool) (b : Nat) : Option Place := s.unitPlace (s.ctxSpace p.ctx) (p.descva + 8 * b) .read
def State.descWord (s : State) (p : Pool) (b : Nat) : Nat := ((s.descPlace p b).map fun x => s.homeLE x 8).getD 0
def descState (w : Nat) : Nat := nbits w 32 4
def descPin (w : Nat) : Nat := nbits w 0 32
def descValid (w : Nat) : Bool := nbits w 63 1 == 1
/-- R342: STATE and CVALID change in one step at the descriptor's home; PIN is the program's. -/
def State.setDesc (s : State) (i k b st : Nat) (valid : Bool) : State :=
  match s.poolAt i with
  | none => s
  | some p => match s.descPlace p b with
    | none => s
    | some x => s.unitWrite { x with pa := x.pa + 4 } (leBytes 4 (st + (if valid then 2 ^ 31 else 0))) (rackOrg i k)

/-- The level-3 entry of a block's page: its die and local address. -/
def State.blockEntry (s : State) (p : Pool) (b : Nat) : Option (Nat × Nat) :=
  let sp := s.ctxSpace p.ctx
  let va := p.poolva + 32768 * b
  let e1 := s.nodeEntry sp.rootDie.toNat sp.rootPfn.toNat (va / 2 ^ 39 % 4096)
  let e2 := s.nodeEntry (pteDie e1) (ptePfn e1) (va / 2 ^ 27 % 4096)
  if !pteV e1 || pteLeaf e1 || !pteV e2 || pteLeaf e2 then none else some (pteDie e2, ptePfn e2 * 2 ^ 15 + 8 * (va / 2 ^ 15 % 4096))
/-- R336: V of a block's page is set, for a frame of the pool, or cleared. -/
def State.setEntry (s : State) (i k b : Nat) (frame : Option Nat) : State :=
  match s.poolAt i with
  | none => s
  | some p => match s.blockEntry p b with
    | none => s
    | some (d, a) =>
      let e := s.readLE d (paKey d a) 8
      let e' := match frame with
        | none => e / 2 * 2
        | some f => nbits e 1 13 * 2 + 1 + (p.frameBase / 2 ^ 15 + f) * 2 ^ 14 + p.die * 2 ^ 41 + s.fab.node.toNat * 2 ^ 43
      s.unitWrite { node := s.fab.node.toNat, die := d, pa := a, pte := 0 } (leBytes 8 e') (rackOrg i k)
def Pool.framePa (p : Pool) (f : Nat) : Nat := p.frameBase + 32768 * f
def Pool.frameOf (p : Pool) (b : Nat) : Option Nat := (p.owner.find? fun x => x.1 == b).map (·.2)
/-- R342, "unmap": V is cleared and the TLBs have acknowledged the invalidation. -/
def State.unmapBlock (s : State) (i k b : Nat) : State :=
  match s.poolAt i with
  | none => s
  | some p =>
    let va := p.poolva + 32768 * b
    (s.setEntry i k b none).dropTlb (s.ctxSpace p.ctx).asn.toNat fun e => decide (e.va ≤ va ∧ va < e.va + e.size)
/-- A block takes a frame and is mapped. -/
def State.mapBlock (s : State) (i k b f : Nat) : State :=
  (s.setEntry i k b (some f)).modPool i fun p => { p with
    owner := (b, f) :: p.owner.filter fun x => x.1 != b, lru := (p.lru.filter fun x => x != b) ++ [b] }
/-- A block's frame is free again. -/
def State.freeFrame (s : State) (i b : Nat) : State :=
  s.modPool i fun p => { p with
    free := p.free ++ (p.owner.filter fun x => x.1 == b).map (·.2), owner := p.owner.filter fun x => x.1 != b, lru := p.lru.filter fun x => x != b }

/-- Every access that translated to a frame has been performed (R342). -/
def State.frameQuiet (s : State) (die pa : Nat) : Bool :=
  let mine (p : PagePiece) : Bool := p.node == s.fab.node.toNat && p.die == die && p.pa / 32768 == pa / 32768
  let key := paKey die pa / 32768
  (s.mem.flying.all fun f => match f.what with
    | .plain p _ => !mine p
    | .atomic p _ _ _ _ _ => !mine p
    | .commit d mapPa _ spans _ _ => paKey d mapPa / 32768 != key && spans.all fun b => b.1 / 32768 != key
    | _ => true) &&
  (s.cores.all fun c =>
    (c.q.fills.all fun f => match f.src with | .load _ ps _ _ _ => !ps.any mine | _ => true) &&
    (c.eng.cmds.all fun k => k.lands.all fun l => match l with | .mem p _ => !mine p | _ => true)) &&
  (s.mem.emitted.all fun w => w.bytes.all fun b => b.1 / 32768 != key)
/-- What the engine has written for a request is performed. -/
def State.rackQuiet (s : State) (i k : Nat) : Bool := s.unitQuiet (rackOrg i k)
/-- R340: what the engine has written for a request, and for every other request about its block, is performed. -/
def State.blockDone (s : State) (i : Nat) (p : Pool) (r : RackReq) : Bool :=
  s.rackQuiet i r.k && (p.reqs.filter fun x => x.block == r.block || x.victim == some r.block || x.gone.contains r.block).all fun x => s.rackQuiet i x.k

/-! The Cellar (R344). -/

/-- Where the copy of a block stands on its drive; a drive's bytes are numbered from drive × 2^56. -/
def Pool.cellarAt (p : Pool) (b : Nat) : Nat :=
  let n := max 1 p.drv.length
  p.drv.getD (b % n) 0 * 2 ^ 56 + (p.lbabase + 8 * (b / n)) * 4096
/-- Dataset Management with Deallocate: the copy is dropped. -/
def State.dropCopy (s : State) (p : Pool) (b : Nat) : State :=
  let a := p.cellarAt b
  { s with rack := { s.rack with cellar := s.rack.cellar.filter fun x => !decide (a ≤ x.1 ∧ x.1 < a + 32768) } }

/-! Requests. -/

def rackOp (op : Nat) : Instr := if op = 1 then .fetch else if op = 2 then .spill else if op = 3 then .evict else if op = 4 then .free else .alloc
/-- The next stage of a request, after a free number of cyc. -/
def State.rackNext (s : State) (i k op stage : Nat) : State := s.scheduleFrom 1 (rackOp op) { n0 := i, n1 := k, n2 := stage }
def isRackStep (i k : Nat) (e : Event) : Bool :=
  e.arg.n0 == i && e.arg.n1 == k && (e.op == .fetch || e.op == .spill || e.op == .evict || e.op == .free || e.op == .alloc || e.op == .rackDriveTimeout)
/-- The drive of a block (R344). -/
def Pool.driveOf (p : Pool) (b : Nat) : Nat := p.drv.getD (b % max 1 p.drv.length) 0
/-- R344: a queue pair of a drive with a free entry; none of a drive that RKCTL has turned off (R345). -/
def RackSt.freePair (r : RackSt) (d : Nat) : Bool :=
  r.drives.getLsbD d && r.pairs.any fun q => q.drive == d && decide (q.used.length < q.depth)
/-- A command of a request takes an entry of a pair of its drive, or gives it back. -/
def takeEntry (d : Nat) (u : Nat × Nat) : List QPair → List QPair
  | [] => []
  | q :: qs => if q.drive = d ∧ q.used.length < q.depth then { q with used := q.used ++ [u] } :: qs else q :: takeEntry d u qs
def State.giveEntry (s : State) (i k : Nat) : State :=
  { s with rack := { s.rack with pairs := s.rack.pairs.map fun q => { q with used := q.used.filter fun u => u != (i, k) } } }
/-- R344: the management core creates the queue pairs of a drive that has none: up to 8 of them, so that 8 drives have at most 64 in
total, each up to 1,024 entries deep. FREE VALUES: how many and how deep (log 125). -/
def State.makePairs (s : State) (d : Nat) : State :=
  if s.rack.pairs.any fun q => q.drive == d then s
  else
    let (n, s) := s.freeCyc 1 8
    let (depth, s) := s.freeCyc 1 1024
    { s with rack := { s.rack with pairs := s.rack.pairs ++ List.replicate n { drive := d, depth := depth } } }
/-- R417: while zone 96 is evacuated no new command goes to a drive. -/
def State.drivesHeld (s : State) : Bool := decide ((vat s.cool.zones 96).st = 1)

/-- R344: a command goes to the drive of a request's block, in an entry of a queue pair; where none is free, and while zone 96 is evacuated,
it waits, and `now` is tried again; a Deallocate drops the copy. A drive is given up after the pool's timeout. -/
def State.rackIo (s : State) (i k op now stage : Nat) : State :=
  match s.poolAt i with
  | none => s
  | some p =>
    let d := p.driveOf (((p.req k).map (·.block)).getD 0)
    if !s.rack.freePair d || s.drivesHeld then s.rackNext i k op now
    else
      let s := if op = 4 then s.dropCopy p (((p.req k).map (·.block)).getD 0) else s
      let s := { s with rack := { s.rack with pairs := takeEntry d (i, k) s.rack.pairs } }
      (s.schedule (nsCyc (1000 * p.timeout)) .rackDriveTimeout { n0 := i, n1 := k }).rackNext i k op stage

/-- R340: a request has its status: `joins` take it too (R341). -/
def State.rackFinish (s : State) (i k st : Nat) : State :=
  match s.poolAt i with
  | none => s
  | some p => match p.req k with
    | none => s
    | some r =>
      let all := if r.op = 1 ∧ !r.joins then p.reqs.filter fun x => x.k == k || (x.joins && x.block == r.block && x.status.isNone) else [r]
      let s := (s.cancel (isRackStep i k)).giveEntry i k
      all.foldl (fun (s : State) x =>
        let s := s.modReq i x.k fun y => { y with status := some st }
        let s := if st = 4 then { s with rack := { s.rack with media := min (s.rack.media + 1) (2 ^ 64 - 1) } } else s
        s.scheduleFrom 1 .rackRequestComplete { n0 := i, n1 := x.k }) s

/-- R341: the fetch of a block that is under way is cancelled: what it has read is discarded; a block that is leaving memory for it does
so (R342). -/
def State.cancelFetch (s : State) (i b : Nat) : State :=
  match s.poolAt i with
  | none => s
  | some p => match p.reqs.find? fun r => r.op == 1 && !r.joins && r.block == b && r.status.isNone with
    | none => s
    | some r =>
      let s := s.modPool i fun p => { p with free := p.free ++ r.frame.toList }
      let s := { s with rack := { s.rack with cancels := min (s.rack.cancels + 1) (2 ^ 64 - 1) } }
      let s := s.rackFinish i r.k 1
      if r.victim.isSome then s.rackNext i r.k 1 2 else s

/-- The request begins: the table of R341 by the state its block has. -/
def State.rackBegin (s : State) (i : Nat) (p : Pool) (r : RackReq) : State :=
  let k := r.k
  let b := r.block
  let w := s.descWord p b
  let st := descState w
  let valid := descValid w
  let fin (n : Nat) : State := s.rackFinish i k n
  let live := p.reqs.any fun x => x.op == 1 && !x.joins && x.block == b && x.status.isNone && x.k != k
  let dropIt (s : State) : State := if valid then s.rackIo i k 4 6 27 else s.rackFinish i k 0
  if st = 4 ∨ st = 5 then s.schedule 1 (rackOp r.op) { n0 := i, n1 := k }
  else if r.op = 1 then
    if st = 1 then fin 0
    else if st = 2 then (s.setDesc i k b 3 valid).rackNext i k 1 1
    else if st = 3 ∧ live then s.modReq i k fun r => { r with joins := true }
    else fin 3
  else if r.op = 2 then
    if st = 1 then (s.setDesc i k b 5 valid).rackNext i k 2 4
    else if st = 2 then fin 0
    else fin 3
  else if r.op = 3 then
    if st = 1 then
      if descPin w ≠ 0 then fin 2
      else if valid then ((s.setDesc i k b 4 true).unmapBlock i k b).rackNext i k 3 3
      else (s.setDesc i k b 4 false).rackNext i k 3 4
    else if st = 2 then fin 0
    else if st = 3 then ((s.cancelFetch i b).setDesc i k b 2 valid).rackFinish i k 0
    else fin 3
  else if r.op = 4 then
    if st = 0 then fin 0
    else if st = 1 then
      if descPin w ≠ 0 then fin 2 else ((s.setDesc i k b 4 valid).unmapBlock i k b).rackNext i k 4 3
    else if st = 2 then dropIt (s.setDesc i k b 0 false)
    else if st = 3 then dropIt ((s.cancelFetch i b).setDesc i k b 0 false)
    else fin 3
  else if st = 0 then s.rackNext i k 5 1
  else fin 3

/-- R343: a FETCH or an ALLOC takes a free frame, or first evicts a block of the pool. -/
def State.rackFrame (s : State) (i : Nat) (p : Pool) (r : RackReq) : State :=
  let k := r.k
  let b := r.block
  match p.free with
  | f :: rest =>
    if r.op = 1 then
      let s := s.modPool i fun p => { p with free := rest }
      (s.modReq i k fun r => { r with frame := some f }).rackIo i k 1 7 24
    else if descState (s.descWord p b) ≠ 0 then s.rackFinish i k 3
    else
      let s := s.modPool i fun p => { p with free := rest }
      let s := s.unitWrite { node := s.fab.node.toNat, die := p.die, pa := p.framePa f, pte := 0 } (List.replicate 32768 0) (rackOrg i k)
      (((s.mapBlock i k b f).setDesc i k b 1 false)).rackFinish i k 0
  | [] =>
    match p.lru.find? fun v => let w := s.descWord p v; descState w == 1 && descPin w == 0 && descValid w with
    | some v =>
      let s := s.modReq i k fun r => { r with victim := some v }
      ((s.setDesc i k v 4 true).unmapBlock i k v).rackNext i k r.op 2
    | none => (if r.op = 1 then s.setDesc i k b 2 (descValid (s.descWord p b)) else s).rackFinish i k 6

/-- R342, "final": a block that has been pinned since is mapped again; else it leaves memory in state `st`, and its frame is
free. The answer is whether it left. -/
def State.rackFinal (s : State) (i k : Nat) (p : Pool) (b st : Nat) (valid : Bool) : Bool × State :=
  let w := s.descWord p b
  if descPin w ≠ 0 then
    (false, (match p.frameOf b with | some f => s.setEntry i k b (some f) | none => s).setDesc i k b 1 (descValid w))
  else (true, (s.setDesc i k b st valid).freeFrame i b)

/-- The frame of a block that is leaving memory is no longer accessed. -/
def State.blockQuiet (s : State) (p : Pool) (b : Nat) : Bool :=
  match p.frameOf b with | some f => s.frameQuiet p.die (p.framePa f) | none => true

/-- The end of a drive's work on a request: its commands succeeded, or one did not (a free choice). -/
def State.rackDone (s : State) (i : Nat) (p : Pool) (r : RackReq) : State :=
  let k := r.k
  let b := r.block
  let (bad, s) := s.freeBool
  let s := (s.cancel fun e => e.op == .rackDriveTimeout && e.arg.n0 == i && e.arg.n1 == k).giveEntry i k
  let valid := descValid (s.descWord p b)
  if r.op = 1 then
    match r.frame with
    | none => s
    | some f =>
      if bad then ((s.setDesc i k b 2 valid).modPool i fun p => { p with free := p.free ++ [f] }).rackFinish i k 4
      else
        let s := s.unitWrite { node := s.fab.node.toNat, die := p.die, pa := p.framePa f, pte := 0 }
          (Mem.readN s.rack.cellar (p.cellarAt b) 32768) (rackOrg i k)
        ((s.mapBlock i k b f).setDesc i k b 1 valid).rackFinish i k 0
  else if r.op = 4 then s.rackFinish i k (if bad then 4 else 0)
  else if bad then (s.setDesc i k b 1 valid).rackFinish i k 4
  else if r.op = 2 then (s.setDesc i k b 1 true).rackFinish i k 0
  else ((s.setDesc i k b 4 true).unmapBlock i k b).rackNext i k 3 3

/-- A Deallocate of the block of a request has not been answered: its copy is written after. -/
def Pool.dropsCopy (p : Pool) (r : RackReq) : Bool := p.reqs.any fun x => x.op == 4 && x.block == r.block && x.status.isNone && x.k != r.k

/-- R342: the block evicted for a request leaves memory once its frame is no longer accessed; a request that has been cancelled
meanwhile goes no further. -/
def State.victimStep (s : State) (i k : Nat) (p : Pool) (r : RackReq) : State :=
  match r.victim with
  | none => s
  | some v =>
    if !s.blockQuiet p v then s.rackNext i k r.op 2
    else
      let s := (s.rackFinal i k p v 2 true).2.modReq i k fun r => { r with victim := none, gone := v :: r.gone }
      if r.status.isSome then s else s.rackNext i k r.op 1

/-- A stage of a request: 0 it begins, 1 it takes a frame, 2 the block it evicts for one leaves memory, 3 its own block does, 4 a
copy to the drive begins, 6 and 7 a Deallocate and a Read wait for an entry of a queue pair, 16 to 23 a unit of 4 KiB is copied as it
stands at its home, 25 the copy is flushed, 24 and 27 the drive has done. -/
def State.rackStep (s : State) (i k stage : Nat) : State :=
  match s.poolAt i with
  | none => s
  | some p => match p.req k with
    | none => s
    | some r =>
      if stage = 2 then s.victimStep i k p r
      else if r.status.isSome then s
      else if stage = 0 then s.rackBegin i p r
      else if stage = 1 then (if s.drivesHeld && decide (r.op = 1) then s.rackNext i k 1 1 else s.rackFrame i p r)
      else if stage = 3 then
        if !s.blockQuiet p r.block then s.rackNext i k r.op 3
        else
          let valid := descValid (s.descWord p r.block)
          let x := s.rackFinal i k p r.block (if r.op = 4 then 0 else 2) (r.op ≠ 4)
          if x.1 && decide (r.op = 4) && valid then x.2.rackIo i k 4 6 27
          else x.2.rackFinish i k (if x.1 then 0 else 2)
      else if stage = 4 then (if p.dropsCopy r then s.rackNext i k r.op 4 else s.rackIo i k r.op 4 16)
      else if stage = 6 then s.rackIo i k 4 6 27
      else if stage = 7 then s.rackIo i k 1 7 24
      else if 16 ≤ stage ∧ stage < 24 then
        let o := 4096 * (stage - 16)
        let bs := match p.frameOf r.block with
          | some f => s.readView p.die (paKey p.die (p.framePa f + o)) 4096
          | none => []
        ({ s with rack := { s.rack with cellar := Mem.writeN s.rack.cellar (p.cellarAt r.block + o) bs } }).rackNext i k r.op
          (if stage = 23 then 25 else stage + 1)
      else if stage = 25 then s.rackNext i k r.op 24
      else s.rackDone i p r

/-- FETCH (R341). -/
def execFetch (s : State) : Out := .next (s.rackStep s.ev.n0 s.ev.n1 s.ev.n2)
/-- SPILL (R341). -/
def execSpill (s : State) : Out := .next (s.rackStep s.ev.n0 s.ev.n1 s.ev.n2)
/-- EVICT (R342). -/
def execEvict (s : State) : Out := .next (s.rackStep s.ev.n0 s.ev.n1 s.ev.n2)
/-- FREE (R341). -/
def execFree (s : State) : Out := .next (s.rackStep s.ev.n0 s.ev.n1 s.ev.n2)
/-- ALLOC (R341). -/
def execAlloc (s : State) : Out := .next (s.rackStep s.ev.n0 s.ev.n1 s.ev.n2)

/-- RACK_DRIVE_TIMEOUT (R344): the request completes with STATUS 4 and its block is as before it; a block whose Deallocate is not answered
is free (log 125). -/
def State.driveTimeout (s : State) (i k : Nat) : State :=
  match s.poolAt i with
  | none => s
  | some p => match p.req k with
    | none => s
    | some r =>
      if r.status.isSome then s
      else
        let d := p.driveOf r.block
        let s := { s with rack := { s.rack with driveFault := setBit s.rack.driveFault d true } }
        let valid := descValid (s.descWord p r.block)
        let s := if r.op = 4 then s else s.setDesc i k r.block (if r.op = 1 then 2 else 1) valid
        (s.modPool i fun p => { p with free := p.free ++ r.frame.toList }).rackFinish i k 4
def execRackDriveTimeout (s : State) : Out := .next (s.driveTimeout s.ev.n0 s.ev.n1)

/-- R345: what RKSTAT shows: whether the engine runs, and the drives' faults. -/
def RackSt.stat (r : RackSt) : Bool × BitVec 8 := (r.pools.any fun p => !p.reqs.isEmpty, r.driveFault)

/-! Rings (R339, R340). -/

/-- An entry of a ring. -/
def State.ringPlace (s : State) (p : Pool) (k : Nat) : Option Place :=
  s.unitPlace (s.ctxSpace p.ctx) (p.ringva + 32 * (k % max 1 p.nent)) .read
/-- A count word of the P window, as its home has it. -/
def State.doorbell (s : State) (ctx va : Nat) : Nat := ((s.unitPlace (s.ctxSpace ctx) va .read true).map fun x => s.homeLE x 8).getD 0

/-- The engine looks at its ring: it starts the next entry, if there is one (R339); a malformed one completes with STATUS 5.
It starts none while zone 98 is evacuated (R415) or RKCTL says so (R345). -/
def State.ringLook (s : State) (i : Nat) : State :=
  match s.poolAt i with
  | none => s
  | some p =>
    let again (s : State) : State := s.scheduleFrom 1 .rackRequestComplete { n0 := i, n2 := 1 }
    let k := p.nextK
    if (vat s.cool.zones 98).st = 1 ∨ !s.rack.enable ∨ s.rack.drain ∨ s.doorbell p.ctx p.db ≤ k ∨ p.consK + p.nent ≤ k then again s
    else match s.ringPlace p k with
      | none => again s
      | some x =>
        let e := s.homeLE x 32
        let r : RackReq := { k := k, op := nbits e 0 4, block := nbits e 64 32 }
        let s := s.modPool i fun p => { p with nextK := k + 1, reqs := p.reqs ++ [r] }
        if r.op = 0 ∨ 5 < r.op ∨ p.nblk ≤ r.block then again (s.rackFinish i k 5)
        else again (s.schedule 0 (rackOp r.op) { n0 := i, n1 := k })

/-- CONS is the lowest request not yet completed; `n` bounds the search. -/
def lowestOpen (done : List Nat) : Nat → Nat → Nat
  | 0, k => k
  | n + 1, k => if done.contains k then lowestOpen done n (k + 1) else k

/-- R340: what the request has changed is performed, and STATUS and DONE are written. -/
def State.rackStatus (s : State) (i k : Nat) : State :=
  match s.poolAt i with
  | none => s
  | some p => match p.req k with
    | none => s
    | some r =>
      if !s.blockDone i p r then s.scheduleFrom 1 .rackRequestComplete { n0 := i, n1 := k }
      else match s.ringPlace p k with
        | none => s.schedule 0 .rackRequestComplete { n0 := i, n1 := k, n2 := 2 }
        | some x =>
          let top := s.homeLE { x with pa := x.pa + 12 } 4
          let top := top / 256 % 2 ^ 23 * 256 + r.status.getD 0 + 2 ^ 31
          (s.unitWrite { x with pa := x.pa + 12 } (leBytes 4 top) (rackOrg i k)).scheduleFrom 1 .rackRequestComplete { n0 := i, n1 := k, n2 := 2 }
/-- R340: the count is retired, poisoned for STATUS 4, and CONS moves. -/
def State.rackRetire (s : State) (i k : Nat) : State :=
  match s.poolAt i with
  | none => s
  | some p => match p.req k with
    | none => s
    | some r =>
      let done := k :: p.finished
      let cons := lowestOpen done (done.length + 1) p.consK
      let wait := s.scheduleFrom 1 .rackRequestComplete { n0 := i, n1 := k, n2 := 2 }
      if !s.blockDone i p r || r.victim.isSome then wait
      else match (if cons = p.consK then some s else s.unitPut p.ctx p.cons (leBytes 8 cons) (rackOrg i k)) with
      | none => wait
      | some s =>
        let s := match s.ringPlace p k with
          | none => s
          | some x =>
            let e := s.homeLE x 32
            s.retire1 x.die (BitVec.ofNat 64 (nbits e 128 64)) (BitVec.ofNat 64 (nbits e 192 64)) (-1) (r.status = some 4)
        s.modPool i fun p => { p with
          reqs := p.reqs.filter fun x => x.k != k, finished := done.filter fun x => decide (cons ≤ x), consK := cons }

/-- RACK_REQUEST_COMPLETE (R340): stage 0 writes the status, 2 retires the count, 1 looks at the ring. -/
def execRackRequestComplete (s : State) : Out :=
  .next (if s.ev.n2 = 1 then s.ringLook s.ev.n0 else if s.ev.n2 = 0 then s.rackStatus s.ev.n0 s.ev.n1 else s.rackRetire s.ev.n0 s.ev.n1)

end Sys2Proof.Machine
end

