-- ==== Sys2Proof/Machine/Text.lean ====
section
/-! DEFINITION. The text front-end: streams, the engines' chain, queues, delivery and quarantine (20 R351 to R362), and the
core's side of it (13 R244). -/

namespace Sys2Proof.Machine

open Sys2Proof Decode

/-! Streams. -/

def State.streamAt (s : State) (q : Nat) : Option Stream := s.tfe.streams.find? fun x => x.id == q
def State.modStream (s : State) (q : Nat) (f : Stream → Stream) : State :=
  { s with tfe := { s.tfe with streams := s.tfe.streams.map fun x => if x.id = q then f x else x } }
/-- The mark of the records and of CONS that the front-end writes for a stream. -/
def textOrg (q : Nat) : Nat × Nat := (8192 + q, 0)
/-- R246: the mark of a batch's log, on the TFE path of the core that is bound. -/
def logOrg (n : Nat) : Nat × Nat := (n, 7)
/-- The writes of a stream are performed; those of the TFE path are waited for whatever stream they are of. -/
def State.textQuiet (s : State) (q : Nat) : Bool :=
  let other (o : Nat × Nat) : Bool := o != textOrg q && o.2 != 7
  (s.mem.emitted.all fun w => match w.org with
    | some o => other o
    | none => true) &&
  s.fab.srcs.all fun x => (x.unacked ++ x.queue).all fun it => match it.use with
    | .unit o => other o
    | _ => true
/-- The first message that satisfies a test, changed. -/
def modFirst (t : Message → Bool) (f : Message → Message) : List Message → List Message
  | [] => []
  | m :: ms => if t m then f m :: ms else m :: modFirst t f ms
def Stream.modMsg (x : Stream) (t : Message → Bool) (f : Message → Message) : Stream := { x with msgs := modFirst t f x.msgs }

/-! Fields of a descriptor (R352). -/

def Message.field (m : Message) (lo n : Nat) : Nat := nbits m.desc.toNat lo n
def Message.len (m : Message) : Nat := m.field 64 32
def Message.enc (m : Message) : Nat := m.field 144 4
def Message.mib (m : Message) : Nat := m.field 128 16
def Message.repl (m : Message) : Bool := m.field 148 1 == 1
def Message.ident (m : Message) : BitVec 32 := BitVec.ofNat 32 (m.field 96 32)
/-- Reason 9 (R354). -/
def Message.refused (m : Message) : Bool :=
  m.field 384 128 != 0 || m.field 149 107 != 0 || m.field 51 13 != 0 || decide (3 < m.enc) || decide (m.len = 0) || decide (2 ^ 31 < m.len)

/-! Binding (R244, R360). -/

/-- Fields of TXQCFG. -/
def cfgQid (w : Word) : Nat := nbits w.toNat 32 10
def cfgSlots (w : Word) : Nat := nbits w.toNat 20 8
def cfgBase (w : Word) : Nat := nbits w.toNat 8 12 * 256
def cfgOn (w : Word) : Bool := w.getLsbD 0
/-- The core bound to a queue now, with its TXQCFG. -/
def State.bindingOf (s : State) (q : Nat) : Option (Nat × Word) :=
  (s.cores.find? fun c => decide (c.status ≠ .idle) && cfgOn c.eng.txqcfg && cfgQid c.eng.txqcfg == q).map fun c => (c.num, c.eng.txqcfg)
/-- R360: the end of a binding: ready batches go back to the head of the queue. -/
def Stream.unbound (x : Stream) (b : Option (Nat × Word)) : Stream :=
  { x with again := x.ready ++ x.again, ready := [], held := none, bound := b }
/-- A binding that has ended or begun since is taken note of; a batch being written when it ended completes first. -/
def State.syncStream (s : State) (q : Nat) : State :=
  let b := s.bindingOf q
  s.modStream q fun x => if x.bound = b ∨ x.writing.isSome then x else x.unbound b

/-! The chain: which engine of a stream has something to do. -/

/-- Occupancy of the queues: Inflate to Charset, Charset to Tokeniser, Tokeniser to Delivery. -/
def Stream.occupancy (x : Stream) (k : Nat) : Nat :=
  x.msgs.foldl (fun (n : Nat) m =>
    if m.done ∨ m.fault.isSome then n
    else n + (if k = 0 then m.made - m.used else if k = 1 then m.text.length - m.taken else m.tokens.length - m.sent)) 0
def State.hiMark (s : State) (k : Nat) : Nat := vat s.tfe.wm (if k = 2 then 2 else 0)
def State.loMark (s : State) (k : Nat) : Nat := vat s.tfe.wm (if k = 2 then 3 else 1)
/-- The message an engine holds: 0 Inflate, 1 Charset, 2 Tokeniser, 3 Delivery. -/
def atEngine (k : Nat) (m : Message) : Bool :=
  !m.done && m.fault.isNone && !(if k = 0 then m.inflated else if k = 1 then m.converted else if k = 2 then m.tokenised else false)
def textOp (k : Nat) : Instr := if k = 0 then .inflate else if k = 1 then .charsetConvert else if k = 2 then .tokenise else .batchReady
/-- An engine has something to do for a stream that neither stalls (R358) nor waits for the quarantine ring (R361). -/
def Stream.wants (x : Stream) (k : Nat) : Bool :=
  !x.full && !x.stalled.getLsbD k && (x.msgs.any (atEngine k) || (decide (k = 3) && !(x.again.isEmpty && x.writing.isNone)))
/-- R358: a stream asks for a turn of an engine. -/
def State.askTurn (s : State) (x : Stream) (k : Nat) : State :=
  let l := vat s.tfe.turns k
  if x.wants k && !l.contains x.id then { s with tfe := { s.tfe with turns := vput s.tfe.turns k (l ++ [x.id]) } } else s
/-- R358: an engine that does nothing gives the next stream its turn, after a free number of cyc. -/
def State.engineGo (s : State) (k : Nat) : State :=
  match vat s.tfe.turns k with
  | [] => s
  | q :: _ => if s.agenda.any fun e => e.op == textOp k then s else s.scheduleFrom 1 (textOp k) { n0 := q }
/-- The stream asks every engine that it needs; what waits for a record or for CONS goes on. -/
def State.textGo (s : State) (q : Nat) : State :=
  match s.streamAt q with
  | none => s
  | some x =>
    let s := [0, 1, 2, 3].foldl (fun (s : State) k => (s.askTurn x k).engineGo k) s
    if !(s.agenda.any fun e => e.op == .quarantineRecord && e.arg.n0 == q) && x.msgs.any (fun m => (m.fault.isSome && !m.recorded) || m.done) then
      s.scheduleFrom 1 .quarantineRecord { n0 := q } else s

/-- R358: a queue at HI or above stalls its writer. -/
def State.textFull (s : State) (q k : Nat) : Bool := (s.streamAt q).any fun x => decide (s.hiMark k ≤ x.occupancy k)
def State.stallQueue (s : State) (q k : Nat) : State := s.modStream q fun x => { x with stalled := setBit x.stalled k true }
/-- R358: stalled queues that have fallen to LO resume. -/
def State.resumeCheck (s : State) (q : Nat) : State :=
  match s.streamAt q with
  | none => s
  | some x => [0, 1, 2].foldl (fun (s : State) k =>
      if x.stalled.getLsbD k && decide (x.occupancy k ≤ s.loMark k) then s.schedule 0 .tfeQueueResume { n0 := q, n1 := k } else s) s
/-- R417: while zone 97 is evacuated every engine holds its messages and nothing is quarantined. -/
def State.textPaused (s : State) : Bool := decide ((vat s.cool.zones 97).st = 1)
/-- Which message of a stream an engine is at. -/
def Stream.place (x : Stream) (k : Nat) : Option Nat := x.msgs.findIdx? (atEngine k)
/-- R358: a turn of an engine for a stream. The engine holds the messages of 16 streams: one that it goes on with comes after the other
15, and one that is new to it, has stalled or is done gives its place to the next (log 134). -/
def State.engineTurn (s : State) (k : Nat) (f : State → State) : State :=
  let q := s.ev.n0
  if s.textPaused then s.scheduleFrom 1 (textOp k) { n0 := q }
  else
    let now (s : State) : Option Nat := (s.streamAt q).bind fun x => if x.wants k then x.place k else none
    let t := if (s.streamAt q).any fun x => x.full then s else f s
    let rest := (vat t.tfe.turns k).filter fun i => i != q
    let goes := (now t).isSome && now t == now s
    let t := { t with tfe := { t.tfe with turns := vput t.tfe.turns k (if goes then rest.take 15 ++ q :: rest.drop 15 else rest) } }
    (t.textGo q).engineGo k

/-- TFE_QUEUE_RESUME (R358). -/
def execTfeQueueResume (s : State) : Out :=
  .next ((s.modStream s.ev.n0 fun x => { x with stalled := setBit x.stalled (s.ev.n1 % 3) false }).textGo s.ev.n0)

/-- R361: a message faults in a stage: its bytes leave the queues. -/
def State.textFault (s : State) (q : Nat) (t : Message → Bool) (reason stage offset : Nat) : State :=
  s.modStream q fun x => x.modMsg t fun m => { m with fault := some (reason, stage, offset) }

/-! Submission (R352). -/

/-- A message enters the chain. -/
def State.addMessage (s : State) (q : Nat) (x : Stream) (m : Message) : State :=
  (s.modStream q fun y => { y with read := x.read + 1, msgs := y.msgs ++ [m] }).textGo q
def State.readDescriptor (s : State) (q : Nat) (x : Stream) (bits : Nat) : State :=
  let m : Message := { desc := BitVec.ofNat 512 bits }
  s.addMessage q x (if m.refused then { m with fault := some (9, 0, 0) } else m)
/-- R219, R354: a descriptor that cannot be read completes with reason 8; what stands for it is zero (log 134). -/
def State.lostDescriptor (s : State) (q : Nat) (x : Stream) : State := s.addMessage q x { desc := 0, fault := some (8, 0, 0) }
/-- MESSAGE_DESCRIPTOR (R352): the front-end looks at a ring; nothing is read while TFCTL has it off or draining (R364), or while the
zone of the front-end holds messages (R412). -/
def State.textLook (s : State) (q : Nat) : State :=
  match s.streamAt q with
  | none => s
  | some x =>
    let again (s : State) : State := s.scheduleFrom 1 .messageDescriptor { n0 := q }
    if x.closing then s
    else if !s.tfe.enable ∨ s.tfe.drain ∨ s.textPaused ∨ x.full ∨ s.doorbell x.ctx x.db ≤ x.read ∨ x.done + x.nent ≤ x.read then again s
    else match s.unitPlace (s.ctxSpace x.ctx) (x.ringva + 64 * (x.read % max 1 x.nent)) .read with
      | none => (match s.unitFar (s.ctxSpace x.ctx) (x.ringva + 64 * (x.read % max 1 x.nent)) with
        | some p =>
          let who : Nat × Nat := (2048 + q, 2 * x.read)
          if !s.farAnswered who 0 [(p, 64)] then again (s.askFar who 0 x.ctx 0 true [(p, 64)])
          else if s.farBad who 0 [(p, 64)] then again ((s.farDone who).lostDescriptor q x)
          else again ((s.farDone who).readDescriptor q x (leNat (s.remoteBytes p 64)))
        | none => again (s.lostDescriptor q x))
      | some p =>
        if s.badPiece { va := x.ringva, len := 64, node := p.node, die := p.die, pa := p.pa, pte := p.pte } then again (s.lostDescriptor q x)
        else again (s.readDescriptor q x (s.homeLE p 64))
def execMessageDescriptor (s : State) : Out := .next (s.textLook s.ev.n0)

/-! Inflate (R353). -/

/-- What of an input stands on another module. -/
def State.inputWants (s : State) (ctx va len : Nat) : List (Place × Nat) :=
  (extentPieces va len).filterMap fun (a, k) => (s.unitFar (s.ctxSpace ctx) a).map fun p => (p, k)
/-- The input of a message, or the offset of the byte that cannot be read (reason 8); what stands on another module has come in answer
to `who`. -/
def State.inputOf (s : State) (who : Nat × Nat) (ctx va len : Nat) : Except Nat (List Byte) :=
  let sp := s.ctxSpace ctx
  (extentPieces va len).foldl (fun (acc : Except Nat (List Byte)) (a, k) =>
    match acc with
    | .error e => .error e
    | .ok bs =>
      match s.unitPlace sp a .read with
      | none => (match s.unitFar sp a with
        | some p => if s.farBad who 0 [(p, k)] then .error (a - va) else .ok (bs ++ s.remoteBytes p k)
        | none => .error (a - va))
      | some p =>
        if s.badPiece { va := a, len := k, node := p.node, die := p.die, pa := p.pa, pte := p.pte } then .error (a - va)
        else .ok (bs ++ s.plainBytes (sp.core p.die) p.die p a k)) (.ok [])
/-- A unit of 64 bytes, or the end of the message. -/
def State.inflateStep (s : State) (q : Nat) (x : Stream) (m : Message) : State :=
  let mine := atEngine 0
  match m.out with
  | none =>
    let who : Nat × Nat := (2048 + q, 2 * (x.read - x.msgs.length + x.msgs.findIdx mine) + 1)
    let ws := s.inputWants x.ctx (m.field 0 51) m.len
    if !s.farAnswered who 0 ws then s.askFar who 0 x.ctx 0 true ws
    else
    (match s.inputOf who x.ctx (m.field 0 51) m.len with
    | .error o => (s.farDone who).textFault q mine 8 1 o
    | .ok bs => (s.farDone who).modStream q fun x => x.modMsg mine fun m => { m with out := some (inflateAs m.enc x.maxout bs) })
  | some (out, bad) =>
    if m.made < out.length then
      if s.textFull q 0 then s.stallQueue q 0
      else s.modStream q fun x => x.modMsg mine fun m => { m with made := min (m.made + 64) out.length }
    else match bad with
      | some (r, o) => s.textFault q mine r 1 o
      | none => s.modStream q fun x => x.modMsg mine fun m => { m with inflated := true }
/-- A turn of an engine on the message it holds, and what follows from it. -/
def State.textTurn (s : State) (q k : Nat) (f : State → Stream → Message → State) : State :=
  match s.streamAt q with
  | none => s
  | some x => match x.msgs.find? (atEngine k) with
    | none => s
    | some m => (f s x m).resumeCheck q
/-- INFLATE (R353). -/
def execInflate (s : State) : Out := .next (s.engineTurn 0 fun s => s.textTurn s.ev.n0 0 fun s x m => s.inflateStep s.ev.n0 x m)

/-! Charset (R355). -/

/-- The characters that may be converted now: those whose bytes the Inflate engine has written. -/
def Message.charsReady (m : Message) : List (Nat × Nat × Option Nat) :=
  match m.out with
  | none => []
  | some (out, _) =>
    let cs := charsOf m.mib out
    let ends := ((cs.drop 1).map (·.1)) ++ [out.length]
    ((cs.zip ends).drop m.chars).filterMap fun ((o, c), e) =>
      if e ≤ m.made ∧ (e < out.length ∨ m.inflated) then some (o, e, c) else none
/-- Characters of a unit of 64 bytes; the bytes they give, how many they are, where they end, the replacements, and the offset of an
error that is not replaced. -/
def unitChars (repl : Bool) : List (Nat × Nat × Option Nat) → List Byte → Nat → Nat → Nat → List Byte × Nat × Nat × Nat × Option Nat
  | [], bs, n, e, r => (bs, n, e, r, none)
  | (o, e', c) :: rest, bs, n, e, r =>
    match c, repl with
    | none, false => (bs, n, e, r, some o)
    | c, _ =>
      let new := utf8Bytes (c.getD 0xFFFD)
      if 64 < bs.length + new.length then (bs, n, e, r, none)
      else unitChars repl rest (bs ++ new) (n + 1) e' (if c.isNone then r + 1 else r)
def State.charsetStep (s : State) (q : Nat) (m : Message) : State :=
  let mine := atEngine 1
  if !charsetKnown m.mib then s.textFault q mine 7 2 0
  else match m.charsReady with
    | [] => s.modStream q fun x => x.modMsg mine fun m =>
        let m := { m with used := m.made }
        if m.inflated then { m with converted := true } else m
    | cs =>
      if s.textFull q 1 then s.stallQueue q 1
      else
        let (bs, n, e, r, bad) := unitChars m.repl cs [] 0 m.used 0
        let s := { s with tfe := { s.tfe with repls := min (s.tfe.repls + r) (2 ^ 64 - 1) } }
        let s := s.modStream q fun x => x.modMsg mine fun m => { m with text := m.text ++ bs, chars := m.chars + n, used := e }
        match bad with
        | some o => s.textFault q mine 6 2 o
        | none => s
/-- CHARSET_CONVERT (R355). -/
def execCharsetConvert (s : State) : Out := .next (s.engineTurn 1 fun s => s.textTurn s.ev.n0 1 fun s _ m => s.charsetStep s.ev.n0 m)

/-! Tokeniser (R356). -/

/-- Text that the Tokeniser has taken from its queue once `n` ids are written: the pieces they are of, and, when all ids that the text
gives are written, what more it holds of a piece that has not ended. -/
def State.textTaken (s : State) (x : Stream) (m : Message) (n all : Nat) : Nat :=
  if all ≤ n then m.text.length
  else max m.taken (pieceBytes (vat s.tfe.tables x.mtab) (n - (if x.bos = BitVec.allOnes 32 then 0 else 1)) (piecesOf m.text))
def State.tokeniseStep (s : State) (q : Nat) (x : Stream) (m : Message) : State :=
  let mine := atEngine 2
  let all := tokensOf (vat s.tfe.tables x.mtab) x.bos x.eos m.text m.converted
  let n := min (m.tokens.length + 16) all.length
  if m.tokens.length < all.length then
    if s.textFull q 2 then s.stallQueue q 2
    else s.modStream q fun y => y.modMsg mine fun m => { m with tokens := all.take n, taken := s.textTaken x m n all.length }
  else s.modStream q fun y => y.modMsg mine fun m => { m with taken := m.text.length, tokenised := m.converted }
/-- TOKENISE (R356). -/
def execTokenise (s : State) : Out := .next (s.engineTurn 2 fun s => s.textTurn s.ev.n0 2 fun s x m => s.tokeniseStep s.ev.n0 x m)

/-! Delivery (R359). -/

/-- The tokens of the next batch of a message: 1,024, or the last of them. -/
def Message.nextBatch (m : Message) : Option (List Nat) :=
  let left := m.tokens.drop m.sent
  if 1024 < left.length then some (left.take 1024)
  else if m.tokenised ∧ !left.isEmpty then some left
  else none
/-- A slot is free unless a ready batch stands in it or the core holds it. -/
def Stream.slotFree (x : Stream) (slots slot : Nat) : Bool :=
  !(x.ready.any fun b => b.num % slots == slot) && x.held != some slot
/-- The number of the first message of a stream that satisfies a test. -/
def Stream.msgNo (x : Stream) (p : Message → Bool) : Nat := x.read - x.msgs.length + (x.msgs.findIdx? p).getD 0
/-- A batch of a message has not become ready yet. -/
def Stream.unready (x : Stream) (n : Nat) : Bool := (x.writing.toList ++ x.again).any fun b => b.msg == n && !b.once
/-- The batch that Delivery writes next: one returned by an unbinding, or one of the message it holds. -/
def Stream.nextBatch (x : Stream) : Option (Batch × Stream) :=
  match x.again with
  | b :: rest => some (b, { x with again := rest })
  | [] =>
    match x.msgs.find? (atEngine 3) with
    | none => none
    | some m => m.nextBatch.map fun ts =>
      let last := m.tokenised && decide (m.sent + ts.length = m.tokens.length)
      let log := (if m.sent = 0 then 1 else 0) + (if last then 2 else 0) + m.sent * 2 ^ 64 + m.ident.toNat * 2 ^ 96
      let b : Batch := { num := x.batchNo, tokens := ts, log := BitVec.ofNat 128 log, msg := x.msgNo (atEngine 3) }
      (b, ({ x with batchNo := (x.batchNo + 1) % 2 ^ 32 }).modMsg (atEngine 3) fun m =>
        let m := { m with sent := m.sent + ts.length }
        if last then { m with done := true } else m)
/-- R359: a batch takes its slot, or waits for it. A stream that closes has cut it all the same, so that a batch which is ready is known
not to be the last (log 124). Cyc lost at the bank are charged (R401). -/
def State.beginBatch (s : State) (q n : Nat) (w : Word) (x y : Stream) (b : Batch) : State :=
  let slots := max 1 (cfgSlots w)
  let at0 := cfgBase w + 4096 * (b.num % slots)
  if x.slotFree slots (b.num % slots) then
    let (lost, s) := s.lostCyc n 8 (at0 / 32) none
    (s.modStream q fun _ => { y with writing := some b, due := s.cyc + lost }).modCore n fun c => c.pend 1 at0 (4 * b.tokens.length)
  else if x.closing ∧ x.again.isEmpty then s.modStream q fun _ => { y with again := b :: y.again }
  else s
/-- R359: the tokens and the log entry of a batch are written; a ring whose binding has ended takes none (R360). -/
def State.landBatch (s : State) (q n : Nat) (w : Word) (x : Stream) (b : Batch) : State :=
  let slots := max 1 (cfgSlots w)
  match s.unitPut x.ctx (x.logva + 16 * (b.num % max 1 x.logn)) (leBytes 16 b.log.toNat) (logOrg n) with
  | none => s
  | some s =>
    let s := if s.bindingOf q = some (n, w) then
      s.modCore n fun c => c.writeBuf 1 (spanAt (cfgBase w + 4096 * (b.num % slots)) (b.tokens.flatMap (leBytes 4))) else s
    s.modStream q fun x => { x with landed := true }
/-- R359: a batch is written into its slot and the log, and becomes ready once both are performed for the bound core. A message
without tokens fills none, whether a core is bound or not. -/
def State.deliverStep (s : State) (q : Nat) : State :=
  let s := s.syncStream q
  match s.streamAt q with
  | none => s
  | some x =>
    match x.writing, x.bound with
    | none, o => (match x.nextBatch, o with
      | none, _ => s.modStream q fun x => x.modMsg (fun m => atEngine 3 m && m.tokenised && decide (m.sent = m.tokens.length)) fun m => { m with done := true }
      | some (b, y), some (n, w) => s.beginBatch q n w x y b
      | some _, none => s)
    | some _, none => s
    | some b, some (n, w) =>
      if !x.landed then (if s.cyc < x.due then s else s.landBatch q n w x b)
      else if s.mem.emitted.any (fun e => e.org == some (logOrg n) && e.todo.contains (dieOf n)) || s.usePending (.unit (logOrg n)) then s
      else
        let s := { s with tfe := { s.tfe with toks := if b.once then s.tfe.toks else min (s.tfe.toks + b.tokens.length) (2 ^ 64 - 1) } }
        s.modStream q fun x => { x with ready := x.ready ++ [{ b with ready := s.cyc, once := true }], writing := none, landed := false }
/-- BATCH_READY (R359). -/
def execBatchReady (s : State) : Out := .next (s.engineTurn 3 fun s => (s.deliverStep s.ev.n0).resumeCheck s.ev.n0)

/-! Quarantine and completion (R361, R362). -/

/-- The quarantine record of a message. -/
def recordOf (q : Nat) (m : Message) (delivered reason stage offset : Nat) : List Byte :=
  leBytes 64 m.desc.toNat ++ leBytes 4 q ++ leBytes 1 reason ++ leBytes 1 stage ++ leBytes 2 0 ++ leBytes 8 offset ++ leBytes 8 m.made ++
    leBytes 4 delivered ++ List.replicate 36 0
/-- The record is written, unless the ring is full (which a free choice says: the spec gives no consumer index): the stream waits. -/
def State.quarantineText (s : State) (q : Nat) (x : Stream) (m : Message) (f : Nat × Nat × Nat) : State :=
  let r (k : Nat) : Nat := Config.settingField (20 * 4096 + 0x20) k s.tfe.qring
  let (full, s) := s.freeBool
  if full ∨ r 2 = 0 then s.modStream q fun x => { x with full := true }
  else
    let p : Place := { node := s.fab.node.toNat, die := r 0 % 4, pa := r 1 + 128 * (s.tfe.qprod % r 2), pte := 0 }
    let s := s.unitWrite p (recordOf q m m.sent f.1 f.2.1 f.2.2) (textOrg q)
    let s := { s with tfe := { s.tfe with qprod := s.tfe.qprod + 1, quars := min (s.tfe.quars + 1) (2 ^ 64 - 1) },
                      host := { s.host with vector1 := s.host.vector1 + 1 } }
    let s := match decide (0 < m.sent), x.bound with
      | true, some (n, _) => s.modCore n fun c => c.modEng fun e => e.post (eventWord true 5 0 f.1 m.ident)
      | _, _ => s
    s.modStream q fun x => ({ x with full := false }).modMsg (fun m => m.fault.isSome && !m.recorded) fun m => { m with recorded := true, done := true }
/-- R362: a message that has left the chain is counted in CONS; once that and all before it are performed, its count is
retired. -/
def State.textRetire (s : State) (q : Nat) (x : Stream) (m : Message) : State :=
  if !m.counted then
    match s.unitPut x.ctx x.cons (leBytes 8 (x.done + 1)) (textOrg q) with
    | none => s
    | some s => s.modStream q fun x => { x with done := x.done + 1, msgs := match x.msgs with | m :: ms => { m with counted := true } :: ms | [] => [] }
  else if !s.textQuiet q then s
  else
    let loc := BitVec.ofNat 64 (m.field 256 64)
    let s := if loc = 0 then s else s.retire1 0 loc (BitVec.ofNat 64 (m.field 320 64)) (-1) false
    ({ s with tfe := { s.tfe with msgs := min (s.tfe.msgs + 1) (2 ^ 64 - 1) } }).modStream q fun x => { x with msgs := x.msgs.drop 1 }
/-- The last message before a close has left, and its batches with it. -/
def State.closeDone (s : State) (q : Nat) : State :=
  { s with tfe := { s.tfe with streams := s.tfe.streams.filter fun x =>
      !(x.id == q && x.closing && x.msgs.isEmpty && x.ready.isEmpty && x.again.isEmpty && x.writing.isNone) } }
/-- A batch of a message is ready before its message completes. -/
def Stream.headDone (x : Stream) : Bool := match x.msgs with
  | m :: _ => m.done && (m.recorded || !x.unready (x.read - x.msgs.length))
  | [] => false
def State.quarantineStep (s : State) (q : Nat) : State :=
  match s.streamAt q with
  | none => s
  | some x =>
    match x.msgs.find? fun m => m.fault.isSome && !m.recorded with
    | some m => if x.unready (x.msgNo fun m => m.fault.isSome && !m.recorded) then s else s.quarantineText q x m (m.fault.getD (0, 0, 0))
    | none => match x.msgs with
      | m :: _ => if x.headDone then s.textRetire q x m else s
      | [] => s
/-- QUARANTINE_RECORD (R361, R362). -/
def execQuarantineRecord (s : State) : Out :=
  .next (if s.textPaused then s.scheduleFrom 1 .quarantineRecord { n0 := s.ev.n0 }
    else ((s.quarantineStep s.ev.n0).textGo s.ev.n0).closeDone s.ev.n0)
/-- R364: what TFSTAT shows: idle, running, a queue stalled, the quarantine ring full. -/
def TfeSt.stat (f : TfeSt) : Bool × Bool × Bool × Bool :=
  let runs := f.streams.any fun x => !x.msgs.isEmpty || x.writing.isSome || !x.again.isEmpty
  (!runs, runs, f.streams.any fun x => x.stalled != 0, f.streams.any fun x => x.full)

/-! The core's side (R244). -/

/-- No batch of the queue comes after the ready ones, so far as the messages that are still in the chain give none. -/
def Stream.atEnd (x : Stream) (rest : List Batch) : Bool := x.closing && rest.isEmpty && x.writing.isNone && x.again.isEmpty
/-- Messages that may still give tokens. -/
def Stream.pending (x : Stream) : Bool := x.msgs.any fun m => !m.done && m.fault.isNone
/-- What TXQPOP fills; `last` is END. -/
def popWord (w : Word) (b : Batch) (last : Bool) : Word :=
  let slots := max 1 (cfgSlots w)
  BitVec.ofNat 64 (2 ^ 63 + (if last then 2 ^ 62 else 0) + b.num % 4096 * 2 ^ 48 + b.tokens.length * 2 ^ 32 + cfgBase w + 4096 * (b.num % slots))
/-- The oldest batch that was ready before this cyc is popped; the slot held before goes back. R244, R360: of a stream that closes, a
batch which may be the last is popped only once the messages behind it have given theirs or none, so that END is known (log 124). -/
def State.popBatch (s : State) : Word × State :=
  let w := s.core.eng.txqcfg
  let q := cfgQid w
  if !cfgOn w then (0, s)
  else
    let s := s.syncStream q
    match s.streamAt q with
    | none => (0, s)
    | some x =>
      match x.ready with
      | b :: rest =>
        if b.ready < s.cyc ∧ x.bound.map (·.1) = some s.core.num ∧ !(x.atEnd rest && x.pending) then
          (popWord w b (b.final || x.atEnd rest), ((s.modStream q fun x => { x with ready := rest, held := some (b.num % max 1 (cfgSlots w)) }).textGo q).closeDone q)
        else (0, (s.modStream q fun x => { x with held := none }).textGo q)
      | [] => (0, (s.modStream q fun x => { x with held := none }).textGo q)
/-- TXQPOP (R244). -/
def execTxqpop (s : State) : Out :=
  issue (shFill s.core.q.ir) none (fun s =>
    let s := { s with core := s.core.irrevocable }
    let (w, s) := s.popBatch
    .done (s.fillIn (some (.s s.core.q.ir.dst)) (.value (.word w)) 4 12)) s

/-- R244, R360: a value that CSRWR refuses. -/
def State.txqRefused (s : State) (w : Word) : Bool :=
  cfgOn w && (decide (cfgSlots w = 0) || decide (Config.sizeA < cfgBase w + 4096 * cfgSlots w) ||
    (match s.bindingOf (cfgQid w) with | some (n, _) => n != s.core.num | none => false) ||
    (s.streamAt (cfgQid w)).any fun x => x.writing.isSome && x.bound.any fun b => b.1 != s.core.num)
/-- R244: a batch is being written into the core's ring. -/
def txqHold (s : State) : Option State :=
  if s.tfe.streams.any fun x => x.writing.isSome && x.bound.map (·.1) == some s.core.num then some s else none
/-- CSRWR_TXQCFG (R360). -/
def execCsrwrTxqcfg (s : State) : Out :=
  issueWith (shCsrwr s s.core.q.ir) none txqHold false (fun s =>
    let v := s.srcA
    if s.txqRefused v then illegal 4
    else
      let old := cfgQid s.core.eng.txqcfg
      let kept := BitVec.ofNat 64 (nbits v.toNat 0 1 + nbits v.toNat 8 20 * 2 ^ 8 + nbits v.toNat 32 10 * 2 ^ 32)
      let s := { s with core := (s.core.modEng fun e => { e with txqcfg := kept }).irrevocable }
      let s := s.syncStream old
      let s := s.syncStream (cfgQid v)
      .done ((s.textGo old).textGo (cfgQid v))) s

end Sys2Proof.Machine
end

