-- ==== Sys2Proof/Machine/Host.lean ====
section
/-! DEFINITION. The host interface, boot, measurement, the mailbox and management registers (28 R422 to R434, 16 R275, 19 R345, 20
R364, 23 R381, 26 R419). -/

namespace Sys2Proof.Machine

open Sys2Proof Decode

def State.modHost (s : State) (f : HostSt → HostSt) : State := { s with host := f s.host }

/-! The BAR2 window (R424). -/

def winDie (w : Word) : Nat := nbits w.toNat 8 2
def winBase (w : Word) : Nat := nbits w.toNat 0 4
def winSize : Nat := 2 ^ 36
/-- The key of an offset of the window. -/
def State.winKey (s : State) (o : Nat) : Nat := paKey (winDie s.host.winbase) (winBase s.host.winbase * winSize + o)
/-- `n` bytes of the window, as their home has them. -/
def State.winRead (s : State) (o n : Nat) : List Byte := s.readView (winDie s.host.winbase) (s.winKey o) n
/-- The mark of the host's writes. -/
def barOrg : Nat × Nat := (16384, 0)
/-- R384, R424: a write into a poisoned line replaces the whole line and clears its poison. FREE VALUE: the bytes of the line that
it does not name. -/
def State.cleanLine (s : State) (l : Nat) : State :=
  if !s.mem.badLines.contains l then s
  else
    let s := { s with mem := { s.mem with badLines := s.mem.badLines.filter fun x => x != l } }
    (List.range 64).foldl (fun (s : State) i =>
      let r := s.freeByte
      r.2.emitWrite (keyDie (64 * l)) [(64 * l + i, r.1)] (some barOrg)) s
def State.winWrite (s : State) (o : Nat) (bs : List Byte) : State :=
  if bs.isEmpty ∨ winSize < o + bs.length then s
  else
    let k := s.winKey o
    let s := (List.range ((k + bs.length - 1) / 64 + 1 - k / 64)).foldl (fun (s : State) i => s.cleanLine (k / 64 + i)) s
    s.emitWrite (winDie s.host.winbase) (spanAt k bs) (some barOrg)
/-- R417: while zone 96 is evacuated no new host transaction is taken: it waits. -/
def State.hostHeld (s : State) : Bool := decide ((vat s.cool.zones 96).st = 1)
/-- BAR2_READ (R424): the bytes, or Completer Abort at an uncorrectable error. -/
def execBar2Read (s : State) : Out :=
  let o := s.ev.n0
  let n := s.ev.n1
  let k := s.winKey o
  let bad := decide (0 < n) && s.mem.badLines.any fun l => decide (k / 64 ≤ l ∧ l ≤ (k + n - 1) / 64)
  if s.hostHeld then .next (s.schedule 1 .bar2Read s.ev)
  else if winSize < o + n then .next s
  else .next (s.modHost fun h => { h with bar2 := if bad then none else some (s.winRead o n) })
/-- BAR2_WRITE (R424). -/
def execBar2Write (s : State) : Out := .next (if s.hostHeld then s.schedule 1 .bar2Write s.ev else s.winWrite s.ev.n0 s.ev.bytes)
/-- WINBASE_WRITE (R424): BASE above 11 and nonzero reserved fields are ignored. -/
def execWinbaseWrite (s : State) : Out :=
  let w := s.ev.w
  if s.hostHeld then .next (s.schedule 1 .winbaseWrite s.ev)
  else if 11 < winBase w ∨ nbits w.toNat 4 4 ≠ 0 ∨ nbits w.toNat 10 54 ≠ 0 then .next s
  else .next (s.modHost fun h => { h with winbase := w })

/-! Firmware images (R428) and measurement (R429). -/

/-- R428: the digest of an image. -/
def imageDigest (im : List Byte) : List Byte := sha512 (im.take 16 ++ (im.drop 80).take 176 ++ im.drop 256)
def imageEpoch (im : List Byte) : Nat := leNat ((im.drop 10).take 2)
def imageRelease (im : List Byte) : Nat := leNat ((im.drop 8).take 2)
/-- R427, R428: 0 for an image that verifies, else FAILCODE of the first check that fails. -/
def imageFault (im : List Byte) (minEpoch : Nat) : Nat :=
  let body := leNat ((im.drop 12).take 4)
  let key := (im.drop 80).take 32
  if im.take 8 ≠ [0x5A, 0x4E, 0x56, 0x46, 0x57, 0x49, 0x4D, 0x47] ∨ body = 0 ∨ 2 ^ 28 < body ∨ im.length ≠ 256 + body ∨
      (im.drop 112).take 144 ≠ List.replicate 144 0 then 1
  else if sha512 key ≠ Config.vendorKeyHash then 2
  else if imageEpoch im < minEpoch then 3
  else if !ed25519Verify key (imageDigest im) ((im.drop 16).take 64) then 4
  else 0
/-- R429: MEAS.i is extended with the digest of a component. -/
def State.extend (s : State) (i : Nat) (digest : List Byte) : State :=
  s.modHost fun h => { h with meas := vput h.meas i (sha512 (vat h.meas i ++ digest)) }

/-! Boot (R426). A training or a check succeeds or fails by a free choice. -/

def State.failBoot (s : State) (code : Nat) : State := s.modHost fun h => { h with failcode := BitVec.ofNat 8 code }
def State.recover (s : State) (code : Nat) : State :=
  s.modHost fun h => { h with failcode := BitVec.ofNat 8 code, recov := true, fwrel := 0 }
/-- Steps for each of several things, each of which may fail. -/
def State.tryEach (s : State) (n : Nat) (fail : State → Nat → State) : State :=
  (List.range n).foldl (fun (s : State) i =>
    let (ok, s) := s.freeBool
    if ok then s else fail s i) s
/-- Step 2: the slot of the higher epoch first; with the slot, the check that the other one has failed, 0 for none (R427). -/
def HostSt.bootSlot (h : HostSt) : Except Nat (Bool × Nat) :=
  let im (b : Bool) : List Byte := if b then h.flashB else h.flashA
  let first := decide (imageEpoch h.flashA < imageEpoch h.flashB)
  let fault := imageFault (im first) h.minEpoch
  if fault = 0 then .ok (first, 0)
  else if imageFault (im !first) h.minEpoch = 0 then .ok (!first, fault)
  else .error (imageFault (im !first) h.minEpoch)
/-- R371, R372: a link comes up at full width, at the half that holds no failed lane, or not at all. -/
def State.linkUp (s : State) (i : Nat) : State :=
  let l := vat s.fab.links i
  let low := l.failedLanes.toNat % 256
  let high := l.failedLanes.toNat / 256
  if low ≠ 0 ∧ high ≠ 0 then s
  else (s.modLink i fun l => { l with up := true, half := if l.failedLanes = 0 then none else some (if low = 0 then 0 else 1) }).ackSoon i
/-- A step of the boot, and the next one. -/
def State.bootStep (s : State) (n : Nat) : State :=
  let s := s.modHost fun h => { h with bootStep := BitVec.ofNat 4 n }
  let go (s : State) : State := s.scheduleFrom 1 .moduleReset { n0 := n + 1 }
  if n = 1 then go (s.extend 0 (sha512 Config.romImage))
  else if n = 2 then
    (match s.host.bootSlot with
    | .error c => s.recover c
    | .ok (b, failed) =>
      let im := if b then s.host.flashB else s.host.flashA
      let s := if failed = 0 then s else s.failBoot failed
      go (s.modHost fun h => { h with slot := b, epoch := BitVec.ofNat 16 (imageEpoch im) }))
  else if n = 3 then
    let im := if s.host.slot then s.host.flashB else s.host.flashA
    go ((s.extend 1 (imageDigest im)).modHost fun h => { h with fwrel := BitVec.ofNat 16 (imageRelease im) })
  else if n = 4 then
    go (s.tryEach 4 fun s d => (s.failBoot 5).schedule 0 .dieFailure { n0 := d })
  else if n = 5 then
    let (ok, s) := s.freeBool
    if ok then go s else s.recover 6
  else if n = 6 then
    let s := (List.range 100).foldl (fun (s : State) z => s.modZone z fun v => { v with opening := openingFor v.floor, target := openingFor v.floor }) s
    go (s.tryEach 100 fun s z => (s.failBoot 7).failZone z)
  else if n = 7 then
    go { s with
      pe := { s.pe with
        ovfBase := tab 4 fun d => BitVec.ofNat 64 (Config.overflowArea d).1
        ovfSize := tab 4 fun d => BitVec.ofNat 64 (Config.overflowArea d).2 }
      fab := { s.fab with robBase := BitVec.ofNat 64 Config.reorderBase } }
  else if n = 8 then
    let s := (List.range 16).foldl (fun (s : State) i => s.linkUp i) s
    go (s.tryEach 16 fun s i => (s.failBoot 8).modLink i fun l => { l with up := false })
  else (List.range 8).foldl (fun (s : State) cl => s.wakeCluster cl) (s.modHost fun h => { h with ready := true })
/-- R426, R2: a module reset discards everything but flash, fuses, the drives of the Cellar, the boot counter and what lasts until
repair: failed lanes, a die reported failed (R393) and a zone marked failed (R407). -/
def State.moduleReset (s : State) : State :=
  let r := State.reset
  { r with
    cyc := s.cyc, fresh := s.fresh, uid := s.uid
    agenda := { due := s.cyc, op := .moduleReset, arg := { n0 := 1 } } ::
      { due := s.cyc + nsCyc 10000, op := .valveControlStep, arg := { n0 := 100 } } ::
      (List.range 4).map fun d => { due := s.cyc + 4096, op := .frameTick, arg := { n0 := d } }
    sched := { r.sched with frameCyc := Vector.replicate 4 s.cyc }
    rack := { r.rack with cellar := s.rack.cellar }
    cool := { r.cool with zones := tab 100 fun z => if (vat s.cool.zones z).st = 2 then { vat r.cool.zones z with st := 2 } else vat r.cool.zones z }
    fab := { r.fab with node := s.fab.node, links := tab 16 fun i => { failedLanes := (vat s.fab.links i).failedLanes } }
    host := { r.host with flashA := s.host.flashA, flashB := s.host.flashB, minEpoch := s.host.minEpoch, boots := s.host.boots + 1, diefail := s.host.diefail } }
/-- MODULE_RESET (R426): the reset, then the steps of the boot. -/
def execModuleReset (s : State) : Out :=
  let n := s.ev.n0
  .next (if n = 0 then s.moduleReset else if s.host.recov ∨ s.host.ready then s else s.bootStep (min n 9))

/-! The mailbox (R431, R432). -/

/-- A field of a command, or of a block. -/
def cmdField (c : List Byte) (lo n : Nat) : Nat := leNat ((c.drop lo).take n)
/-- R432: 64 bytes, its code and sub-code, and zero in every byte that R433 does not name. -/
def cmdOk (c : List Byte) (code sub : Nat) (named : List (Nat × Nat)) : Bool :=
  c.length == 64 && cmdField c 0 1 == code && cmdField c 1 1 == sub && cmdField c 2 2 == 0 &&
    (List.range 56).all fun i => c.getD (8 + i) 0 == 0 || named.any fun r => decide (r.1 ≤ 8 + i ∧ 8 + i < r.1 + r.2)
/-- The status word, the result, and vector 0. -/
def State.mbDone (s : State) (c : List Byte) (status res : Nat) : State :=
  s.modHost fun h => { h with mbstat := BitVec.ofNat 64 (status + cmdField c 4 4 * 2 ^ 32), mbres := BitVec.ofNat 64 res,
                              vector0 := h.vector0 + 1, fencing := false }
/-- What a command comes to: its status, its result and the data it names. -/
structure MbResult where
  status : Nat := 0
  res : Nat := 0
  data : List Byte := []
  st : State

/-- A command: held while another waits; NOT_READY before step 9 unless it is one of STATUS, FWLOAD and CERT; malformed; else its
effect, measured where R431 says so. -/
def State.mailbox (s : State) (op : Instr) (code sub : Nat) (named : List (Nat × Nat)) (early measured : Bool)
    (body : State → (Nat → Nat → Nat) → MbResult) : State :=
  let c := s.ev.bytes
  if s.host.fencing || s.hostHeld then s.schedule 1 op s.ev
  else if !early && !s.host.ready then s.mbDone c 1 0
  else if !cmdOk c code sub named then s.mbDone c 2 0
  else
    let r := body s (cmdField c)
    if r.status ≠ 0 then s.mbDone c r.status 0
    else (if measured then r.st.extend 3 (sha512 (Config.commandBytes c r.data)) else r.st).mbDone c 0 r.res
def bad (s : State) (status : Nat) : MbResult := { status := status, st := s }

/-- `n` bytes at a local physical address of a die, as their home has them. -/
def State.localBytes (s : State) (die pa n : Nat) : Option (List Byte) :=
  if 3 < die ∨ Config.dieBytes < pa + n then none else some (s.readView die (paKey die pa) n)
def powerOfTwo (lo hi n : Nat) : Bool := decide (lo ≤ n ∧ n ≤ hi) && decide (n = 2 ^ n.log2)

/-- BOOTSTAT (R427). -/
def HostSt.bootstat (h : HostSt) : Nat :=
  (if h.ready then 2 ^ 63 else 0) + (if h.recov then 2 ^ 62 else 0) + h.failcode.toNat * 2 ^ 48 + h.diefail.toNat * 2 ^ 44 +
    (if h.slot then 2 ^ 40 else 0) + h.epoch.toNat * 2 ^ 16 + h.bootStep.toNat
/-- STATUS (R433). -/
def execStatus (s : State) : Out := .next (s.mailbox .status 0x01 0 [] true false fun s _ => { res := s.host.bootstat, st := s })

/-- MAILBOX_FENCE (R423): it ends once every earlier BAR2 write is performed at MODULE scope; commands rung since wait. -/
def execMailboxFence (s : State) : Out :=
  let s1 := s.modHost fun h => { h with fencing := false }
  if s.host.fencing && s.ev.n0 != 1 then .next (s.schedule 1 .mailboxFence s.ev)
  else if s.host.ready && cmdOk s.ev.bytes 0x02 0 [] && s.mem.emitted.any fun w => w.org == some barOrg then
    .next ((s.modHost fun h => { h with fencing := true }).schedule 1 .mailboxFence { s.ev with n0 := 1 })
  else .next (s1.mailbox .mailboxFence 0x02 0 [] false false fun s _ => { st := s })

/-! Contexts (R217, R433). -/

/-- R217: the least address-space number that no live context, and no thread of a destroyed one, has (log 104). -/
def State.freeAsn (s : State) : Option Nat :=
  let runs (c : CoreSt) (a : Nat) : Bool := c.status != .idle && c.task.asn.toNat == a
  ((List.range 4095).map (· + 1)).find? fun a => !(s.host.contexts.any fun x => x.asn == a) && !(s.cores.any fun c => runs c a) &&
    !(s.sched.gangs.any fun g => g.space.asn.toNat == a) && !(s.sched.placed.any fun r => r.space.asn.toNat == a)
/-- CTXLOAD (R433). -/
def execCtxload (s : State) : Out :=
  .next (s.mailbox .ctxload 0x10 0 [(8, 8), (16, 8), (24, 1)] false false fun s f =>
    let root := f 8 8
    let save := f 16 8
    if nbits root 43 21 ≠ 0 ∨ nbits root 0 14 ≠ 0 ∨ nbits save 51 13 ≠ 0 ∨ nbits save 0 17 ≠ 0 then bad s 2
    else match s.freeAsn with
      | none => bad s 3
      | some a =>
        let n := s.host.nextCtx
        let x : Context := { num := n, asn := a, ptroot := BitVec.ofNat 64 root, csave := BitVec.ofNat 64 save, profile := BitVec.ofNat 8 (f 24 1) }
        { res := n + a * 2 ^ 16, st := (s.dropTlb a fun _ => true).modHost fun h => { h with contexts := h.contexts ++ [x], nextCtx := n % 65535 + 1 } })
/-- R375: the flows of a context are closed. -/
def State.closeFlows (s : State) (ctx : Nat) : State :=
  (s.fab.srcs.filter fun x => x.ctx == ctx).foldl (fun (s : State) x =>
    let s := { s with fab := { s.fab with srcs := s.fab.srcs.filter fun y => y.slot != x.slot } }
    let s := s.sendPacket { s.packetTo kFCLOSE 0 x.node 0 x.ord with flow := flowField x }
    (x.unacked ++ x.queue).foldl (fun (s : State) it => s.giveUp it) s) s
/-- CTXDESTROY (R217). -/
def execCtxdestroy (s : State) : Out :=
  .next (s.mailbox .ctxdestroy 0x10 1 [(8, 2)] false false fun s f =>
    match s.host.contexts.find? fun x => x.num == f 8 2 with
    | none => bad s 2
    | some x =>
      let s := (s.dropTlb x.asn fun _ => true).closeFlows x.num
      { st := s.modHost fun h => { h with contexts := h.contexts.filter fun y => y.num != x.num } })
/-- PTINV (R217). -/
def execPtinv (s : State) : Out :=
  .next (s.mailbox .ptinv 0x11 0 [(8, 2), (10, 1), (16, 8)] false false fun s f =>
    let va := f 16 8
    if 4095 < f 8 2 ∨ 1 < f 10 1 ∨ 2 ^ 51 ≤ va then bad s 2
    else { st := s.dropTlb (f 8 2) fun e => decide (f 10 1 = 1) || decide (e.va ≤ va ∧ va < e.va + e.size) })
/-- TASKKILL (R332): the kill comes after what stands before it; a core without a task refuses. -/
def execTaskkill (s : State) : Out :=
  .next (s.mailbox .taskkill 0x12 0 [(8, 2)] false false fun s f =>
    let n := f 8 2
    if 1023 < n then bad s 2
    else if (s.coreAt n).status = .idle then bad s 3
    else { st := s.schedule 0 .taskKill { n0 := n, n1 := 4 } })

/-! Quarantine lists (R299, R433). -/

/-- R433: a record of the list. -/
def Quar.bytes (q : Quar) : List Byte :=
  leBytes 32 (taskWord q.task) ++ leBytes 2 q.core ++ leBytes 1 q.code ++ List.replicate 5 0 ++ leBytes 8 q.tpc.toNat ++ leBytes 8 q.tcause.toNat ++
    (List.range 4).flatMap (fun i => leBytes 8 (q.taux.getD i 0).toNat) ++ List.replicate 40 0
/-- QREAD (R433). -/
def execQread (s : State) : Out :=
  .next (s.mailbox .qread 0x13 0 [(8, 1), (16, 8), (24, 4)] false false fun s f =>
    let d := f 8 1
    let mine := (s.sched.quar.filter fun q => q.die == d).take (f 24 4)
    if 3 < d ∨ winSize < f 16 8 + 128 * f 24 4 then bad s 2
    else
      let s1 := s.winWrite (f 16 8) (mine.flatMap Quar.bytes)
      let rest := s.sched.quar.filter fun q => q.die != d
      let kept := (s.sched.quar.filter fun q => q.die == d).drop mine.length
      { res := mine.length, st := { s1 with sched := { s1.sched with quar := rest ++ kept } } })

/-! Pools, streams, merge tables (R433, R351, R357). -/

/-- POOLREG's block of 128 bytes names a malformed pool (R433). -/
def State.poolBad (s : State) (b : List Byte) : Bool :=
  let g (lo n : Nat) : Nat := cmdField b lo n
  let nd := g 56 1
  let extent := decide (g 4 4 = 0 ∨ 2 ^ 24 < g 4 4 ∨ g 8 8 % 32768 ≠ 0 ∨ 2 ^ 51 < g 8 8 + 32768 * g 4 4 ∨ g 16 8 % 8 ≠ 0 ∨ 2 ^ 51 < g 16 8 + 8 * g 4 4 ∨
    g 24 8 % 32 ≠ 0 ∨ 2 ^ 51 < g 24 8 + 32 * g 32 4 ∨ 2 ^ 51 ≤ g 40 8 ∨ g 40 8 % 8 ≠ 0 ∨ 2 ^ 51 ≤ g 48 8 ∨ g 48 8 % 8 ≠ 0)
  let frames := decide (3 < g 92 1 ∨ g 93 35 ≠ 0 ∨ g 80 8 % 32768 ≠ 0 ∨ Config.dieBytes < g 80 8 + 32768 * g 88 4)
  let drives := decide (nd = 0 ∨ 8 < nd ∨ g 57 7 ≠ 0) || (List.range nd).any fun i => decide (7 < g (64 + i) 1)
  !(s.host.contexts.any fun x => x.num == g 0 4) || !powerOfTwo 16 4096 (g 32 4) || extent || frames || drives
/-- The pool that a block names. -/
def poolOf (b : List Byte) : Pool :=
  let g (lo n : Nat) : Nat := cmdField b lo n
  { ctx := g 0 4, nblk := g 4 4, poolva := g 8 8, descva := g 16 8, ringva := g 24 8, nent := g 32 4, timeout := g 36 4, db := g 40 8, cons := g 48 8,
    drv := (List.range (g 56 1)).map fun i => g (64 + i) 1, lbabase := g 72 8, frameBase := g 80 8, frames := g 88 4, die := g 92 1,
    free := List.range (g 88 4) }
/-- POOLREG (R433): a context has one request ring (R339); the drives of the pool have their queue pairs from then on (R344). -/
def execPoolreg (s : State) : Out :=
  .next (s.mailbox .poolreg 0x20 0 [(8, 8), (16, 1)] false true fun s f =>
    match s.localBytes (f 16 1) (f 8 8) 128 with
    | none => bad s 2
    | some b =>
      let p := poolOf b
      if s.poolBad b then bad s 2
      else if s.rack.pools.any fun x => x.ctx == p.ctx then bad s 3
      else
        let n := s.rack.pools.length
        let s := p.drv.foldl (fun (s : State) d => s.makePairs d) { s with rack := { s.rack with pools := s.rack.pools ++ [p] } }
        { res := n, data := b, st := s.scheduleFrom 1 .rackRequestComplete { n0 := n, n2 := 1 } })
/-- STREAMOPEN's block of 64 bytes names a malformed stream (R351). -/
def State.streamBad (s : State) (b : List Byte) : Bool :=
  let g (lo n : Nat) : Nat := cmdField b lo n
  decide (1023 < g 0 2 ∨ 3 < g 2 1 ∨ g 3 1 ≠ 0 ∨ g 4 4 < 1024 ∨ 2 ^ 26 < g 4 4 ∨ g 8 8 % 64 ≠ 0 ∨ 2 ^ 51 < g 8 8 + 64 * g 16 4 ∨ 2 ^ 51 ≤ g 24 8 ∨
      g 24 8 % 8 ≠ 0 ∨ 2 ^ 51 ≤ g 32 8 ∨ g 32 8 % 8 ≠ 0 ∨ g 40 8 % 16 ≠ 0 ∨ 2 ^ 51 < g 40 8 + 16 * g 20 4 ∨ g 60 4 ≠ 0) ||
    !powerOfTwo 16 4096 (g 16 4) || !powerOfTwo 16 4096 (g 20 4) || !(s.host.contexts.any fun x => x.num == g 56 4)
/-- The stream that a block names. -/
def streamOf (b : List Byte) : Stream :=
  let g (lo n : Nat) : Nat := cmdField b lo n
  { id := g 0 2, ctx := g 56 4, mtab := g 2 1, maxout := g 4 4, ringva := g 8 8, nent := g 16 4, logva := g 40 8, logn := g 20 4, db := g 24 8,
    cons := g 32 8, bos := BitVec.ofNat 32 (g 48 4), eos := BitVec.ofNat 32 (g 52 4) }
/-- STREAMOPEN (R351). -/
def execStreamopen (s : State) : Out :=
  .next (s.mailbox .streamopen 0x21 0 [(8, 8), (16, 1)] false true fun s f =>
    match s.localBytes (f 16 1) (f 8 8) 64 with
    | none => bad s 2
    | some b =>
      let x := streamOf b
      if s.streamBad b then bad s 2
      else if (s.streamAt x.id).isSome then bad s 3
      else { data := b, st := ({ s with tfe := { s.tfe with streams := s.tfe.streams ++ [x] } }).scheduleFrom 1 .messageDescriptor { n0 := x.id } })
/-- R360: the last batch of a stream that is closed carries END, when every message has left its engines. -/
def Stream.closed (x : Stream) : Stream :=
  let x := { x with closing := true }
  if x.msgs.any fun m => !m.done && m.fault.isNone then x
  else
    let mark (l : List Batch) : List Batch := match l.getLast? with | some b => l.dropLast ++ [{ b with final := true }] | none => []
    if !x.again.isEmpty then { x with again := mark x.again }
    else match x.writing with
      | some b => { x with writing := some { b with final := true } }
      | none => { x with ready := mark x.ready }
/-- STREAMCLOSE (R360). -/
def execStreamclose (s : State) : Out :=
  .next (s.mailbox .streamclose 0x21 1 [(8, 2)] false true fun s f =>
    if 1023 < f 8 2 then bad s 2
    else match s.streamAt (f 8 2) with
      | none => bad s 3
      | some x => { st := ((s.modStream x.id Stream.closed).textGo x.id).closeDone x.id })
/-- R357: a table of merges is loaded from its entries, unless one is malformed, the tables do not fit, or an open stream names it. -/
def State.loadMerges (s : State) (t : Nat) (b : List Byte) : Option State :=
  let n := b.length / 8
  let es := (List.range n).map fun m => let e := cmdField b (8 * m) 8; (nbits e 0 19, nbits e 19 19, nbits e 38 26)
  let others := (List.range 4).foldl (fun (k : Nat) i => if i = t then k else k + (vat s.tfe.tables i).length) 0
  let refused := (List.range n).any fun m => let e := es.getD m (0, 0, 0); decide (256 + m ≤ e.1 ∨ 256 + m ≤ e.2.1 ∨ e.2.2 ≠ 0)
  if refused ∨ 262144 < others + n ∨ (s.tfe.streams.any fun x => x.mtab == t) then none
  else some { s with tfe := { s.tfe with tables := vput s.tfe.tables t (es.map fun e => (e.1, e.2.1)) } }
/-- MTABLOAD (R357). -/
def execMtabload (s : State) : Out :=
  .next (s.mailbox .mtabload 0x21 2 [(8, 1), (12, 4), (16, 8), (24, 1)] false true fun s f =>
    let t := f 8 1
    let n := f 12 4
    if 3 < t ∨ 262144 < n then bad s 2
    else match s.localBytes (f 24 1) (f 16 8) (8 * n) with
      | none => bad s 2
      | some b => match s.loadMerges t b with
        | none => bad s 3
        | some s => { data := b, st := s })

/-! Routes and groups (R373, R378). -/

/-- ROUTE (R373). -/
def execRoute (s : State) : Out :=
  .next (s.mailbox .route 0x22 0 [(8, 1), (12, 4), (16, 4), (24, 8), (32, 1)] false true fun s f =>
    let size := if f 8 1 = 0 then 8192 else 256
    if 1 < f 8 1 ∨ size < f 12 4 + f 16 4 then bad s 2
    else match s.localBytes (f 32 1) (f 24 8) (2 * f 16 4) with
      | none => bad s 2
      | some b =>
        let es := (List.range (f 16 4)).map fun i => (f 12 4 + i, cmdField b (2 * i) 1, cmdField b (2 * i + 1) 1)
        let put (old : List (Nat × Nat × Nat)) : List (Nat × Nat × Nat) := es ++ old.filter fun x => !decide (f 12 4 ≤ x.1 ∧ x.1 < f 12 4 + f 16 4)
        if (es.any fun e => decide (15 < e.2.1 ∨ 15 < e.2.2)) then bad s 2
        else
          let fab := if f 8 1 = 0 then { s.fab with groupTab := put s.fab.groupTab } else { s.fab with memberTab := put s.fab.memberTab }
          { data := b, st := { s with fab := fab } })
/-- GROUP (R378). -/
def execGroup (s : State) : Out :=
  .next (s.mailbox .group 0x22 1 [(8, 4), (12, 4), (16, 8), (24, 1)] false true fun s f =>
    let n := f 12 4
    if n = 0 ∨ 65535 < n then bad s 2
    else match s.localBytes (f 24 1) (f 16 8) (4 * n) with
      | none => bad s 2
      | some b =>
        let es : List (BitVec 32) := (List.range n).map fun i => BitVec.ofNat 32 (cmdField b (4 * i) 4)
        if (es.any fun e => decide (2 ^ 23 ≤ e.toNat)) then bad s 2
        else { data := b, st := { s with pe := { s.pe with groups := (f 8 4, es) :: s.pe.groups.filter fun x => x.1 != f 8 4 } } })

/-! Firmware and identity (R428, R430, R434). -/

/-- FWLOAD (R428). -/
def execFwload (s : State) : Out :=
  .next (s.mailbox .fwload 0x30 0 [(8, 8), (16, 4), (20, 1)] true false fun s f =>
    if 1 < f 20 1 ∨ f 16 4 ≤ 256 ∨ 256 + 2 ^ 28 < f 16 4 ∨ winSize < f 8 8 + f 16 4 then bad s 2
    else
      let im := s.winRead (f 8 8) (f 16 4)
      { st := s.modHost fun h => if f 20 1 = 0 then { h with flashA := im } else { h with flashB := im } })
/-- FWCOMMIT (R428): the fused minimum rises to the epoch of the image that runs. -/
def execFwcommit (s : State) : Out :=
  .next (s.mailbox .fwcommit 0x30 1 [] false false fun s _ =>
    let m := max s.host.minEpoch s.host.epoch.toNat
    { res := m, st := s.modHost fun h => { h with minEpoch := m } })
/-- CERT (R430): a buffer that does not hold the key and the certificate is refused. -/
def execCert (s : State) : Out :=
  .next (s.mailbox .cert 0x31 0 [(8, 8), (16, 4)] true false fun s f =>
    let bs := ed25519Public Config.identitySeed ++ Config.certificate
    if winSize < f 8 8 + f 16 4 then bad s 2
    else if f 16 4 < bs.length then bad s 3
    else { res := bs.length, st := s.winWrite (f 8 8) bs })
/-- The bytes of a quote that are signed. -/
def State.quoteBody (s : State) (nonce : List Byte) : List Byte :=
  leBytes 8 s.devid ++ leBytes 8 s.stamp ++ leBytes 8 s.host.boots ++ nonce ++ (List.range 4).flatMap fun i => vat s.host.meas i
/-- QUOTE (R434). -/
def execQuote (s : State) : Out :=
  let nonce := (s.ev.bytes.drop 8).take 32
  .next (s.mailbox .quote 0x31 1 [(8, 32), (40, 8)] false false fun s f =>
    if winSize < f 40 8 + 376 then bad s 2
    else
      let q := s.quoteBody nonce
      { res := 376, st := s.winWrite (f 40 8) (q ++ ed25519Sign Config.identitySeed q) })

/-! Management registers (R275, R345, R364, R381, R419). -/

/-- R418: below its design value MSUPPLY scales the limit of each C-die. -/
def CoolSt.scaled (c : CoolSt) : CoolSt :=
  { c with limits := tab 5 fun i => let l := vat c.setLimits i; if i < 4 ∧ c.supply < 4800 then l * c.supply / 4800 else l }
/-- The number of a register for `Config.settingField`: the chapter × 4096 plus its offset. -/
def regNumber : RegTarget → Nat
  | .csr _ n => 3 * 4096 + n
  | .pe _ o => 16 * 4096 + o
  | .rack o => 19 * 4096 + o
  | .tfe o => 20 * 4096 + o
  | .fabric o => 23 * 4096 + o
  | .cool o => 26 * 4096 + o
  | .sched n => 18 * 4096 + n
  | .clock c => 25 * 4096 + c
  | .zone z => 25 * 4096 + 0x800 + z
/-- R381: a route table moves to another base: the entries it has there are those last written there (log 19). -/
def State.setTable (s : State) (group : Bool) (v : Word) : State :=
  let f := s.fab
  let old := if group then f.rtGroup else f.rtMember
  let tab := if group then f.groupTab else f.memberTab
  let kept := ((group, old), tab) :: f.shelf.filter fun x => x.1 != (group, old)
  let new := if v = old then tab else ((kept.find? fun x => x.1 == (group, v)).map (·.2)).getD []
  { s with fab := if group then { f with shelf := kept, rtGroup := v, groupTab := new } else { f with shelf := kept, rtMember := v, memberTab := new } }
/-- R381: the collective group table moves to another base (log 19). -/
def State.setGroups (s : State) (v : Word) : State :=
  let kept := (s.fab.grpTab, s.pe.groups) :: s.fab.groupShelf.filter fun x => x.1 != s.fab.grpTab
  { s with fab := { s.fab with groupShelf := kept, grpTab := v }, pe := { s.pe with groups := ((kept.find? fun x => x.1 == v).map (·.2)).getD [] } }
/-- The value of a register after a write; RO registers and what R405, R275 and R418 refuse keep theirs. -/
def State.putRegister (s : State) (t : RegTarget) (v : Word) : State :=
  let field (k : Nat) : Nat := Config.settingField (regNumber t) k v
  match t with
  | .csr n num => if csrRefused num v.toNat then s else s.modCore n fun c => c.csrPut num v
  | .pe d o =>
    if o = 0x000 then { s with pe := { s.pe with
      ctl := vput s.pe.ctl d v, enabled := vput s.pe.enabled d (decide (field 0 % 2 = 1)), noNew := vput s.pe.noNew d (decide (field 1 % 2 = 1)) } }
    else if o = 0x010 then (if v.toNat % 2 ^ 20 ≠ 0 then s else { s with pe := { s.pe with ovfBase := vput s.pe.ovfBase d v } })
    else if o = 0x018 then (if v = 0 ∨ 65536 < v.toNat then s else { s with pe := { s.pe with ovfSize := vput s.pe.ovfSize d v } })
    else s
  | .rack o =>
    if o = 0x000 then { s with rack := { s.rack with
      ctl := v, enable := decide (field 0 % 2 = 1), drain := decide (field 1 % 2 = 1), drives := BitVec.ofNat 8 (field 2) } }
    else if o = 0x010 then { s with rack := { s.rack with poolTab := v } }
    else if o = 0x018 then { s with rack := { s.rack with qpTab := v } }
    else s
  | .tfe o =>
    if o = 0x000 then { s with tfe := { s.tfe with ctl := v, enable := decide (field 0 % 2 = 1), drain := decide (field 1 % 2 = 1) } }
    else if o = 0x010 then { s with tfe := { s.tfe with strTab := v } }
    else if o = 0x018 then
      let t : State := { s with tfe := { s.tfe with mTab := v } }
      if field 0 % 2 = 0 then t
      else ((t.localBytes (field 2 % 4) (field 3) (8 * min (field 4) 262144)).bind (t.loadMerges (field 1 % 4))).getD t
    else if o = 0x020 then { s with tfe := { s.tfe with qring := v } }
    else if o = 0x050 then { s with tfe := { s.tfe with wm := tab 4 field } }
    else s
  | .fabric o =>
    if o < 0x400 ∧ o % 0x40 = 0 then
      let i := o / 0x40
      let s := s.modLink i fun l => { l with enable := decide (field 0 % 2 = 1) }
      let s := if field 2 % 2 = 1 then s.modLink i fun l => { l with failedLanes := setBit l.failedLanes (field 3 % 16) false } else s
      if field 1 % 2 = 1 ∨ field 2 % 2 = 1 then s.retrain i else s
    else if o = 0x400 then s.setTable true v
    else if o = 0x408 then s.setTable false v
    else if o = 0x418 then (if v.toNat % 2 ^ 20 ≠ 0 then s else { s with fab := { s.fab with robBase := v } })
    else if o = 0x420 then { s with fab := { s.fab with ltimeout := field 0, ftimeout := field 1, fretry := field 2 } }
    else if o = 0x428 then s.setGroups v
    else s
  | .cool o =>
    if o = 0x000 then { s with cool := ({ s.cool with enable := decide (field 0 % 2 = 1), supply := field 1 }).scaled }
    else if o = 0x010 then { s with cool := { s.cool with creqwait := v.toNat } }
    else if o = 0x018 then { s with cool := { s.cool with twarn := field 0, ttrip := field 1, tcrit := field 2 } }
    else if o = 0x020 then { s with cool := { s.cool with
      drysig := v, lowPct := field 0, clearPct := field 1, dryPct := field 2, overFor := field 3, lowFor := field 4, persistFor := field 5,
      dryFor := field 6, dryRise := field 7, valveFor := field 8 } }
    else if o = 0x028 then { s with cool := { s.cool with
      valveSettle := field 0, evAct := field 1, rampStep := field 2, verifyT := field 3, evDrain := field 4, evRetry := field 5 } }
    else if o = 0x030 then { s with cool := { s.cool with ringReg := v } }
    else if 0x040 ≤ o ∧ o ≤ 0x060 ∧ o % 8 = 0 then
      let ls := vput s.cool.setLimits ((o - 0x040) / 8) v.toNat
      if 12800 < ls.toList.foldl (· + ·) 0 then s else { s with cool := ({ s.cool with setLimits := ls }).scaled }
    else s
  | .sched n =>
    if n = 0 then { s with sched := { s.sched with prewait := v.toNat } }
    else if n = 1 then { s with sched := { s.sched with predrain := v.toNat } }
    else if n = 2 then { s with sched := { s.sched with ydl := v.toNat } }
    else s
  | .clock c => s.breakLock (c % 8) 4
  | .zone z =>
    let st := (s.zone (z % 100)).st
    if v ≠ 0 ∧ st = 0 then (s.modZone (z % 100) fun x => { x with st := 3 }).wakeZone (z % 100)
    else if v = 0 ∧ st = 3 then (s.modZone (z % 100) fun x => { x with st := 0 }).wakeZone (z % 100)
    else s
/-- R429: a management setting that is written before READY is measured. -/
def State.measureSetting (s : State) (t : RegTarget) (v : Word) : State :=
  if s.host.ready then s else s.extend 2 (sha512 (Config.settingBytes (regNumber t) v))
/-- REGISTER_WRITE (R122). -/
def execRegisterWrite (s : State) : Out :=
  let t := s.ev.t
  let v := s.ev.w
  .next ((s.putRegister t v).measureSetting t v)
/-- VAT_FLOOR_WRITE (R407). -/
def execVatFloorWrite (s : State) : Out :=
  let z := s.ev.n0
  let n := s.ev.n1
  if 100 ≤ z || s.floorRefused z n then .next s
  else .next (((s.modZone z fun v => { v with floor := n }).wakeZone z).measureSetting (.cool (0x800 + 8 * z)) (BitVec.ofNat 64 n))
/-- FRAMELEN_WRITE (R419): 256 to 65,536 cyc, from the next tick on. -/
def execFramelenWrite (s : State) : Out :=
  let d := s.ev.n0
  let n := s.ev.n1
  if n < 256 ∨ 65536 < n then .next s
  else
    .next ({ s with sched := { s.sched with frameNew := vput s.sched.frameNew d n } }.measureSetting (.cool (0x070 + 8 * d)) (BitVec.ofNat 64 n))

end Sys2Proof.Machine
end

