-- ==== Sys2Proof/Machine/Turn.lean ====
section
/-! DEFINITION. A turn of the module: the next due device step, or the issue cyc of the core in focus with what comes before an
instruction (entering a line, pending reports, breakpoints), and the passing of time after it (03 R58 to R62, 06 R113, 18
R317, 25 R399). -/

namespace Sys2Proof.Machine

open Sys2Proof Decode

/-! Time. -/

/-- R402, R403: a cyc in context is counted as it ends (log 139). R62, R113, R147: what is due in the cyc `t` that begins lands: fixed-latency writes, and stores to the core's own buffers,
which stay listed in that cyc (R209); a write lands on a register that has been marked empty too (log 136). -/
def CoreSt.settle (t : Nat) (c : CoreSt) : CoreSt :=
  let q := c.q
  let late : LatWrite → Bool := fun w => decide (w.due ≤ t)
  let lands : PadWrite → Bool := fun w => decide (w.due = t)
  let c := if c.status = .idle then c else c.modDbg fun d => { d.count 1 1 with
    caps := tab 4 fun i => let k := vat d.caps i; if k.opened then { k with inCyc := k.inCyc + 1 } else k }
  let q := { ((q.lat.filter late).foldl (fun (q : SeqSt) w => q.put w.reg w.val) q) with
    lat := q.lat.filter fun w => !late w, pad := q.pad.filter fun w => decide (t ≤ w.due) }
  (c.q.pad.filter lands).foldl CoreSt.landPad { c with q := q }

/-- A cyc of the arithmetic clock passes. R402, R315: a core whose start waits for power counts it. -/
def State.tick (s : State) : State :=
  let t := s.cyc + 1
  let wait (c : CoreSt) : CoreSt := if s.sched.waiting.any fun w => w.1 == c.num then c.count 6 else c
  let go (c : CoreSt) : CoreSt := (if s.sched.waiting.isEmpty then c else wait c).settle t
  { s with cyc := t, core := go s.core, peers := s.peers.map go }

/-- The focus moves to the next listed core, `n` times or until a test holds. -/
def State.focus (p : CoreSt → Bool) : Nat → State → State
  | 0, s => s
  | n + 1, s =>
    match s.peers with
    | [] => s
    | c :: rest => if p s.core then s else State.focus p n { s with core := c, peers := rest ++ [s.core] }
/-- R208, R315: a step that comes when every core has had its turn in the cyc: the grants of power. -/
def Event.isLate (e : Event) : Bool := e.op == .drawStart && decide (e.arg.n2 = 0)
/-- R208, R315: something of this cyc is still to be decided: a grant of power, or the second turn of a core that has asked. -/
def State.lateWork (s : State) : Bool :=
  (s.agenda.any fun e => decide (e.due ≤ s.cyc) && e.isLate) || s.cores.any fun c => c.q.asked
/-- The end of a cyc: the turn is the lowest core's. -/
def State.endCyc (s : State) : State :=
  let low := s.peers.foldl (fun (m : Nat) c => min m c.num) s.core.num
  let t := s.focus (fun c => c.num == low) s.peers.length
  let t := if s.sched.late then { t with sched := { t.sched with late := false } } else t
  let t := if s.mem.mcAsk.isEmpty then t else { t with mem := { t.mem with mcAsk := [] } }
  t.tick
/-- The second turns of a cyc: the core that has had its own is done; the next that has asked follows. -/
def State.lateTurn (s : State) : State :=
  let s := s.modQ fun q => { q with asked := false }
  if s.lateWork then s.focus (fun c => c.q.asked) s.peers.length else s.endCyc
/-- Log 6: the turn goes to the listed core of the next higher number; after the highest, what is to be decided at the end of the cyc is,
and a cyc passes and the turn is the lowest core's. -/
def State.endTurn (s : State) : State :=
  if s.sched.late then s.lateTurn
  else
    match s.peers with
    | [] => if s.lateWork then { s with sched := { s.sched with late := true } } else s.tick
    | c :: rest =>
      let s' := { s with core := c, peers := rest ++ [s.core] }
      if s.core.num < c.num then s'
      else if s.lateWork then
        let t : State := { s' with sched := { s'.sched with late := true } }
        t.focus (fun c => c.q.asked) t.peers.length
      else s'.endCyc

/-! Before an instruction. -/

/-- R121: an active loop whose end slot in the entered line starts no instruction. -/
def SeqSt.badEnd (q : SeqSt) (l : Line) : Option Nat :=
  (List.range 8).find? fun i =>
    let p := vat q.loops i
    p.act && decide (pcLine p.stop = l.num) && !l.start (pcSlot p.stop)

/-- What the issue cyc of the core in focus comes to. -/
inductive Turn where
  /-- A device step is taken. -/
  | act (e : Event) (s : State)
  /-- An instruction is issued; its fields stand in the instruction register. -/
  | issue (i : Instr) (s : State)
  /-- Nothing is issued: the thread does not run, or it has taken a trap. -/
  | idle (s : State)
  /-- The machine stops. -/
  | stop (f : Fault)

/-- R216: a fetch whose page the L1 TLB does not hold, and no walk has refused, waits for a walk. -/
def State.fetchMisses (s : State) (va : Nat) : Bool :=
  let t := s.core.task
  !t.tlb.any (tlbHit t.asn.toNat va) && !t.walkFault.any fun w => w.1 == va / 32768
/-- R59, R219, R320: control enters the line of the PC: a refused line traps at the PC; a fetch fault reports the address of
the line (log 8). A line of another module is asked for and waited for; the entry of a fresh thread that had to wait for it is
then checked (R61, log 108). -/
def State.enterLine (s : State) : Except Turn State :=
  let pc := s.core.q.pc
  if s.fetchMisses (128 * (pcLine pc).toNat) then .error (.idle (s.startWalk (128 * (pcLine pc).toNat)))
  else match s.readLine s.core pc with
  | .remote p => .error (.idle (s.askLine pc p))
  | .absent d a => .error (.stop (.noSuchAddress d a))
  | .pageFault d => .error (.idle (s.takeTrap (trapOf PAGE_FAULT d (BitVec.ofNat 64 (128 * (pcLine pc).toNat))) pc))
  | .line l =>
    match l.fault with
    | some d => .error (.idle (s.takeTrap (trapOf FETCH_FORMAT d) pc))
    | none =>
      match s.core.q.badEnd l with
      | some i => .error (.idle (s.takeTrap (trapOf LOOP_STATE 3 (BitVec.ofNat 64 i)) pc))
      | none =>
        if s.core.q.unchecked && s.badTarget s.core pc false then .error (.idle (s.takeTrap (trapOf BAD_TARGET 0) pc))
        else .ok (s.modQ fun q => { q with line := l, entering := false, far := none, unchecked := false })

/-- The bytes of the instruction at the PC: those of its slot and of the next. -/
def SeqSt.fetched (q : SeqSt) : List Byte :=
  let i := pcSlot q.pc
  leBytes 5 (q.line.slot i).toNat ++ leBytes 5 (q.line.slot (i + 1)).toNat

/-- R61, R99: the instruction at the PC of the entered line is decoded; a PC without a START mark, as only TVEC can give, is no
target; an unassigned opcode raises ILLEGAL with detail 1. -/
def State.decodeTurn (s : State) : Turn :=
  let q := s.core.q
  if pcMid q.pc ≠ 0 ∨ !q.line.start (pcSlot q.pc) then .idle (s.takeTrap (trapOf BAD_TARGET 0) q.pc)
  else match decode q.fetched with
  | .error _ => .idle (s.takeTrap (trapOf ILLEGAL 1) q.pc)
  | .ok ((i, x), _) => .issue i (s.modQ fun q => { q with ir := issueFields i x })

/-- R413, R415: a core whose issue is throttled to one instruction in `n` cyc issues in every n-th cyc only. R418: while the module is
throttled, the even cyc go to the cores of a cluster in turn (log 88). -/
def State.throttledNow (s : State) : Bool :=
  (s.cool.throttled && decide (s.cyc % 2 ≠ 0 ∨ s.cyc / 2 % 128 ≠ coreInCluster s.core.num)) ||
    (decide (s.core.task.throttle ≠ 0) && decide (s.cyc % s.core.task.throttle ≠ 0))

/-- The line and the instruction at the PC. -/
def State.goOn (s : State) : Turn :=
  if s.throttledNow then .idle s
  else if s.core.q.entering || decide (pcLine s.core.q.pc ≠ s.core.q.line.num) then
    match s.enterLine with
    | .error t => t
    | .ok s => s.decodeTurn
  else s.decodeTurn

/-- R399: an address match outside loop bodies traps at its PC, with a BREAK that is still pending; else the issue cyc goes on. -/
def State.matchTurn (s : State) : Turn :=
  let c := s.core
  let q := c.q
  if c.trap.thm || (q.innermost q.pc).isSome || (c.dbg.matched q.pc).isNone then s.goOn
  else
    match (c.dbg.matches q.pc none true).brk with
    | some b => .idle (s.takeBreak b q.pc)
    | none => s.goOn

/-- The issue cyc of the core in focus: nothing is issued and no STALL taken while a rollback runs Record again (R390, R391); an instruction that waits for its verdict goes on (R282); a pending STALL (R317) or BREAK (R399) is taken at the boundary, an address breakpoint
outside loops at its PC (R399), a line is entered (R59), and the instruction is issued. -/
def State.coreTurn (s : State) : Turn :=
  let c := s.core
  let q := c.q
  if c.status ≠ .running ∨ s.cyc < q.nextIssue ∨ q.rerun then .idle s
  else if q.verdict.isSome then s.goOn
  else
    match (if c.trap.thm then none else c.trap.due.head?) with
    | some (_, a0, a1, a2, st) =>
      let s := { s with core := c.modTrap fun r => { r with due := r.due.drop 1 } }
      .idle (s.takeTrap { cause := STALL, a0 := a0, a1 := a1, a2 := a2, async := true, stall := st } q.pc)
    | none =>
      match (if c.trap.thm then none else c.dbg.brk) with
      | some b => if b.ready then .idle (s.takeBreak b q.pc) else s.matchTurn
      | none => s.matchTurn

/-- R6: the next turn: the first device step that is due, else the core in focus; once every core has had its turn, only one that has asked
(R208, R315). -/
def State.turn (s : State) : Turn :=
  match s.agenda.find? fun e => decide (e.due ≤ s.cyc) && (s.sched.late || !e.isLate) with
  | some e => .act e { s with agenda := s.agenda.erase e, ev := e.arg }
  | none => if s.sched.late && !s.core.q.asked then .idle s else s.coreTurn

/-! A word where step fetches next. -/

/-- R214: a page-table entry of level 3 that grants every access to a frame of this module. -/
def plainPte (node die pfn : Nat) : BitVec 64 := BitVec.ofNat 64 (node * 2 ^ 43 + die * 2 ^ 41 + pfn * 2 ^ 14 + 0x73)

/-- R56: the 128 bytes of a line that holds one instruction of up to ten bytes in its first slots. -/
def lineBytes (w : List Byte) : List Byte :=
  let body := w ++ List.replicate (120 - w.length) 0
  let l := lineOf 0 (List.replicate 8 0 ++ body)
  let par := (List.range 4).foldl (fun (n : Nat) j =>
    if (List.range 6).foldl (fun p k => p != slotParity (l.slot (6 * j + k))) false then n + 2 ^ j else n) 0
  leBytes 8 (1 + 2 ^ 24 + par * 2 ^ 48 + 2 ^ 52) ++ body

/-- The state with an instruction stored where step fetches next: the core in focus runs at slot 0 of line 0, whose page is
the first frame of the core's die. -/
def State.placeWord (s : State) (w : List Byte) : State :=
  let d := s.die
  let c := s.core
  let e : TlbEntry := { asn := c.task.asn.toNat, va := 0, size := 32768, pte := plainPte s.fab.node.toNat d 0 }
  let s := s.putBytes (spanAt (paKey d 0) (lineBytes w))
  { s with
    agenda := s.agenda.filter fun e => !decide (e.due ≤ s.cyc),
    sched := { s.sched with late := false },
    core := { c with
      status := .running,
      q := { c.q with pc := 0, entering := true, unchecked := false, rerun := false, nextIssue := 0 },
      trap := { c.trap with due := [] },
      dbg := { c.dbg with brk := none, bpen := 0 },
      task := { c.task with tlb := e :: c.task.tlb, throttle := 0 } },
    cool := { s.cool with throttled := false } }

end Sys2Proof.Machine
end

