-- ==== Sys2Proof/Machine/Dispatch.lean ====
section
/-! DEFINITION. One arm per constructor of Instr: the meaning of each instruction and device step. -/

namespace Sys2Proof.Machine

open Sys2Proof

def exec (i : Instr) (s : State) : Host.Outcome State Fault Refusal :=
  match i with
  | .sadd => Sys2Proof.Machine.execSadd s
  | .ssub => Sys2Proof.Machine.execSsub s
  | .smul => Sys2Proof.Machine.execSmul s
  | .smulh => Sys2Proof.Machine.execSmulh s
  | .sdiv => Sys2Proof.Machine.execSdiv s
  | .srem => Sys2Proof.Machine.execSrem s
  | .sand => Sys2Proof.Machine.execSand s
  | .sor => Sys2Proof.Machine.execSor s
  | .sxor => Sys2Proof.Machine.execSxor s
  | .sshl => Sys2Proof.Machine.execSshl s
  | .sshr => Sys2Proof.Machine.execSshr s
  | .ssra => Sys2Proof.Machine.execSsra s
  | .smin => Sys2Proof.Machine.execSmin s
  | .smax => Sys2Proof.Machine.execSmax s
  | .scmp => Sys2Proof.Machine.execScmp s
  | .ssel => Sys2Proof.Machine.execSsel s
  | .sclz => Sys2Proof.Machine.execSclz s
  | .sctz => Sys2Proof.Machine.execSctz s
  | .spopc => Sys2Proof.Machine.execSpopc s
  | .scmpm => Sys2Proof.Machine.execScmpm s
  | .saddi => Sys2Proof.Machine.execSaddi s
  | .sandi => Sys2Proof.Machine.execSandi s
  | .sori => Sys2Proof.Machine.execSori s
  | .sxori => Sys2Proof.Machine.execSxori s
  | .sshli => Sys2Proof.Machine.execSshli s
  | .sshri => Sys2Proof.Machine.execSshri s
  | .ssrai => Sys2Proof.Machine.execSsrai s
  | .scmpi => Sys2Proof.Machine.execScmpi s
  | .sli => Sys2Proof.Machine.execSli s
  | .slih => Sys2Proof.Machine.execSlih s
  | .slit => Sys2Proof.Machine.execSlit s
  | .sbext => Sys2Proof.Machine.execSbext s
  | .sbins => Sys2Proof.Machine.execSbins s
  | .mand => Sys2Proof.Machine.execMand s
  | .mor => Sys2Proof.Machine.execMor s
  | .mxor => Sys2Proof.Machine.execMxor s
  | .mandn => Sys2Proof.Machine.execMandn s
  | .mfroms => Sys2Proof.Machine.execMfroms s
  | .mtos => Sys2Proof.Machine.execMtos s
  | .mpopc => Sys2Proof.Machine.execMpopc s
  | .mlane => Sys2Proof.Machine.execMlane s
  | .sld => Sys2Proof.Machine.execSld s
  | .sst => Sys2Proof.Machine.execSst s
  | .br => Sys2Proof.Machine.execBr s
  | .brc => Sys2Proof.Machine.execBrc s
  | .brci => Sys2Proof.Machine.execBrci s
  | .bri => Sys2Proof.Machine.execBri s
  | .call => Sys2Proof.Machine.execCall s
  | .calli => Sys2Proof.Machine.execCalli s
  | .ret => Sys2Proof.Machine.execRet s
  | .loop => Sys2Proof.Machine.execLoop s
  | .loopi => Sys2Proof.Machine.execLoopi s
  | .loops => Sys2Proof.Machine.execLoops s
  | .csrrd => Sys2Proof.Machine.execCsrrd s
  | .csrwr => Sys2Proof.Machine.execCsrwr s
  | .feget => Sys2Proof.Machine.execFeget s
  | .fegetv => Sys2Proof.Machine.execFegetv s
  | .fewaits => Sys2Proof.Machine.execFewaits s
  | .nop => Sys2Proof.Machine.execNop s
  | .saddShort => Sys2Proof.Machine.execSaddShort s
  | .ssubShort => Sys2Proof.Machine.execSsubShort s
  | .sandShort => Sys2Proof.Machine.execSandShort s
  | .sorShort => Sys2Proof.Machine.execSorShort s
  | .sxorShort => Sys2Proof.Machine.execSxorShort s
  | .sshlShort => Sys2Proof.Machine.execSshlShort s
  | .sshrShort => Sys2Proof.Machine.execSshrShort s
  | .ssraShort => Sys2Proof.Machine.execSsraShort s
  | .smulShort => Sys2Proof.Machine.execSmulShort s
  | .sminShort => Sys2Proof.Machine.execSminShort s
  | .smaxShort => Sys2Proof.Machine.execSmaxShort s
  | .scmpShort => Sys2Proof.Machine.execScmpShort s
  | .saddiShort => Sys2Proof.Machine.execSaddiShort s
  | .sshliShort => Sys2Proof.Machine.execSshliShort s
  | .sshriShort => Sys2Proof.Machine.execSshriShort s
  | .sliShort => Sys2Proof.Machine.execSliShort s
  | .sldShort => Sys2Proof.Machine.execSldShort s
  | .sstShort => Sys2Proof.Machine.execSstShort s
  | .vaddF32Short => Sys2Proof.Machine.execVaddF32Short s
  | .vsubShort => Sys2Proof.Machine.execVsubShort s
  | .vmulShort => Sys2Proof.Machine.execVmulShort s
  | .vaddI32Short => Sys2Proof.Machine.execVaddI32Short s
  | .vmovShort => Sys2Proof.Machine.execVmovShort s
  | .vldShort => Sys2Proof.Machine.execVldShort s
  | .vstShort => Sys2Proof.Machine.execVstShort s
  | .mandShort => Sys2Proof.Machine.execMandShort s
  | .morShort => Sys2Proof.Machine.execMorShort s
  | .retShort => Sys2Proof.Machine.execRetShort s
  | .nopShort => Sys2Proof.Machine.execNopShort s
  | .phcommitShort => Sys2Proof.Machine.execPhcommitShort s
  | .yieldShort => Sys2Proof.Machine.execYieldShort s
  | .vmaxShort => Sys2Proof.Machine.execVmaxShort s
  | .vadd => Sys2Proof.Machine.execVadd s
  | .vsub => Sys2Proof.Machine.execVsub s
  | .vmul => Sys2Proof.Machine.execVmul s
  | .vfma => Sys2Proof.Machine.execVfma s
  | .vfms => Sys2Proof.Machine.execVfms s
  | .vfnma => Sys2Proof.Machine.execVfnma s
  | .vmin => Sys2Proof.Machine.execVmin s
  | .vmax => Sys2Proof.Machine.execVmax s
  | .vabs => Sys2Proof.Machine.execVabs s
  | .vneg => Sys2Proof.Machine.execVneg s
  | .vand => Sys2Proof.Machine.execVand s
  | .vor => Sys2Proof.Machine.execVor s
  | .vxor => Sys2Proof.Machine.execVxor s
  | .vshl => Sys2Proof.Machine.execVshl s
  | .vshr => Sys2Proof.Machine.execVshr s
  | .vsra => Sys2Proof.Machine.execVsra s
  | .vadds => Sys2Proof.Machine.execVadds s
  | .vmuls => Sys2Proof.Machine.execVmuls s
  | .vaddi => Sys2Proof.Machine.execVaddi s
  | .vandi => Sys2Proof.Machine.execVandi s
  | .vshli => Sys2Proof.Machine.execVshli s
  | .vshri => Sys2Proof.Machine.execVshri s
  | .vsrai => Sys2Proof.Machine.execVsrai s
  | .vmov => Sys2Proof.Machine.execVmov s
  | .vsel => Sys2Proof.Machine.execVsel s
  | .vbcast => Sys2Proof.Machine.execVbcast s
  | .vins => Sys2Proof.Machine.execVins s
  | .vext => Sys2Proof.Machine.execVext s
  | .viota => Sys2Proof.Machine.execViota s
  | .vcmp => Sys2Proof.Machine.execVcmp s
  | .vclass => Sys2Proof.Machine.execVclass s
  | .vcvt => Sys2Proof.Machine.execVcvt s
  | .ve2enc => Sys2Proof.Machine.execVe2enc s
  | .ve2dec => Sys2Proof.Machine.execVe2dec s
  | .vbenc => Sys2Proof.Machine.execVbenc s
  | .vbdec => Sys2Proof.Machine.execVbdec s
  | .vradd => Sys2Proof.Machine.execVradd s
  | .vrmin => Sys2Proof.Machine.execVrmin s
  | .vrmax => Sys2Proof.Machine.execVrmax s
  | .vperm => Sys2Proof.Machine.execVperm s
  | .vperm2 => Sys2Proof.Machine.execVperm2 s
  | .vpack => Sys2Proof.Machine.execVpack s
  | .vunpk => Sys2Proof.Machine.execVunpk s
  | .vrot => Sys2Proof.Machine.execVrot s
  | .vexp => Sys2Proof.Machine.execVexp s
  | .vlog => Sys2Proof.Machine.execVlog s
  | .vrcp => Sys2Proof.Machine.execVrcp s
  | .vrsqrt => Sys2Proof.Machine.execVrsqrt s
  | .vrnd => Sys2Proof.Machine.execVrnd s
  | .vscl => Sys2Proof.Machine.execVscl s
  | .vsort => Sys2Proof.Machine.execVsort s
  | .vld => Sys2Proof.Machine.execVld s
  | .vst => Sys2Proof.Machine.execVst s
  | .vlds => Sys2Proof.Machine.execVlds s
  | .vsts => Sys2Proof.Machine.execVsts s
  | .tcfg => Sys2Proof.Machine.execTcfg s
  | .tzero => Sys2Proof.Machine.execTzero s
  | .tconst => Sys2Proof.Machine.execTconst s
  | .tramp => Sys2Proof.Machine.execTramp s
  | .trepeat => Sys2Proof.Machine.execTrepeat s
  | .tld => Sys2Proof.Machine.execTld s
  | .tlda => Sys2Proof.Machine.execTlda s
  | .tst => Sys2Proof.Machine.execTst s
  | .tsta => Sys2Proof.Machine.execTsta s
  | .twrow => Sys2Proof.Machine.execTwrow s
  | .trrow => Sys2Proof.Machine.execTrrow s
  | .twcol => Sys2Proof.Machine.execTwcol s
  | .trcol => Sys2Proof.Machine.execTrcol s
  | .tadd => Sys2Proof.Machine.execTadd s
  | .tsub => Sys2Proof.Machine.execTsub s
  | .tmul => Sys2Proof.Machine.execTmul s
  | .tmin => Sys2Proof.Machine.execTmin s
  | .tmax => Sys2Proof.Machine.execTmax s
  | .tscale => Sys2Proof.Machine.execTscale s
  | .tcvt => Sys2Proof.Machine.execTcvt s
  | .ttrans => Sys2Proof.Machine.execTtrans s
  | .tredrow => Sys2Proof.Machine.execTredrow s
  | .tsymxStrict => Sys2Proof.Machine.execTsymxStrict s
  | .tsymxFast => Sys2Proof.Machine.execTsymxFast s
  | .tstatRegister => Sys2Proof.Machine.execTstatRegister s
  | .tstatHandle => Sys2Proof.Machine.execTstatHandle s
  | .tmatl => Sys2Proof.Machine.execTmatl s
  | .tspillSave => Sys2Proof.Machine.execTspillSave s
  | .tspillLazy => Sys2Proof.Machine.execTspillLazy s
  | .tspillRestore => Sys2Proof.Machine.execTspillRestore s
  | .trelease => Sys2Proof.Machine.execTrelease s
  | .tmov => Sys2Proof.Machine.execTmov s
  | .texcset => Sys2Proof.Machine.execTexcset s
  | .texcget => Sys2Proof.Machine.execTexcget s
  | .mloadw => Sys2Proof.Machine.execMloadw s
  | .mloadwh => Sys2Proof.Machine.execMloadwh s
  | .mswap => Sys2Proof.Machine.execMswap s
  | .mstream => Sys2Proof.Machine.execMstream s
  | .mstreamh => Sys2Proof.Machine.execMstreamh s
  | .mmac => Sys2Proof.Machine.execMmac s
  | .mmach => Sys2Proof.Machine.execMmach s
  | .mepi => Sys2Proof.Machine.execMepi s
  | .mdrain => Sys2Proof.Machine.execMdrain s
  | .mzacc => Sys2Proof.Machine.execMzacc s
  | .maccld => Sys2Proof.Machine.execMaccld s
  | .maccst => Sys2Proof.Machine.execMaccst s
  | .cpy => Sys2Proof.Machine.execCpy s
  | .cpyw => Sys2Proof.Machine.execCpyw s
  | .gather => Sys2Proof.Machine.execGather s
  | .gatherb => Sys2Proof.Machine.execGatherb s
  | .chlink => Sys2Proof.Machine.execChlink s
  | .chkick => Sys2Proof.Machine.execChkick s
  | .xwait => Sys2Proof.Machine.execXwait s
  | .xpoll => Sys2Proof.Machine.execXpoll s
  | .evpop => Sys2Proof.Machine.execEvpop s
  | .txqpop => Sys2Proof.Machine.execTxqpop s
  | .chseq => Sys2Proof.Machine.execChseq s
  | .qdepth => Sys2Proof.Machine.execQdepth s
  | .pcinc => Sys2Proof.Machine.execPcinc s
  | .pcdec => Sys2Proof.Machine.execPcdec s
  | .fwait => Sys2Proof.Machine.execFwait s
  | .fpoll => Sys2Proof.Machine.execFpoll s
  | .psreg => Sys2Proof.Machine.execPsreg s
  | .gbar => Sys2Proof.Machine.execGbar s
  | .fence => Sys2Proof.Machine.execFence s
  | .pfence => Sys2Proof.Machine.execPfence s
  | .aadd => Sys2Proof.Machine.execAadd s
  | .aand => Sys2Proof.Machine.execAand s
  | .aor => Sys2Proof.Machine.execAor s
  | .axor => Sys2Proof.Machine.execAxor s
  | .amin => Sys2Proof.Machine.execAmin s
  | .amax => Sys2Proof.Machine.execAmax s
  | .axchg => Sys2Proof.Machine.execAxchg s
  | .acas => Sys2Proof.Machine.execAcas s
  | .aaddNr => Sys2Proof.Machine.execAaddNr s
  | .aandNr => Sys2Proof.Machine.execAandNr s
  | .aorNr => Sys2Proof.Machine.execAorNr s
  | .axorNr => Sys2Proof.Machine.execAxorNr s
  | .aminNr => Sys2Proof.Machine.execAminNr s
  | .amaxNr => Sys2Proof.Machine.execAmaxNr s
  | .axchgNr => Sys2Proof.Machine.execAxchgNr s
  | .acasNr => Sys2Proof.Machine.execAcasNr s
  | .red => Sys2Proof.Machine.execRed s
  | .collReduce => Sys2Proof.Machine.execCollReduce s
  | .collAllreduce => Sys2Proof.Machine.execCollAllreduce s
  | .collAllgather => Sys2Proof.Machine.execCollAllgather s
  | .collBcast => Sys2Proof.Machine.execCollBcast s
  | .tspawn => Sys2Proof.Machine.execTspawn s
  | .tjoin => Sys2Proof.Machine.execTjoin s
  | .texit => Sys2Proof.Machine.execTexit s
  | .texitDrop => Sys2Proof.Machine.execTexitDrop s
  | .tinfo => Sys2Proof.Machine.execTinfo s
  | .tenq => Sys2Proof.Machine.execTenq s
  | .trap => Sys2Proof.Machine.execTrap s
  | .tret => Sys2Proof.Machine.execTret s
  | .yield => Sys2Proof.Machine.execYield s
  | .bkpt => Sys2Proof.Machine.execBkpt s
  | .waitev => Sys2Proof.Machine.execWaitev s
  | .trmark => Sys2Proof.Machine.execTrmark s
  | .trstart => Sys2Proof.Machine.execTrstart s
  | .trstop => Sys2Proof.Machine.execTrstop s
  | .capstart => Sys2Proof.Machine.execCapstart s
  | .capstop => Sys2Proof.Machine.execCapstop s
  | .phcommit => Sys2Proof.Machine.execPhcommit s
  | .coolreq => Sys2Proof.Machine.execCoolreq s
  | .coolrel => Sys2Proof.Machine.execCoolrel s
  | .coolstat => Sys2Proof.Machine.execCoolstat s
  | .clklock => Sys2Proof.Machine.execClklock s
  | .clkfree => Sys2Proof.Machine.execClkfree s
  | .longLatencyFill => Sys2Proof.Machine.execLongLatencyFill s
  | .stall => Sys2Proof.Machine.execStall s
  | .tasterCompare => Sys2Proof.Machine.execTasterCompare s
  | .engineCommandBegin => Sys2Proof.Machine.execEngineCommandBegin s
  | .engineCommandComplete => Sys2Proof.Machine.execEngineCommandComplete s
  | .operandFetch => Sys2Proof.Machine.execOperandFetch s
  | .chainEntryRead => Sys2Proof.Machine.execChainEntryRead s
  | .chainEntryDone => Sys2Proof.Machine.execChainEntryDone s
  | .tlbWalkComplete => Sys2Proof.Machine.execTlbWalkComplete s
  | .multicastLand => Sys2Proof.Machine.execMulticastLand s
  | .storeArriveHome => Sys2Proof.Machine.execStoreArriveHome s
  | .tileCommit => Sys2Proof.Machine.execTileCommit s
  | .dieViewApply => Sys2Proof.Machine.execDieViewApply s
  | .atomicMoved => Sys2Proof.Machine.execAtomicMoved s
  | .progressVerdict => Sys2Proof.Machine.execProgressVerdict s
  | .countUpdateApply => Sys2Proof.Machine.execCountUpdateApply s
  | .frontierNotice => Sys2Proof.Machine.execFrontierNotice s
  | .collectiveDone => Sys2Proof.Machine.execCollectiveDone s
  | .joinDecrement => Sys2Proof.Machine.execJoinDecrement s
  | .gangAdmit => Sys2Proof.Machine.execGangAdmit s
  | .memberRelease => Sys2Proof.Machine.execMemberRelease s
  | .taskComplete => Sys2Proof.Machine.execTaskComplete s
  | .frameTick => Sys2Proof.Machine.execFrameTick s
  | .preemptSelect => Sys2Proof.Machine.execPreemptSelect s
  | .yieldDeadline => Sys2Proof.Machine.execYieldDeadline s
  | .checkpoint => Sys2Proof.Machine.execCheckpoint s
  | .killRequeue => Sys2Proof.Machine.execKillRequeue s
  | .taskKill => Sys2Proof.Machine.execTaskKill s
  | .creqSched => Sys2Proof.Machine.execCreqSched s
  | .drawStart => Sys2Proof.Machine.execDrawStart s
  | .rollback => Sys2Proof.Machine.execRollback s
  | .dieFailure => Sys2Proof.Machine.execDieFailure s
  | .write => Sys2Proof.Machine.execWrite s
  | .read => Sys2Proof.Machine.execRead s
  | .resp => Sys2Proof.Machine.execResp s
  | .redPacket => Sys2Proof.Machine.execRedPacket s
  | .pbatch => Sys2Proof.Machine.execPbatch s
  | .colld => Sys2Proof.Machine.execColld s
  | .fopen => Sys2Proof.Machine.execFopen s
  | .fclose => Sys2Proof.Machine.execFclose s
  | .fack => Sys2Proof.Machine.execFack s
  | .ack => Sys2Proof.Machine.execAck s
  | .nak => Sys2Proof.Machine.execNak s
  | .degrade => Sys2Proof.Machine.execDegrade s
  | .linkPacketReceive => Sys2Proof.Machine.execLinkPacketReceive s
  | .linkAckTimer => Sys2Proof.Machine.execLinkAckTimer s
  | .ltimeout => Sys2Proof.Machine.execLtimeout s
  | .laneFailed => Sys2Proof.Machine.execLaneFailed s
  | .retrainDone => Sys2Proof.Machine.execRetrainDone s
  | .linkDown => Sys2Proof.Machine.execLinkDown s
  | .ftimeout => Sys2Proof.Machine.execFtimeout s
  | .flowIdleClose => Sys2Proof.Machine.execFlowIdleClose s
  | .fetch => Sys2Proof.Machine.execFetch s
  | .spill => Sys2Proof.Machine.execSpill s
  | .evict => Sys2Proof.Machine.execEvict s
  | .free => Sys2Proof.Machine.execFree s
  | .alloc => Sys2Proof.Machine.execAlloc s
  | .rackRequestComplete => Sys2Proof.Machine.execRackRequestComplete s
  | .rackDriveTimeout => Sys2Proof.Machine.execRackDriveTimeout s
  | .messageDescriptor => Sys2Proof.Machine.execMessageDescriptor s
  | .inflate => Sys2Proof.Machine.execInflate s
  | .charsetConvert => Sys2Proof.Machine.execCharsetConvert s
  | .tokenise => Sys2Proof.Machine.execTokenise s
  | .tfeQueueResume => Sys2Proof.Machine.execTfeQueueResume s
  | .batchReady => Sys2Proof.Machine.execBatchReady s
  | .quarantineRecord => Sys2Proof.Machine.execQuarantineRecord s
  | .valveControlStep => Sys2Proof.Machine.execValveControlStep s
  | .overtemp => Sys2Proof.Machine.execOvertemp s
  | .lowflow => Sys2Proof.Machine.execLowflow s
  | .dry => Sys2Proof.Machine.execDry s
  | .valve => Sys2Proof.Machine.execValve s
  | .evacGangsStopped => Sys2Proof.Machine.execEvacGangsStopped s
  | .evacDrainExpire => Sys2Proof.Machine.execEvacDrainExpire s
  | .evacValveSettled => Sys2Proof.Machine.execEvacValveSettled s
  | .evacPurgeEnd => Sys2Proof.Machine.execEvacPurgeEnd s
  | .evacRampStep => Sys2Proof.Machine.execEvacRampStep s
  | .evacVerifyEnd => Sys2Proof.Machine.execEvacVerifyEnd s
  | .powerOverlimit => Sys2Proof.Machine.execPowerOverlimit s
  | .powerHardThrottle => Sys2Proof.Machine.execPowerHardThrottle s
  | .moduleReset => Sys2Proof.Machine.execModuleReset s
  | .bar2Read => Sys2Proof.Machine.execBar2Read s
  | .bar2Write => Sys2Proof.Machine.execBar2Write s
  | .winbaseWrite => Sys2Proof.Machine.execWinbaseWrite s
  | .status => Sys2Proof.Machine.execStatus s
  | .mailboxFence => Sys2Proof.Machine.execMailboxFence s
  | .ctxload => Sys2Proof.Machine.execCtxload s
  | .ctxdestroy => Sys2Proof.Machine.execCtxdestroy s
  | .ptinv => Sys2Proof.Machine.execPtinv s
  | .taskkill => Sys2Proof.Machine.execTaskkill s
  | .qread => Sys2Proof.Machine.execQread s
  | .poolreg => Sys2Proof.Machine.execPoolreg s
  | .streamopen => Sys2Proof.Machine.execStreamopen s
  | .streamclose => Sys2Proof.Machine.execStreamclose s
  | .mtabload => Sys2Proof.Machine.execMtabload s
  | .route => Sys2Proof.Machine.execRoute s
  | .group => Sys2Proof.Machine.execGroup s
  | .fwload => Sys2Proof.Machine.execFwload s
  | .fwcommit => Sys2Proof.Machine.execFwcommit s
  | .cert => Sys2Proof.Machine.execCert s
  | .quote => Sys2Proof.Machine.execQuote s
  | .csrwrTshp => Sys2Proof.Machine.execCsrwrTshp s
  | .csrwrTloc => Sys2Proof.Machine.execCsrwrTloc s
  | .ttinv => Sys2Proof.Machine.execTtinv s
  | .csrwrTtbase => Sys2Proof.Machine.execCsrwrTtbase s
  | .csrwrTxqcfg => Sys2Proof.Machine.execCsrwrTxqcfg s
  | .csrwrPhctl => Sys2Proof.Machine.execCsrwrPhctl s
  | .csrwrTokcnt => Sys2Proof.Machine.execCsrwrTokcnt s
  | .csrwrSpdbg => Sys2Proof.Machine.execCsrwrSpdbg s
  | .csrwrLfsr => Sys2Proof.Machine.execCsrwrLfsr s
  | .csrwrTrace => Sys2Proof.Machine.execCsrwrTrace s
  | .xerrClear => Sys2Proof.Machine.execXerrClear s
  | .vatFloorWrite => Sys2Proof.Machine.execVatFloorWrite s
  | .framelenWrite => Sys2Proof.Machine.execFramelenWrite s
  | .linkRetrain => Sys2Proof.Machine.execLinkRetrain s
  | .laneRequalify => Sys2Proof.Machine.execLaneRequalify s
  | .registerWrite => Sys2Proof.Machine.execRegisterWrite s
  | .symbolLockLost => Sys2Proof.Machine.execSymbolLockLost s
  | .symbolLockRegained => Sys2Proof.Machine.execSymbolLockRegained s
  | .overtempClear => Sys2Proof.Machine.execOvertempClear s
  | .tcrit => Sys2Proof.Machine.execTcrit s
  | .lowflowClear => Sys2Proof.Machine.execLowflowClear s
  | .lowflowPersist => Sys2Proof.Machine.execLowflowPersist s
  | .powerThrottleEnd => Sys2Proof.Machine.execPowerThrottleEnd s
  | .atomicApply => Sys2Proof.Machine.execAtomicApply s

end Sys2Proof.Machine
end

