-- ==== Sys2Proof/Machine/Step.lean ====
section
/-! DEFINITION. One step of the module: a due device step, or the issue cyc of the core in focus. -/

namespace Sys2Proof.Machine

open Sys2Proof Decode

/-- One step: `turn` says what it is, `exec` gives the meaning, and after an issue cyc the turn ends. -/
def step (s : State) : Host.Outcome State Fault Refusal :=
  match s.turn with
  | .act e s => exec e.op s
  | .issue i s =>
    (match exec i s with
    | .next t => .next t.endTurn
    | .fault f => .fault f
    | .refused r => .refused r)
  | .idle s => .next s.endTurn
  | .stop f => .fault f

/-- The state with an instruction of `nbits` table bits `w` stored where `step` fetches next. -/
def State.withFetchWord (s : State) (nbits w : Nat) : State := s.placeWord (leBytes (if nbits ≤ 40 then 5 else 10) w)

end Sys2Proof.Machine
end

