-- ==== Sys2Proof/Safety.lean ====
section
/-! DEFINITION. The terms of the claims: when an instruction issues and takes effect, the state after it retires in sequence, the
canonical form of every memory, and what a frame leaves alone. -/

namespace Sys2Proof.Safety

open Sys2Proof Machine Decode

/-- The instruction at the PC ends no active loop's body (R119). -/
abbrev Straight (s : State) : Prop := s.core.q.endingAt s.core.q.pc = []

/-- R68, R84: the checks and common holds of an instruction pass, and it is not predicated off; R119 moves flow nowhere. -/
abbrev Ready (sh : Shape) (lat : Option Nat) (s : State) : Prop :=
  gate sh lat s = .pass ∧ predOn s.core.q s.core.q.ir = true ∧ Straight s

/-- The same for an instruction whose predicate gates lanes; no tile operation occupies the Vector Unit (R178). -/
abbrev LaneReady (sh : Shape) (lat : Option Nat) (s : State) : Prop :=
  gate sh lat s = .pass ∧ s.core.q.vecBusy ≤ s.cyc ∧ Straight s

/-- R60, R64, R402: the state once an instruction that issued in `s` and left `t` has retired in sequential flow. -/
def retired (s t : State) (lat : Option Nat) : State :=
  t.retire s.core.dbg lat s.core.q.pc (t.core.q.line.nextPc s.core.q.pc) false (s.cyc + 1) (s.core.q.innermost s.core.q.pc) [] s.core.trap.thm

/-- R116: the state once a transfer that issued in `s` and left `t` has been taken to a PC. -/
def transferred (s t : State) (lat : Option Nat) (target : PC) : State :=
  t.retire s.core.dbg lat s.core.q.pc target true (s.cyc + 3) (s.core.q.innermost s.core.q.pc) [] s.core.trap.thm

/-- R84, R178: a tile or lane-predicated instruction aside, an instruction whose checks and holds pass and that is not predicated off. -/
abbrev Issues (sh : Shape) (lat : Option Nat) (s : State) : Prop := gate sh lat s = .pass ∧ predOn s.core.q s.core.q.ir = true

/-- R315: a start of 2 units is granted at once: nothing waits, and the die has them left. -/
abbrev PowerFree (s : State) : Prop := s.sched.waiting = [] ∧ 2 ≤ s.powerLeft s.die

/-- R127: the state of a vector instruction whose lanes are computed by `f`, with the generator and the events they leave. -/
def laneResult (s : State) (sh : Shape) (lat : Nat) (f : Nat → Draw → Lane × Draw) : State :=
  let r := eachLane s.enabled f s.core.draw
  retired s (State.writeV { s.noteReads sh with core := (s.noteReads sh).core.drawn r.2 } lat s.core.q.ir.dst s.enabled r.1) (some lat)

/-- What an instruction without an effect on memory, tiles, loops, traps and devices leaves alone. -/
def Untouched (s t : State) : Prop :=
  t.cyc = s.cyc ∧ t.peers = s.peers ∧ t.mem = s.mem ∧ t.pe = s.pe ∧ t.sched = s.sched ∧ t.fab = s.fab ∧ t.rack = s.rack ∧ t.tfe = s.tfe ∧
  t.cool = s.cool ∧ t.host = s.host ∧ t.core.num = s.core.num ∧ t.core.status = s.core.status ∧ t.core.tile = s.core.tile ∧
  t.core.trap = s.core.trap ∧ t.core.q.loops = s.core.q.loops ∧ t.core.q.pad = s.core.q.pad ∧ t.core.q.ir = s.core.q.ir ∧
  t.core.cnt.gboob = s.core.cnt.gboob ∧ t.core.cnt.promcnt = s.core.cnt.promcnt ∧ t.core.cnt.cache = s.core.cnt.cache ∧
  { t.core.eng with fol := s.core.eng.fol } = s.core.eng ∧ { t.core.task with walkFault := s.core.task.walkFault } = s.core.task ∧
  { t.core.dbg with pmc := s.core.dbg.pmc, brk := s.core.dbg.brk } = s.core.dbg

/-- The scalar, mask and query instructions that write a register, and NOP. -/
def scalarRows : List Instr :=
  [.sadd, .ssub, .smul, .smulh, .sdiv, .srem, .sand, .sor, .sxor, .sshl, .sshr, .ssra, .smin, .smax, .scmp, .ssel, .sclz, .sctz, .spopc,
   .scmpm, .saddi, .sandi, .sori, .sxori, .sshli, .sshri, .ssrai, .scmpi, .sli, .slih, .slit, .sbext, .sbins, .mand, .mor, .mxor, .mandn,
   .mfroms, .mtos, .mpopc, .mlane, .feget, .fegetv, .fewaits, .nop, .saddShort, .ssubShort, .sandShort, .sorShort, .sxorShort, .sshlShort,
   .sshrShort, .ssraShort, .smulShort, .sminShort, .smaxShort, .scmpShort, .saddiShort, .sshliShort, .sshriShort, .sliShort, .mandShort,
   .morShort, .nopShort]

/-- The vector instructions that write a vector, mask or scalar register from registers. -/
def vectorRows : List Instr :=
  [.vadd, .vsub, .vmul, .vfma, .vfms, .vfnma, .vmin, .vmax, .vabs, .vneg, .vand, .vor, .vxor, .vshl, .vshr, .vsra, .vadds, .vmuls, .vaddi,
   .vandi, .vshli, .vshri, .vsrai, .vmov, .vsel, .vbcast, .vins, .vext, .viota, .vcmp, .vclass, .vcvt, .ve2enc, .ve2dec, .vbenc, .vbdec,
   .vradd, .vrmin, .vrmax, .vperm, .vperm2, .vpack, .vunpk, .vrot, .vexp, .vlog, .vrcp, .vrsqrt, .vrnd, .vscl, .vsort, .vaddF32Short,
   .vsubShort, .vmulShort, .vaddI32Short, .vmovShort, .vmaxShort]

/-! The accesses of loads and stores (R110, R144). -/

/-- R110: the access of SLD or SST: its space, address and width. -/
def scalarAccess (store : Bool) (s : State) : AccessCheck :=
  let f := s.core.q.ir
  { vec := false, store := store, space := spaceOf f, ea := effAddr (if store then s.srcB else s.srcA) f, width := accessBytes f.ty,
    extent := accessBytes f.ty, sc := s.srcC }

/-- R144: the access of VLD, or of VLDS, which reads one element for all lanes. -/
def vectorLoad (one : Bool) (s : State) : AccessCheck :=
  let f := s.core.q.ir
  let w := laneBytes f.ty
  { vec := true, store := false, space := spaceOf f, ea := effAddr s.srcA f, width := w, extent := if one then w else 64 * w, sc := s.srcC }

/-- R144: the access of VST, or of VSTS, which stores one element. -/
def vectorStore (one : Bool) (s : State) : AccessCheck :=
  let f := s.core.q.ir
  let w := laneBytes f.ty
  { vec := true, store := true, space := spaceOf f, ea := effAddr s.srcB f, width := w, extent := if one then w else 64 * w, sc := s.srcC }

/-- The access of a store instruction. -/
def storeAccess (i : Instr) (s : State) : AccessCheck :=
  if i = .vst ∨ i = .vstShort then vectorStore false s else if i = .vsts then vectorStore true s else scalarAccess true s

/-- R110: whether TYPE names a signed integer. -/
def isSigned (ty : BitVec 4) : Bool := match scalarFmt ty with | .int _ => true | _ => false

/-- R216, R219, R287: the L1 TLB of the core in focus holds the page of an extent that crosses no page, and its entry grants reading and
writing it in its space: `r` is what the extent translates to; on this module it is memory, and no overflow area. -/
def Granted (s : State) (a len : Nat) (p : Bool) (r : PagePiece) : Prop :=
  a % 32768 + len ≤ 32768 ∧ 0 < len ∧ a + len ≤ 2 ^ 51 ∧
  (∃ e, s.core.task.tlb.find? (tlbHit s.core.task.asn.toNat a) = some e ∧ leafFault e.pte .read p = none ∧ leafFault e.pte .write p = none ∧
    r = { va := a, len := len, node := (s.placeOf e a).node, die := (s.placeOf e a).die, pa := (s.placeOf e a).pa, pte := e.pte }) ∧
  (r.node = s.fab.node.toNat → paExists r.pa = true) ∧ s.overflowArea [r] = false

/-! Device steps to come. -/

/-- A device step stands on the agenda for the cycs from `lo` to `hi`. -/
def Awaits (t : State) (op : Instr) (n0 n1 lo hi : Nat) : Prop :=
  ∃ e ∈ t.agenda, e.op = op ∧ e.arg.n0 = n0 ∧ e.arg.n1 = n1 ∧ lo ≤ e.due ∧ e.due ≤ hi

/-- One access of path 6 has issued and waits for its compare (R383); memory stands. -/
def Departs (s t : State) (what : StoreWhat) : Prop :=
  t.mem.views = s.mem.views ∧ ∃ x : InFlight, t.mem.flying = s.mem.flying ++ [x] ∧ x.what = what ∧ x.path = 6 ∧ x.core = s.core.num

/-- Every die's view of main memory, and the Cellar, have the canonical form. -/
def MemoryCanonical (s : State) : Prop := (∀ d, Mem.wf (vat s.mem.views d) = true) ∧ Mem.wf s.rack.cellar = true

/-- Where two states keep their memory views apart from that of one die. -/
def OtherViews (s t : State) (d : Nat) : Prop := ∀ k, k % 4 ≠ d % 4 → vat t.mem.views k = vat s.mem.views k

/-! The forms of the instructions. -/

/-- R89, R99, R101, R112: the operand forms and the fixed latency of an instruction that issues; none for a device step. -/
def shapeOf (i : Instr) (s : State) : Option (Shape × Option Nat) :=
  let f := s.core.q.ir
  match i with
  | .sadd => some (shIntArith f, some 1)
  | .ssub => some (shIntArith f, some 1)
  | .smul => some (shIntArith f, some 3)
  | .smulh => some (shIntPlain f, some 3)
  | .sdiv => some (shIntLong f, none)
  | .srem => some (shIntLong f, none)
  | .sand => some (shLogic f, some 1)
  | .sor => some (shLogic f, some 1)
  | .sxor => some (shLogic f, some 1)
  | .sshl => some (shLogic f, some 1)
  | .sshr => some (shLogic f, some 1)
  | .ssra => some (shLogic f, some 1)
  | .smin => some (shIntPlain f, some 1)
  | .smax => some (shIntPlain f, some 1)
  | .scmp => some (shScmp f, some 1)
  | .ssel => some (shSsel f, some 1)
  | .sclz => some (shUnary f, some 1)
  | .sctz => some (shUnary f, some 1)
  | .spopc => some (shUnary f, some 1)
  | .scmpm => some (shScmpm f, some 1)
  | .saddi => some (shSaddi f, some 1)
  | .sandi => some (shLogicImm f, some 1)
  | .sori => some (shLogicImm f, some 1)
  | .sxori => some (shLogicImm f, some 1)
  | .sshli => some (shShiftImm f, some 1)
  | .sshri => some (shShiftImm f, some 1)
  | .ssrai => some (shShiftImm f, some 1)
  | .scmpi => some (shScmpi f, some 1)
  | .sli => some (shSli f, some 1)
  | .slih => some (shSlih f, some 1)
  | .slit => some (shLogicImm f, some 1)
  | .sbext => some (shSbext f, some 1)
  | .sbins => some (shSbins f, some 1)
  | .mand => some (shMask f, some 1)
  | .mor => some (shMask f, some 1)
  | .mxor => some (shMask f, some 1)
  | .mandn => some (shMask f, some 1)
  | .mfroms => some (shMfroms f, some 1)
  | .mtos => some (shMtos f, some 1)
  | .mpopc => some (shMtos f, some 1)
  | .mlane => some (shMfroms f, some 1)
  | .sld => some (shSld f, loadLat [2] 5 f)
  | .sst => some (shSst f, none)
  | .br => some (shBr f, none)
  | .brc => some (shBrc f, none)
  | .brci => some (shBrci f, none)
  | .bri => some (shBri f, none)
  | .call => some (shCall f, some 1)
  | .calli => some (shCalli f, some 1)
  | .ret => some (shBri f, none)
  | .loop => some (shLoop f (pcSlot s.core.q.pc), none)
  | .loopi => some (shLoopi f (pcSlot s.core.q.pc), none)
  | .loops => some (shLoops f (pcSlot s.core.q.pc), none)
  | .csrrd => some (shCsrrd s f, some 2)
  | .csrwr => some (shCsrwr s f, none)
  | .feget => some (shFeget f, some 1)
  | .fegetv => some (shFeget f, some 1)
  | .fewaits => some (shFewaits f, none)
  | .nop => some (shNop f, none)
  | .saddShort => some (shIntArith f, some 1)
  | .ssubShort => some (shIntArith f, some 1)
  | .sandShort => some (shLogic f, some 1)
  | .sorShort => some (shLogic f, some 1)
  | .sxorShort => some (shLogic f, some 1)
  | .sshlShort => some (shLogic f, some 1)
  | .sshrShort => some (shLogic f, some 1)
  | .ssraShort => some (shLogic f, some 1)
  | .smulShort => some (shIntArith f, some 3)
  | .sminShort => some (shIntPlain f, some 1)
  | .smaxShort => some (shIntPlain f, some 1)
  | .scmpShort => some (shScmp f, some 1)
  | .saddiShort => some (shSaddi f, some 1)
  | .sshliShort => some (shShiftImm f, some 1)
  | .sshriShort => some (shShiftImm f, some 1)
  | .sliShort => some (shSli f, some 1)
  | .sldShort => some (shSld f, loadLat [2] 5 f)
  | .sstShort => some (shSst f, none)
  | .vaddF32Short => some (shV2 f, some (arithLat f))
  | .vsubShort => some (shV2 f, some (arithLat f))
  | .vmulShort => some (shVmul f, if iv f.ty then none else some 4)
  | .vaddI32Short => some (shV2 f, some (arithLat f))
  | .vmovShort => some (shVraw1 f, some 2)
  | .vldShort => some (shVld f, loadLat [2, 3] 6 f)
  | .vstShort => some (shVst f, none)
  | .mandShort => some (shMask f, some 1)
  | .morShort => some (shMask f, some 1)
  | .retShort => some (shBri f, none)
  | .nopShort => some (shNop f, none)
  | .phcommitShort => some (shPhcommit f, none)
  | .yieldShort => some (shYield f, none)
  | .vmaxShort => some (shMinMax f, some (arithLat f))
  | .vadd => some (shV2 f, some (arithLat f))
  | .vsub => some (shV2 f, some (arithLat f))
  | .vmul => some (shVmul f, if iv f.ty then none else some 4)
  | .vfma => some (shFma f, some 4)
  | .vfms => some (shFma f, some 4)
  | .vfnma => some (shFma f, some 4)
  | .vmin => some (shMinMax f, some (arithLat f))
  | .vmax => some (shMinMax f, some (arithLat f))
  | .vabs => some (shSign f, some (arithLat f))
  | .vneg => some (shSign f, some (arithLat f))
  | .vand => some (shVraw2 f, some 2)
  | .vor => some (shVraw2 f, some 2)
  | .vxor => some (shVraw2 f, some 2)
  | .vshl => some (shVraw2 f, some 2)
  | .vshr => some (shVraw2 f, some 2)
  | .vsra => some (shVraw2 f, some 2)
  | .vadds => some (shVadds f, some (arithLat f))
  | .vmuls => some (shVmuls f, if iv f.ty then none else some 4)
  | .vaddi => some (shVaddi f, some 2)
  | .vandi => some (shVandi f, some 2)
  | .vshli => some (shVshi f, some 2)
  | .vshri => some (shVshi f, some 2)
  | .vsrai => some (shVshi f, some 2)
  | .vmov => some (shVraw1 f, some 2)
  | .vsel => some (shVsel f, some 2)
  | .vbcast => some (shVbcast f, some 3)
  | .vins => some (shVins f, some 3)
  | .vext => some (shVext f, some 3)
  | .viota => some (shViota f, some 2)
  | .vcmp => some (shVcmp f, some 2)
  | .vclass => some (shVclass f, some 2)
  | .vcvt => some (shVcvt f, some 4)
  | .ve2enc => some (shE2 f, some 4)
  | .ve2dec => some (shE2 f, some 4)
  | .vbenc => some (shBn f, some 4)
  | .vbdec => some (shBn f, some 4)
  | .vradd => some (shVradd f, some 6)
  | .vrmin => some (shVrmin f, some 6)
  | .vrmax => some (shVrmin f, some 6)
  | .vperm => some (shVraw2 f, some 3)
  | .vperm2 => some (shVperm2 f, some 3)
  | .vpack => some (shVpack f, some 3)
  | .vunpk => some (shVunpk f, some 3)
  | .vrot => some (shVrot f, some 3)
  | .vexp => some (shVfun f (satOnly f.md), some 8)
  | .vlog => some (shVlog f, none)
  | .vrcp => some (shVfun f (satOnly f.md), some 8)
  | .vrsqrt => some (shVfun f (decide (f.md = 0)), some 8)
  | .vrnd => some (shVfun f (decide (f.md.toNat ≤ 4)), some 4)
  | .vscl => some (shVscl f, some 4)
  | .vsort => some (shVsort f, some 12)
  | .vld => some (shVld f, loadLat [2, 3] 6 f)
  | .vst => some (shVst f, none)
  | .vlds => some (shVld f, loadLat [2, 3] 6 f)
  | .vsts => some (shVst f, none)
  | .tcfg => some (shTcfg f, none)
  | .tzero => some (shTset f, none)
  | .tconst => some (shTconst f, none)
  | .tramp => some (shTramp f, none)
  | .trepeat => some (shTrepeat f, none)
  | .tld => some (shTld f, none)
  | .tlda => some (shTld f, none)
  | .tst => some (shTst f, none)
  | .tsta => some (shTst f, none)
  | .twrow => some (shTwrow f, none)
  | .trrow => some (shTrrow f, some 4)
  | .twcol => some (shTwrow f, none)
  | .trcol => some (shTrrow f, some 4)
  | .tadd => some (shTbin f, none)
  | .tsub => some (shTbin f, none)
  | .tmul => some (shTbin f, none)
  | .tmin => some (shTmin f, none)
  | .tmax => some (shTmin f, none)
  | .tscale => some (shTscale f, none)
  | .tcvt => some (shTcvt f, none)
  | .ttrans => some (shTmov f, none)
  | .tredrow => some (shTredrow f, none)
  | .tsymxStrict => some (shTsymx f, none)
  | .tsymxFast => some (shTsymx f, none)
  | .tstatRegister => some (shTstatR f, some 2)
  | .tstatHandle => some (shTstatH f, none)
  | .tmatl => some (shTset f, none)
  | .tspillSave => some (shTspill f, none)
  | .tspillLazy => some (shTspill f, none)
  | .tspillRestore => some (shTspill f, none)
  | .trelease => some (shTset f, none)
  | .tmov => some (shTmov f, none)
  | .texcset => some (shTexcset f, none)
  | .texcget => some (shTexcget f, some 2)
  | .mloadw => some (shMloadw f, none)
  | .mloadwh => some (shMloadwh f, none)
  | .mswap => some (engPlain 1 f, none)
  | .mstream => some (shMstream false f, none)
  | .mstreamh => some (shMstream true f, none)
  | .mmac => some (shMmac f, none)
  | .mmach => some (shMmach f, none)
  | .mepi => some (shMepi f, none)
  | .mdrain => some (shMdrain f, none)
  | .mzacc => some (shMzacc f, none)
  | .maccld => some (shMaccld f, none)
  | .maccst => some (shMaccst f, none)
  | .cpy => some (shCpy s.core.q, none)
  | .cpyw => some (shCpy s.core.q, none)
  | .gather => some (shGather false f, none)
  | .gatherb => some (shGather true f, none)
  | .chlink => some (shChlink f, none)
  | .chkick => some (shChkick f, some 2)
  | .xwait => some (shXwait f, none)
  | .xpoll => some (shXpoll f, some 2)
  | .evpop => some (shFill f, none)
  | .txqpop => some (shFill f, none)
  | .chseq => some (shChseq f, some 2)
  | .qdepth => some (shQdepth f, some 2)
  | .pcinc => some (shPcinc f, none)
  | .pcdec => some (shPcdec f, none)
  | .fwait => some (shFwait f, none)
  | .fpoll => some (shFpoll f, none)
  | .psreg => some (shPsreg f, none)
  | .gbar => some (shGbar f, none)
  | .fence => some (shFence f, none)
  | .pfence => some (shPfence f, none)
  | .aadd => some (shAtomic 0 false f, none)
  | .aand => some (shAtomic 1 false f, none)
  | .aor => some (shAtomic 2 false f, none)
  | .axor => some (shAtomic 3 false f, none)
  | .amin => some (shAtomic 4 false f, none)
  | .amax => some (shAtomic 5 false f, none)
  | .axchg => some (shAtomic 6 false f, none)
  | .acas => some (shAtomic 7 false f, none)
  | .aaddNr => some (shAtomic 0 true f, none)
  | .aandNr => some (shAtomic 1 true f, none)
  | .aorNr => some (shAtomic 2 true f, none)
  | .axorNr => some (shAtomic 3 true f, none)
  | .aminNr => some (shAtomic 4 true f, none)
  | .amaxNr => some (shAtomic 5 true f, none)
  | .axchgNr => some (shAtomic 6 true f, none)
  | .acasNr => some (shAtomic 7 true f, none)
  | .red => some (shRed f, none)
  | .collReduce => some (shColl 0 f, none)
  | .collAllreduce => some (shColl 1 f, none)
  | .collAllgather => some (shColl 2 f, none)
  | .collBcast => some (shColl 3 f, none)
  | .tspawn => some (shTspawn f, none)
  | .tjoin => some (shTjoin f, none)
  | .texit => some (shTexit f, none)
  | .texitDrop => some (shTexit f, none)
  | .tinfo => some (shTinfo f, some 2)
  | .tenq => some (shTenq f, none)
  | .trap => some (shTrap f, none)
  | .tret => some (shTret f s.core.trap.thm, none)
  | .yield => some (shYield f, none)
  | .bkpt => some (shTrap f, none)
  | .waitev => some (shWaitev f, none)
  | .trmark => some (shTrmark f, none)
  | .trstart => some (shTrmask f, none)
  | .trstop => some (shTrmask f, none)
  | .capstart => some (shCapstart f, none)
  | .capstop => some (shCapstop f, some 2)
  | .phcommit => some (shPhcommit f, none)
  | .coolreq => some (shCool f, none)
  | .coolrel => some (shCool f, none)
  | .coolstat => some (shCoolstat f, none)
  | .clklock => some (shClklock f, none)
  | .clkfree => some (shClkfree f, none)
  | .longLatencyFill => none
  | .stall => none
  | .tasterCompare => none
  | .engineCommandBegin => none
  | .engineCommandComplete => none
  | .operandFetch => none
  | .chainEntryRead => none
  | .chainEntryDone => none
  | .tlbWalkComplete => none
  | .multicastLand => none
  | .storeArriveHome => none
  | .tileCommit => none
  | .dieViewApply => none
  | .atomicMoved => none
  | .progressVerdict => none
  | .countUpdateApply => none
  | .frontierNotice => none
  | .collectiveDone => none
  | .joinDecrement => none
  | .gangAdmit => none
  | .memberRelease => none
  | .taskComplete => none
  | .frameTick => none
  | .preemptSelect => none
  | .yieldDeadline => none
  | .checkpoint => none
  | .killRequeue => none
  | .taskKill => none
  | .creqSched => none
  | .drawStart => none
  | .rollback => none
  | .dieFailure => none
  | .write => none
  | .read => none
  | .resp => none
  | .redPacket => none
  | .pbatch => none
  | .colld => none
  | .fopen => none
  | .fclose => none
  | .fack => none
  | .ack => none
  | .nak => none
  | .degrade => none
  | .linkPacketReceive => none
  | .linkAckTimer => none
  | .ltimeout => none
  | .laneFailed => none
  | .retrainDone => none
  | .linkDown => none
  | .ftimeout => none
  | .flowIdleClose => none
  | .fetch => none
  | .spill => none
  | .evict => none
  | .free => none
  | .alloc => none
  | .rackRequestComplete => none
  | .rackDriveTimeout => none
  | .messageDescriptor => none
  | .inflate => none
  | .charsetConvert => none
  | .tokenise => none
  | .tfeQueueResume => none
  | .batchReady => none
  | .quarantineRecord => none
  | .valveControlStep => none
  | .overtemp => none
  | .lowflow => none
  | .dry => none
  | .valve => none
  | .evacGangsStopped => none
  | .evacDrainExpire => none
  | .evacValveSettled => none
  | .evacPurgeEnd => none
  | .evacRampStep => none
  | .evacVerifyEnd => none
  | .powerOverlimit => none
  | .powerHardThrottle => none
  | .moduleReset => none
  | .bar2Read => none
  | .bar2Write => none
  | .winbaseWrite => none
  | .status => none
  | .mailboxFence => none
  | .ctxload => none
  | .ctxdestroy => none
  | .ptinv => none
  | .taskkill => none
  | .qread => none
  | .poolreg => none
  | .streamopen => none
  | .streamclose => none
  | .mtabload => none
  | .route => none
  | .group => none
  | .fwload => none
  | .fwcommit => none
  | .cert => none
  | .quote => none
  | .csrwrTshp => some (shCsrwr s f, none)
  | .csrwrTloc => some (shCsrwr s f, none)
  | .ttinv => some (shCsrwr s f, none)
  | .csrwrTtbase => some (shCsrwr s f, none)
  | .csrwrTxqcfg => some (shCsrwr s f, none)
  | .csrwrPhctl => some (shCsrwr s f, none)
  | .csrwrTokcnt => some (shCsrwr s f, none)
  | .csrwrSpdbg => some (shCsrwr s f, none)
  | .csrwrLfsr => some (shCsrwr s f, none)
  | .csrwrTrace => some (shCsrwr s f, none)
  | .xerrClear => some (shCsrwr s f, none)
  | .vatFloorWrite => none
  | .framelenWrite => none
  | .linkRetrain => none
  | .laneRequalify => none
  | .registerWrite => none
  | .symbolLockLost => none
  | .symbolLockRegained => none
  | .overtempClear => none
  | .tcrit => none
  | .lowflowClear => none
  | .lowflowPersist => none
  | .powerThrottleEnd => none
  | .atomicApply => none

/-- R84: an instruction without a hold of its own whose predicate is bit 0 of its mask. -/
def plain (i : Instr) : Bool :=
  [ .sadd, .ssub, .smul, .smulh, .sdiv, .srem, .sand, .sor, .sxor, .sshl, .sshr, .ssra, .smin, .smax, .scmp, .ssel, .sclz,
   .sctz, .spopc, .scmpm, .saddi, .sandi, .sori, .sxori, .sshli, .sshri, .ssrai, .scmpi, .sli, .slih, .slit, .sbext, .sbins,
   .mand, .mor, .mxor, .mandn, .mfroms, .mtos, .mpopc, .mlane, .sld, .sst, .br, .brc, .brci, .bri, .call, .calli, .ret,
   .loop, .loopi, .loops, .csrwr, .feget, .fegetv, .nop, .saddShort, .ssubShort, .sandShort, .sorShort, .sxorShort,
   .sshlShort, .sshrShort, .ssraShort, .smulShort, .sminShort, .smaxShort, .scmpShort, .saddiShort, .sshliShort, .sshriShort,
   .sliShort, .sldShort, .sstShort, .mandShort, .morShort, .retShort, .nopShort, .yieldShort, .tsymxStrict, .tsymxFast,
   .tstatHandle, .chlink, .chkick, .xpoll, .evpop, .txqpop, .chseq, .qdepth, .fpoll, .psreg, .gbar, .aadd, .aand, .aor,
   .axor, .amin, .amax, .axchg, .acas, .aaddNr, .aandNr, .aorNr, .axorNr, .aminNr, .amaxNr, .axchgNr, .acasNr, .red, .tinfo,
   .trap, .tret, .yield, .bkpt, .waitev, .trmark, .trstart, .trstop, .capstart, .capstop, .coolreq, .coolrel, .coolstat,
   .clklock, .clkfree, .csrwrTokcnt, .csrwrSpdbg, .csrwrLfsr, .csrwrTrace, .xerrClear].contains i

end Sys2Proof.Safety
end

