-- ==== Sys2Proof/WellFormed.lean ====
section
/-! DEFINITION. Which pairs of an instruction and operand fields are the reading of some word. A field value that an
instruction refuses at issue with ILLEGAL (R99) is well formed here: the machine runs it and takes the trap. -/

namespace Sys2Proof.WellFormed

open Sys2Proof Decode

/-- The row is an instruction, not a step of a device. -/
def hasWord (i : Instr) : Bool := (opcodeOf i).isSome

/-- The operand fields are of the row's form: the long form or the short form. -/
def formAgrees (i : Instr) : Operands → Bool
  | .long _ => match opcodeOf i with | some o => !isShortOpc o | none => false
  | .short _ => match opcodeOf i with | some o => isShortOpc o | none => false

/-- CSRWR has one row for each register whose write has an effect of its own: the CSR number selects the row. -/
def csrRow (i : Instr) (f : Fields) : Bool :=
  if opcodeOf i = some 0x071 then decide (csrwrOf (csrNum f) = i) else true

/-- TSYMX, TSTAT, TSPILL, COLL and TEXIT have one row for each sub-operation: IMM24 or MOD selects the row. -/
def subOpRow (i : Instr) (f : Fields) : Bool :=
  if opcodeOf i = some 0x228 then decide (tsymxOf f = i)
  else if opcodeOf i = some 0x229 then decide (tstatOf f = i)
  else if opcodeOf i = some 0x22B then decide (tspillOf f = i)
  else if opcodeOf i = some 0x321 then decide (collOf f = i)
  else if opcodeOf i = some 0x342 then decide (texitOf f = i)
  else true

/-- The pair is the reading of a word: the four checks above. -/
def check (i : Instr) (x : Operands) : Bool :=
  hasWord i && formAgrees i x &&
    (match x with
     | .long f => csrRow i f && subOpRow i f
     | .short _ => true)

end Sys2Proof.WellFormed
end

