-- ==== Sys2Proof/Certificates/Slice0/Obligations.lean ====
section
/-! DEFINITION. The statements for the provers. -/

section

open Sys2Proof Machine Decode Safety

/-! Issue (03 R45, R60 to R68, 05 R84, R99). -/

/-- R45: S0 reads as zero and is full, M0 reads as all ones, a write to either is discarded, and EMP with S0 as its destination raises
ILLEGAL. The loads that R112 and R146 leave without a check of EMP trap at their access check, and are not meant. -/
def Obligations.ZeroRegistersAreConstant : Prop :=
  (∀ q : SeqSt, q.getS 0 = 0 ∧ q.fullS 0 = true ∧ q.getM 0 = BitVec.allOnes 64) ∧
  (∀ (q : SeqSt) (x : Word), q.put (.s 0) (.word x) = q) ∧
  (∀ (q : SeqSt) (en x : BitVec 64), q.put (.m 0) (.bits en x) = q) ∧
  (∀ (i : Instr) (s : State) (sh : Shape) (lat : Option Nat), shapeOf i s = some (sh, lat) → sh.dst = .s → sh.emp ≠ .any →
    s.core.q.ir.dst = 0 → s.core.q.ir.emp = 1 →
    ∃ d, exec i s = .next (s.takeTrap (trapOf ILLEGAL d) s.core.q.pc))

/-- R99: the lowest detail whose check fails is the detail of ILLEGAL, for every instruction. Which fields of the forms without operands
give detail 4, and where EMP is free, is read as log entries 32 to 34 say. -/
def Obligations.LowestFailingDetailTraps : Prop :=
  ∀ (i : Instr) (s : State) (sh : Shape) (lat : Option Nat) (d : Nat), shapeOf i s = some (sh, lat) →
    illegalDetail sh s.core.q.ir = some d →
    exec i s = .next (s.takeTrap (trapOf ILLEGAL d) s.core.q.pc)

/-- R67: mode 10 raises EMPTY_READ on an empty source, mode 01 holds issue until it is full, mode 11 raises ILLEGAL, and modes 00
neither hold nor trap, for every instruction; a read returns the register's old value whatever its full bit. -/
def Obligations.WaitModesAtIssue : Prop :=
  ∀ (i : Instr) (s : State) (sh : Shape) (lat : Option Nat), shapeOf i s = some (sh, lat) →
    let q := s.core.q
    let f := q.ir
    ((sh.sa ≠ .unused ∧ f.wa = 3) ∨ (sh.sb ≠ .unused ∧ f.wb = 3) ∨ (sh.sc ≠ .unused ∧ f.wc = 3) →
      ∃ d, exec i s = .next (s.takeTrap (trapOf ILLEGAL d) q.pc)) ∧
    (illegalDetail sh f = none → pdHeld q f s.cyc = false →
      (f.wa = 2 → sh.sa.full q f.sa = false → exec i s = .next (s.takeTrap (trapOf EMPTY_READ 1) q.pc)) ∧
      (f.wb = 2 → sh.sb.full q f.sb = false → f.wa ≠ 2 → exec i s = .next (s.takeTrap (trapOf EMPTY_READ 2) q.pc)) ∧
      (f.wc = 2 → sh.sc.full q f.sc = false → f.wa ≠ 2 → f.wb ≠ 2 →
        exec i s = .next (s.takeTrap (trapOf EMPTY_READ 3) q.pc)) ∧
      ((f.wa = 1 ∧ sh.sa.full q f.sa = false) ∨ (f.wb = 1 ∧ sh.sb.full q f.sb = false) ∨ (f.wc = 1 ∧ sh.sc.full q f.sc = false) →
        f.wa ≠ 2 → f.wb ≠ 2 → f.wc ≠ 2 → exec i s = .next (s.held true)) ∧
      (f.wa = 0 → f.wb = 0 → f.wc = 0 → emptyRead sh q f = none ∧ waitHeld sh q f = false)) ∧
    (∀ (a : BitVec 64) (b : BitVec 32) (n : Nat), { q with sFull := a, vFull := b }.getS n = q.getS n ∧ { q with sFull := a, vFull := b }.getV n = q.getV n)

/-- R64, R66, R402: an instruction held at issue leaves the state as it is, but for the counters that count cycs held by PD or a wait
mode; the next cyc tries it again. R84: an instruction without effect retires in its issue cyc and writes nothing: the instructions
without a hold of their own whose predicate is one bit. R60, R62, R64, R402: what retiring in sequential flow leaves: the PC at the next
start mark, issue from the next cyc on, one more entry of the dynamic order, one more instruction counted; registers, loops, memories
and devices as the effect left them. -/
def Obligations.HoldingAndRetiring : Prop :=
  (∀ (i : Instr) (s : State) (sh : Shape) (lat : Option Nat), shapeOf i s = some (sh, lat) →
    (gate sh lat s = .hold → exec i s = .next s) ∧
    (gate sh lat s = .wait → exec i s = .next { s with core := { s.core with dbg := s.core.dbg.count 3 1 } })) ∧
  (∀ (i : Instr) (s : State) (sh : Shape) (lat : Option Nat), plain i = true → shapeOf i s = some (sh, lat) →
    gate sh lat s = .pass → predOn s.core.q s.core.q.ir = false → Straight s →
    exec i s = .next (retired s s lat)) ∧
  (∀ (s t : State) (lat : Option Nat),
    let r := retired s t lat
    r.core.q.pc = t.core.q.line.nextPc s.core.q.pc ∧ r.core.q.nextIssue = s.cyc + 1 ∧
    r.core.q.hist = (lat.map (t.cyc + ·) :: t.core.q.hist).take 7 ∧
    r.core.q.s = t.core.q.s ∧ r.core.q.v = t.core.q.v ∧ r.core.q.m = t.core.q.m ∧ r.core.q.sFull = t.core.q.sFull ∧
    r.core.q.vFull = t.core.q.vFull ∧ r.core.q.lat = t.core.q.lat ∧ r.core.q.fills = t.core.q.fills ∧
    r.core.q.pad = t.core.q.pad ∧ r.core.q.loops = t.core.q.loops ∧ r.core.q.lfsr = t.core.q.lfsr ∧
    r.core.tile = t.core.tile ∧ r.core.trap = t.core.trap ∧ r.core.ph = t.core.ph ∧ r.core.cnt = t.core.cnt ∧
    r.core.status = t.core.status ∧ r.mem = t.mem ∧ r.pe = t.pe ∧ r.sched = t.sched ∧ r.peers = t.peers ∧ r.agenda = t.agenda ∧
    (∀ k, (vat r.core.dbg.pmc k) = if (vat s.core.dbg.pmsel k).toNat = 2 then vat t.core.dbg.pmc k + 1 else vat t.core.dbg.pmc k))

/-! Scalar instructions (06 R100 to R109, R122 to R124). -/

/-- R100: Fit wraps to the width of TYPE without SAT and clamps to its range with SAT; a value in the range is kept. R102, R105, R83:
sums, differences, products, minima and maxima of the operands read under TYPE, fitted to TYPE. R103: a divide truncates toward zero,
gives all ones and the dividend for a divisor of zero, never traps on its values, marks its destination empty and fills it 20 to 68 cyc
after issue. -/
def Obligations.ScalarArithmeticResult : Prop :=
  (∀ (t : BitVec 4) (v : Int), intTy t = true →
    let m := scalarFmt t
    (fit t false v).1 = extendTo64 m (v % (2 : Int) ^ m.width).toNat ∧ (fit t false v).2 = false ∧
    (m.range.1 ≤ v → v ≤ m.range.2 → fit t true v = fit t false v) ∧
    (v < m.range.1 → fit t true v = ((fit t false m.range.1).1, true)) ∧
    (m.range.2 < v → fit t true v = ((fit t false m.range.2).1, true))) ∧
  (∀ s : State,
    let f := s.core.q.ir
    let a := readInt f.ty (s.core.q.getS f.sa.toNat)
    let b := readInt f.ty (s.core.q.getS f.sb.toNat)
    (Ready (shIntArith f) (some 1) s →
      (∀ i ∈ [Instr.sadd, .saddShort], exec i s = .next (retired s (s.fitTo 1 (a + b)) (some 1))) ∧
      (∀ i ∈ [Instr.ssub, .ssubShort], exec i s = .next (retired s (s.fitTo 1 (a - b)) (some 1)))) ∧
    (Ready (shIntArith f) (some 3) s →
      ∀ i ∈ [Instr.smul, .smulShort], exec i s = .next (retired s (s.fitTo 3 (a * b)) (some 3))) ∧
    (Ready (shIntPlain f) (some 3) s →
      exec .smulh s = .next (retired s (s.fitTo 3 ((a * b) / (2 : Int) ^ (scalarFmt f.ty).width)) (some 3))) ∧
    (Ready (shIntPlain f) (some 1) s →
      (∀ i ∈ [Instr.smin, .sminShort], exec i s = .next (retired s (s.fitTo 1 (min a b)) (some 1))) ∧
      (∀ i ∈ [Instr.smax, .smaxShort], exec i s = .next (retired s (s.fitTo 1 (max a b)) (some 1)))) ∧
    (Ready (shSaddi f) (some 1) s →
      ∀ i ∈ [Instr.saddi, .saddiShort], exec i s = .next (retired s (s.fitTo 1 (a + f.imm.toInt)) (some 1)))) ∧
  (∀ s : State,
    let f := s.core.q.ir
    let a := readInt f.ty (s.core.q.getS f.sa.toNat)
    let b := readInt f.ty (s.core.q.getS f.sb.toNat)
    Ready (shIntLong f) none s →
    ∀ p ∈ [(Instr.sdiv, if b = 0 then -1 else a.tdiv b), (Instr.srem, if b = 0 then a else a - b * a.tdiv b)],
      ∃ (t : State) (d : Nat), exec p.1 s = .next (retired s t none) ∧ 20 ≤ d ∧ d ≤ 68 ∧
        (s.core.q.divDue ≤ s.cyc + 68 → s.core.q.divDue ≤ s.cyc + d) ∧
        t.core.q = { s.core.q.setFull (.s f.dst) false with
          divDue := s.cyc + d,
          fills := s.core.q.fills ++ [{ uid := s.uid, reg := .s f.dst, src := .value (.word (fit f.ty false p.2).1), due := s.cyc + d + 1,
                                        pc := s.core.q.pc }] } ∧
        t.agenda = s.agenda ++ [{ due := s.cyc + d + 1, op := .longLatencyFill, arg := { n0 := s.core.num, n1 := s.uid } }] ∧
        t.mem = s.mem)

/-- R104, R83: the instructions on all 64 bits, with a shift amount of bits 5:0. R109, R83: the mask instructions. -/
def Obligations.ScalarLogicResult : Prop :=
  (∀ s : State,
    let f := s.core.q.ir
    let a := s.core.q.getS f.sa.toNat
    let b := s.core.q.getS f.sb.toNat
    let k := f.imm.signExtend 64
    let out (x : Word) : State := retired s (s.writeS 1 f.dst x) (some 1)
    (Ready (shLogic f) (some 1) s →
      (∀ i ∈ [Instr.sand, .sandShort], exec i s = .next (out (a &&& b))) ∧
      (∀ i ∈ [Instr.sor, .sorShort], exec i s = .next (out (a ||| b))) ∧
      (∀ i ∈ [Instr.sxor, .sxorShort], exec i s = .next (out (a ^^^ b))) ∧
      (∀ i ∈ [Instr.sshl, .sshlShort], exec i s = .next (out (a <<< (b.toNat % 64)))) ∧
      (∀ i ∈ [Instr.sshr, .sshrShort], exec i s = .next (out (a >>> (b.toNat % 64)))) ∧
      (∀ i ∈ [Instr.ssra, .ssraShort], exec i s = .next (out (a.sshiftRight (b.toNat % 64))))) ∧
    (Ready (shUnary f) (some 1) s →
      (∃ n : Nat, exec .sclz s = .next (out (BitVec.ofNat 64 n)) ∧ n ≤ 64 ∧ (∀ j < n, a.getMsbD j = false) ∧ (n < 64 → a.getMsbD n = true)) ∧
      (∃ n : Nat, exec .sctz s = .next (out (BitVec.ofNat 64 n)) ∧ n ≤ 64 ∧ (∀ j < n, a.getLsbD j = false) ∧ (n < 64 → a.getLsbD n = true)) ∧
      exec .spopc s = .next (out (BitVec.ofNat 64 ((List.range 64).filter fun j => a.getLsbD j).length))) ∧
    (Ready (shLogicImm f) (some 1) s →
      exec .sandi s = .next (out (a &&& k)) ∧ exec .sori s = .next (out (a ||| k)) ∧ exec .sxori s = .next (out (a ^^^ k))) ∧
    (Ready (shShiftImm f) (some 1) s →
      (∀ i ∈ [Instr.sshli, .sshliShort], exec i s = .next (out (a <<< f.imm.toNat))) ∧
      (∀ i ∈ [Instr.sshri, .sshriShort], exec i s = .next (out (a >>> f.imm.toNat))) ∧
      exec .ssrai s = .next (out (a.sshiftRight f.imm.toNat)))) ∧
  (∀ s : State,
    let f := s.core.q.ir
    let a := s.core.q.getM f.sa.toNat
    let b := s.core.q.getM f.sb.toNat
    let n := min (s.core.q.getS f.sa.toNat).toNat 64
    let toM (x : BitVec 64) : State := retired s (s.writeM 1 f.dst (BitVec.allOnes 64) x) (some 1)
    let toS (x : Word) : State := retired s (s.writeS 1 f.dst x) (some 1)
    (Ready (shMask f) (some 1) s →
      (∀ i ∈ [Instr.mand, .mandShort], exec i s = .next (toM (a &&& b))) ∧
      (∀ i ∈ [Instr.mor, .morShort], exec i s = .next (toM (a ||| b))) ∧
      exec .mxor s = .next (toM (a ^^^ b)) ∧ exec .mandn s = .next (toM (a &&& ~~~ b))) ∧
    (Ready (shMfroms f) (some 1) s →
      exec .mfroms s = .next (toM (s.core.q.getS f.sa.toNat)) ∧ exec .mlane s = .next (toM (BitVec.ofNat 64 (2 ^ n - 1)))) ∧
    (Ready (shMtos f) (some 1) s →
      exec .mtos s = .next (toS a) ∧
      exec .mpopc s = .next (toS (BitVec.ofNat 64 ((List.range 64).filter fun j => a.getLsbD j).length))))

/-- R105, R106: constants built from immediates, and bit fields. -/
def Obligations.ImmediateAndBitFieldResult : Prop :=
  ∀ s : State,
    let f := s.core.q.ir
    let a := s.core.q.getS f.sa.toNat
    let b := s.core.q.getS f.sb.toNat
    let pos := f.imm.toNat % 64
    let len := f.imm.toNat / 64 % 64 + 1
    let out (x : Word) : State := retired s (s.writeS 1 f.dst x) (some 1)
    (Ready (shSli f) (some 1) s → ∀ i ∈ [Instr.sli, .sliShort], exec i s = .next (out (f.imm.signExtend 64))) ∧
    (Ready (shSlih f) (some 1) s →
      ∃ x : Word, exec .slih s = .next (out x) ∧ ∀ j < 64, x.getLsbD j = if 48 ≤ j then f.imm.getLsbD (j - 48) else a.getLsbD j) ∧
    (Ready (shLogicImm f) (some 1) s →
      ∃ x : Word, exec .slit s = .next (out x) ∧
        ∀ j < 64, x.getLsbD j = if 24 ≤ j ∧ j < 48 then f.imm.getLsbD (j - 24) else a.getLsbD j) ∧
    (Ready (shSbext f) (some 1) s →
      ∃ x : Word, exec .sbext s = .next (out x) ∧
        ∀ j < 64, x.getLsbD j = if j < len then a.getLsbD (pos + j) else f.imm.getLsbD 12 && a.getLsbD (pos + len - 1)) ∧
    (Ready (shSbins f) (some 1) s →
      ∃ x : Word, exec .sbins s = .next (out x) ∧
        ∀ j < 64, x.getLsbD j = if pos ≤ j ∧ j < pos + len then a.getLsbD (j - pos) else b.getLsbD j)

/-- R107, R83: the compares write 1 or 0 to a scalar register, all ones or zero to a mask register. R87, R107: the conditions on
integers, and with a NaN operand. R108: SSEL writes S(SB) when S(SA) is not zero, and S(SC) otherwise, with latency 1. -/
def Obligations.ScalarCompareResult : Prop :=
  (∀ s : State,
    let f := s.core.q.ir
    let a := readOp f.ty (s.core.q.getS f.sa.toNat)
    let b := readOp f.ty (s.core.q.getS f.sb.toNat)
    let k := readOp f.ty (f.imm.signExtend 64)
    (Ready (shScmp f) (some 1) s →
      ∀ i ∈ [Instr.scmp, .scmpShort], exec i s = .next (retired s (s.writeS 1 f.dst (if condHolds f.md a b then 1 else 0)) (some 1))) ∧
    (Ready (shScmpi f) (some 1) s →
      exec .scmpi s = .next (retired s (s.writeS 1 f.dst (if condHolds f.md a k then 1 else 0)) (some 1))) ∧
    (Ready (shScmpm f) (some 1) s →
      exec .scmpm s = .next (retired s (s.writeM 1 f.dst (BitVec.allOnes 64) (if condHolds f.md a b then BitVec.allOnes 64 else 0)) (some 1)))) ∧
  ((∀ x y : Int,
    condHolds 0 (.int x) (.int y) = decide (x = y) ∧ condHolds 1 (.int x) (.int y) = decide (x ≠ y) ∧
    condHolds 2 (.int x) (.int y) = decide (x < y) ∧ condHolds 3 (.int x) (.int y) = decide (x ≤ y) ∧
    condHolds 4 (.int x) (.int y) = decide (x > y) ∧ condHolds 5 (.int x) (.int y) = decide (x ≥ y)) ∧
  (∀ (c : BitVec 4) (v : FVal), c.toNat < 8 →
    condHolds c (.flt .nan) (.flt v) = decide (c = 1 ∨ c = 6) ∧ condHolds c (.flt v) (.flt .nan) = decide (c = 1 ∨ c = 6)) ∧
  (∀ (n m : Bool) (i j : Int), condHolds 0 (.flt (.fin n 0 i)) (.flt (.fin m 0 j)) = true)) ∧
  (∀ s : State,
    let f := s.core.q.ir
    opcodeOf .ssel = some 0x00F ∧ (Ready (shSsel f) (some 1) s →
    (s.core.q.getS f.sa.toNat ≠ 0 → exec .ssel s = .next (retired s (s.writeS 1 f.dst (s.core.q.getS f.sb.toNat)) (some 1))) ∧
    (s.core.q.getS f.sa.toNat = 0 → exec .ssel s = .next (retired s (s.writeS 1 f.dst (s.core.q.getS f.sc.toNat)) (some 1)))))

/-- R123: FEGET and FEGETV read the full bits; FEWAITS issues once every register it names is full, and holds before. -/
def Obligations.FullBitsAreReadAndAwaited : Prop :=
  ∀ s : State,
    let q := s.core.q
    let f := q.ir
    let named (n : Nat) : Prop := (n < 64 ∧ (q.getS f.sa.toNat).getLsbD n = true → q.fullS n = true) ∧
      (n < 32 ∧ (q.getS f.sb.toNat).getLsbD n = true → q.fullV n = true)
    (Ready (shFeget f) (some 1) s →
      (∃ x : Word, exec .feget s = .next (retired s (s.writeS 1 f.dst x) (some 1)) ∧ ∀ n < 64, x.getLsbD n = q.fullS n) ∧
      (∃ x : Word, exec .fegetv s = .next (retired s (s.writeS 1 f.dst x) (some 1)) ∧
        ∀ n < 64, x.getLsbD n = (decide (n < 32) && q.fullV n))) ∧
    (Ready (shFewaits f) none s → (∀ n, named n) → exec .fewaits s = .next (retired s s none)) ∧
    (gate (shFewaits f) none s = .pass → ¬ (∀ n, named n) → exec .fewaits s = .next s.heldOwn)

/-- R124: NOP has no effect, occupies one issue cyc and counts in dynamic order; a nonzero field but OPC, PRED and PNEG raises ILLEGAL
with detail 4. -/
def Obligations.NopOnlyOccupiesItsCyc : Prop :=
  ∀ s : State,
    let f := s.core.q.ir
    opcodeOf .nop = some 0x07F ∧ ∀ i ∈ [Instr.nop, .nopShort],
      (gate (shNop f) none s = .pass → Straight s → exec i s = .next (retired s s none) ∧ (retired s s none).core.q.nextIssue = s.cyc + 1 ∧
        (retired s s none).core.q.hist = (none :: s.core.q.hist).take 7) ∧
      (f ≠ { pred := f.pred, pneg := f.pneg } → exec i s = .next (s.takeTrap (trapOf ILLEGAL 4) s.core.q.pc))

/-- R45, R62, R63, R110 frame: a scalar, mask or query instruction that does not trap leaves every register but its destination, every
flag, loop, tile, trap and phase register, every memory and every device alone. The destination is written at once (latency 1), by a
pending write (latency 3) or by a fill (a divide). -/
def Obligations.ScalarFrame : Prop :=
  ∀ i ∈ scalarRows, ∀ (s t : State) (sh : Shape) (lat : Option Nat), shapeOf i s = some (sh, lat) →
    (∀ x, gate sh lat s ≠ .trap x) → Straight s → exec i s = .next t →
    Untouched s t ∧ t.core.ph = s.core.ph ∧
    (∀ n < 64, (sh.dst = .s → n ≠ s.core.q.ir.dst.toNat) → t.core.q.getS n = s.core.q.getS n ∧ t.core.q.fullS n = s.core.q.fullS n) ∧
    (∀ n < 8, (sh.dst = .m → n ≠ s.core.q.ir.dst.toNat) → t.core.q.getM n = s.core.q.getM n) ∧
    t.core.q.v = s.core.q.v ∧ t.core.q.vFull = s.core.q.vFull ∧ t.core.q.lfsr = s.core.q.lfsr ∧
    (∀ w ∈ t.core.q.lat, w ∈ s.core.q.lat ∨ sh.dst.reg s.core.q.ir.dst = some w.reg) ∧
    (∀ w ∈ t.core.q.fills, w ∈ s.core.q.fills ∨ sh.dst.reg s.core.q.ir.dst = some w.reg)

/-! Control flow and control registers (06 R114 to R122). -/

/-- R115, R116, R120, R83: a taken transfer goes to its target, delays the next instruction by 2 cyc and ends the loops it leaves; an
untaken one goes on in sequence; a call writes NextPC to its link register and leaves the loops alone. R61, R115, R120: a transfer to a
refused target, or to a register value beyond 51 bits, raises BAD_TARGET and has no effect; one whose target's line has to come from
another module waits for it; a call at the end of an active loop raises LOOP_STATE with detail 5. That a line of another module comes by
a READ, and what waits for it, are the model's reading (log entry 108). -/
def Obligations.TransferGoesToItsTarget : Prop :=
  (∀ s : State,
    let f := s.core.q.ir
    let pc := s.core.q.pc
    let rel := relTarget pc f
    let a := s.core.q.getS f.sa.toNat
    let reg : PC := a.setWidth 51
    let next := (s.core.q.line.nextPc pc).setWidth 64
    let left (target : PC) : State := transferred s (s.modQ fun q => q.leaveLoops pc target) none target
    let cond := condHolds f.md (readOp f.ty a) (readOp f.ty (s.core.q.getS f.sb.toNat))
    let condI := condHolds f.md (readOp f.ty a) (readOp f.ty ((f.sc ++ f.sb : BitVec 12).signExtend 64))
    (∀ (t : State) (lat : Option Nat) (target : PC), (transferred s t lat target).core.q.pc = target ∧
      (transferred s t lat target).core.q.nextIssue = s.cyc + 3 ∧
      (transferred s t lat target).core.q.hist = (lat.map (t.cyc + ·) :: t.core.q.hist).take 7) ∧
    (Issues (shBr f) none s → s.badTarget s.core rel false = false → s.lineAway s.core rel = none → exec .br s = .next (left rel)) ∧
    (Issues (shBrc f) none s → s.badTarget s.core rel false = false → s.lineAway s.core rel = none → cond = true → exec .brc s = .next (left rel)) ∧
    (Ready (shBrc f) none s → cond = false → exec .brc s = .next (retired s s none)) ∧
    (Issues (shBrci f) none s → s.badTarget s.core rel false = false → s.lineAway s.core rel = none → condI = true → exec .brci s = .next (left rel)) ∧
    (Ready (shBrci f) none s → condI = false → exec .brci s = .next (retired s s none)) ∧
    (Issues (shBri f) none s → a.toNat < 2 ^ 51 → s.badTarget s.core reg false = false → s.lineAway s.core reg = none →
      ∀ i ∈ [Instr.bri, .ret, .retShort], exec i s = .next (left reg)) ∧
    (Ready (shCall f) (some 1) s → s.badTarget s.core rel false = false → s.lineAway s.core rel = none →
      exec .call s = .next (transferred s (s.writeS 1 f.dst next) (some 1) rel)) ∧
    (Ready (shCalli f) (some 1) s → a.toNat < 2 ^ 51 → s.badTarget s.core reg false = false → s.lineAway s.core reg = none →
      exec .calli s = .next (transferred s (s.writeS 1 f.dst next) (some 1) reg))) ∧
  (∀ s : State,
    let f := s.core.q.ir
    let pc := s.core.q.pc
    let rel := relTarget pc f
    let a := s.core.q.getS f.sa.toNat
    let reg : PC := a.setWidth 51
    let bad : State := s.takeTrap (trapOf BAD_TARGET 0) pc
    let cond := condHolds f.md (readOp f.ty a) (readOp f.ty (s.core.q.getS f.sb.toNat))
    let condI := condHolds f.md (readOp f.ty a) (readOp f.ty ((f.sc ++ f.sb : BitVec 12).signExtend 64))
    (Issues (shBr f) none s → s.badTarget s.core rel false = true → exec .br s = .next bad) ∧
    (Issues (shBrc f) none s → cond = true → s.badTarget s.core rel false = true → exec .brc s = .next bad) ∧
    (Issues (shBrci f) none s → condI = true → s.badTarget s.core rel false = true → exec .brci s = .next bad) ∧
    (Issues (shBri f) none s → 2 ^ 51 ≤ a.toNat ∨ s.badTarget s.core reg false = true →
      ∀ i ∈ [Instr.bri, .ret, .retShort], exec i s = .next bad) ∧
    (Ready (shCall f) (some 1) s → s.badTarget s.core rel false = true → exec .call s = .next bad) ∧
    (Ready (shCalli f) (some 1) s → 2 ^ 51 ≤ a.toNat ∨ s.badTarget s.core reg false = true → exec .calli s = .next bad) ∧
    (∀ p : Place, s.badTarget s.core rel false = false → s.lineAway s.core rel = some p →
      let waits : State := (s.askLine rel p).heldOwn
      (Issues (shBr f) none s → exec .br s = .next waits) ∧ (Ready (shCall f) (some 1) s → exec .call s = .next waits) ∧
      (Issues (shBrc f) none s → cond = true → exec .brc s = .next waits) ∧
      (Issues (shBrci f) none s → condI = true → exec .brci s = .next waits)) ∧
    (∀ p : Place, a.toNat < 2 ^ 51 → s.badTarget s.core reg false = false → s.lineAway s.core reg = some p →
      let waits : State := (s.askLine reg p).heldOwn
      (Issues (shBri f) none s → ∀ i ∈ [Instr.bri, .ret, .retShort], exec i s = .next waits) ∧
      (Ready (shCalli f) (some 1) s → exec .calli s = .next waits)) ∧
    (∀ (n : Nat) (l : List Nat), s.core.q.endingAt pc = n :: l →
      (Issues (shCall f) (some 1) s → exec .call s = .next (s.takeTrap (trapOf LOOP_STATE 5 (BitVec.ofNat 64 n)) pc)) ∧
      (Issues (shCalli f) (some 1) s → exec .calli s = .next (s.takeTrap (trapOf LOOP_STATE 5 (BitVec.ofNat 64 n)) pc))))

/-- R117, R118, R54, R89: starting a loop: a trip count of zero goes on after the body at no delay and starts nothing; a positive one
sets the loop's registers, its stage masks and enters the body; an active identifier, a count beyond 32 bits and overlapping masks raise
LOOP_STATE. R119: the back-edge at the end of one active loop's body, shown with NOP: while iterations are left, flow returns to LPSTART
at no cost; after the last, the loop is inactive and flow goes on. A refused LPSTART raises BAD_TARGET (R61). Where the end line of an
empty loop cannot be read, flow enters it (log entry 39); one of another module is waited for (log entry 108). -/
def Obligations.LoopsStartRepeatAndEnd : Prop :=
  (∀ s : State,
    let q := s.core.q
    let f := q.ir
    let id := f.imm.toNat % 8
    let st := f.imm.toNat / 8 % 8 + 1
    let b := f.imm.toNat / 64 % 8
    let stop := pcAt (pcLine q.pc + BitVec.ofNat 44 (f.imm.toNat / 2 ^ 14)) (f.imm.toNat / 2 ^ 9 % 32)
    let overlaps : Prop := b ≠ 0 ∧ ∃ j < 8, (vat q.loops j).act = true ∧ (vat q.loops j).mb ≠ 0 ∧ (vat q.loops j).mb.toNat < b + st ∧
      b < (vat q.loops j).mb.toNat + (vat q.loops j).stg.toNat + 1
    let trap (d : Nat) : State := s.takeTrap (trapOf LOOP_STATE d (BitVec.ofNat 64 id)) q.pc
    ∀ p ∈ [(Instr.loop, shLoop f (pcSlot q.pc), (q.getS f.sa.toNat).toNat),
           (Instr.loopi, shLoopi f (pcSlot q.pc), f.sc.toNat * 64 + f.sb.toNat),
           (Instr.loops, shLoops f (pcSlot q.pc), (q.getS f.sa.toNat).toNat)],
      Ready p.2.1 none s →
      ((vat q.loops id).act = true → exec p.1 s = .next (trap 1)) ∧
      ((vat q.loops id).act = false → 2 ^ 32 ≤ p.2.2 + st - 1 → exec p.1 s = .next (trap 2)) ∧
      ((vat q.loops id).act = false → p.2.2 + st - 1 < 2 ^ 32 → overlaps → exec p.1 s = .next (trap 4)) ∧
      ((vat q.loops id).act = false → p.2.2 + st - 1 < 2 ^ 32 → ¬ overlaps → p.2.2 = 0 → s.endAway stop = none →
        ∃ t, exec p.1 s = .next t ∧ t.core.q.pc = s.afterEnd stop ∧ t.core.q.nextIssue = s.cyc + 1 ∧
          (∀ j < 8, (vat t.core.q.loops j).act = (vat q.loops j).act) ∧ t.core.q.m = q.m ∧ t.core.q.s = q.s ∧ t.mem = s.mem) ∧
      (∀ w : Place, (vat q.loops id).act = false → p.2.2 + st - 1 < 2 ^ 32 → ¬ overlaps → p.2.2 = 0 → s.endAway stop = some w →
        exec p.1 s = .next ((s.askLine stop w).heldOwn)) ∧
      ((vat q.loops id).act = false → p.2.2 + st - 1 < 2 ^ 32 → ¬ overlaps → 0 < p.2.2 →
        ∃ t, exec p.1 s = .next t ∧ t.core.q.pc = q.line.nextPc q.pc ∧ t.core.q.nextIssue = s.cyc + 1 ∧
          vat t.core.q.loops id =
            { start := q.line.nextPc q.pc, stop := stop, rem := BitVec.ofNat 32 (p.2.2 + st - 1), iter := 0, act := true,
              mb := BitVec.ofNat 3 b, stg := BitVec.ofNat 3 (st - 1), spv := 1, order := q.loopCount } ∧
          (∀ j < 8, j ≠ id → vat t.core.q.loops j = vat q.loops j) ∧
          (b ≠ 0 → ∀ k < st, t.core.q.getM (b + k) = if k = 0 then BitVec.allOnes 64 else 0) ∧
          (∀ n < 8, (b ≠ 0 → n < b ∨ b + st ≤ n) → t.core.q.getM n = q.getM n) ∧ t.core.q.s = q.s ∧ t.mem = s.mem)) ∧
  (∀ (s : State) (i : Nat),
    let q := s.core.q
    let l := vat q.loops i
    gate (shNop q.ir) none s = .pass → i < 8 → q.endingAt q.pc = [i] →
    (l.rem ≠ 1 → s.badTarget s.core l.start false = true → exec .nop s = .next (s.takeTrap (trapOf BAD_TARGET 0) q.pc)) ∧
    (∀ w : Place, l.rem ≠ 1 → s.badTarget s.core l.start false = false → s.lineAway s.core l.start = some w →
      exec .nop s = .next ((s.askLine l.start w).heldOwn)) ∧
    (l.rem ≠ 1 → s.badTarget s.core l.start false = false → s.lineAway s.core l.start = none →
      ∃ t, exec .nop s = .next t ∧ t.core.q.pc = l.start ∧ t.core.q.nextIssue = s.cyc + 1 ∧
        (vat t.core.q.loops i).iter = l.iter + 1 ∧ (vat t.core.q.loops i).rem = l.rem - 1 ∧ (vat t.core.q.loops i).act = l.act ∧
        (∀ j < 8, j ≠ i → vat t.core.q.loops j = vat q.loops j) ∧ t.core.q.s = q.s ∧ t.mem = s.mem) ∧
    (l.rem = 1 → ∃ t, exec .nop s = .next t ∧ t.core.q.pc = q.line.nextPc q.pc ∧ t.core.q.nextIssue = s.cyc + 1 ∧
        (vat t.core.q.loops i).iter = l.iter + 1 ∧ (vat t.core.q.loops i).rem = 0 ∧ (vat t.core.q.loops i).act = false ∧
        (vat t.core.q.loops i).spv = 0 ∧ (∀ j < 8, j ≠ i → vat t.core.q.loops j = vat q.loops j) ∧ t.core.q.s = q.s ∧ t.core.q.m = q.m))

/-- R122, R63: CSRRD returns the register as it stands at issue, with latency 2. R263: a read of TSHP.Tn waits until its new shape is
complete. R122: a write of a counter is later than the count of its own instruction. R122 and the rules of each register: a write of a
control register that its description accepts, and what it leaves; a value that the description refuses raises ILLEGAL with detail 4.
What POOLSZ and NESTMAX refuse is read as log entry 73 says. -/
def Obligations.ControlRegisterAccess : Prop :=
  (∀ (s : State) (x : Nat),
    let f := s.core.q.ir
    Ready (shCsrrd s f) (some 2) s → s.csr s.core.num (f.imm.toNat % 4096) = some x →
    (tshpReadHold s = none → exec .csrrd s = .next (retired s (s.writeS 2 f.dst (BitVec.ofNat 64 x)) (some 2))) ∧
    (f.imm.toNat % 4096 < 16 → s.cyc < (s.core.reg (f.imm.toNat % 4096)).ready → exec .csrrd s = .next s.heldOwn)) ∧
  (∀ s : State,
    let f := s.core.q.ir
    let n := f.imm.toNat % 4096
    let v := s.core.q.getS f.sa.toNat
    let x := v.toNat
    let out (c : CoreSt) : State := retired s { s with core := c } none
    Ready (shCsrwr s f) none s →
    (csrRefused n x = false →
      exec .csrwr s = .next (out (if csrRevocable n then s.core.csrPut n (s.core.beforeCount n v) else (s.core.csrPut n (s.core.beforeCount n v)).irrevocable))) ∧
    (0x2A0 ≤ n → n < 0x2A8 → ∃ t, exec .csrwr s = .next t ∧ vat t.core.dbg.pmc (n % 8) = v) ∧
    (csrRefused n x = true → exec .csrwr s = .next (s.takeTrap (trapOf ILLEGAL 4) s.core.q.pc)) ∧
    exec .csrwrLfsr s = .next (out { s.core with q := { s.core.q with lfsr := if v.setWidth 32 = 0#32 then 1 else v.setWidth 32 } }) ∧
    exec .xerrClear s = .next (out (if v.getLsbD 63 then
      { s.core.irrevocable with eng := { s.core.irrevocable.eng with xerr := vput s.core.irrevocable.eng.xerr (n - 0x090) 0 } }
      else s.core.irrevocable)) ∧
    ((∀ i ∈ [0, 4, 8, 12], x / 2 ^ i % 16 ≤ 8) →
      ∃ t, exec .csrwrTokcnt s = .next t ∧ t.core.eng.lm = x % 16 ∧ t.core.eng.ml = x / 2 ^ 4 % 16 ∧ t.core.eng.ms = x / 2 ^ 8 % 16 ∧
        t.core.eng.sm = x / 2 ^ 12 % 16 ∧ t.mem = s.mem) ∧
    ((∃ i ∈ [0, 4, 8, 12], 8 < x / 2 ^ i % 16) → exec .csrwrTokcnt s = .next (s.takeTrap (trapOf ILLEGAL 4) s.core.q.pc)) ∧
    (∃ t, exec .csrwrSpdbg s = .next t ∧ t.core.tile.spdbg = v.getLsbD 0 ∧ (v.getLsbD 0 = false → t.core.tile.pending = []) ∧
      (v.getLsbD 0 = true → t.core.tile.pending = s.core.tile.pending) ∧ t.mem = s.mem) ∧
    (trctlRefused n x = false → ∃ t, exec .csrwrTrace s = .next t ∧ t.core.dbg.trhead = 0 ∧
      (n = 0x280 → t.core.dbg.trbase = BitVec.ofNat 51 (x / 32 * 32) ∧ t.core.dbg.cls = s.core.dbg.cls) ∧
      (n = 0x281 → t.core.dbg.cls = BitVec.ofNat 16 (x / 2 ^ 16) ∧ t.core.dbg.stopfull = v.getLsbD 7 ∧
        t.core.dbg.log2n = BitVec.ofNat 5 x ∧ t.core.dbg.trbase = s.core.dbg.trbase)) ∧
    (tileCsrHold 0 s = none → shapeOk x = true → exec .csrwrTshp s = .next (retired s (s.configure (n % 16) x) none)) ∧
    (tileCsrHold 0 s = none → shapeOk x = false → exec .csrwrTshp s = .next (s.takeTrap (trapOf ILLEGAL 4) s.core.q.pc)) ∧
    (tileCsrHold 0x104 s = none → tlocRefused x = false →
      exec .csrwrTloc s = .next (out (s.core.moveTloc ((n - 0x104) % 16) x))) ∧
    (ttinvHold s = none → ∃ t, exec .ttinv s = .next t ∧
      t.core.tile.tensors = s.core.tile.tensors.filter fun p => p.1 != x % 1024) ∧
    (ttbaseHold s = none → ∃ t, exec .csrwrTtbase s = .next t ∧ t.core.tile.ttbase = BitVec.ofNat 51 (x / 2 ^ 17 * 2 ^ 17) ∧
      t.core.tile.tensors = [] ∧ t.core.tile.cache = []) ∧
    (txqHold s = none → s.txqRefused v = false → ∃ t, exec .csrwrTxqcfg s = .next t ∧ ∀ j < 64, t.core.eng.txqcfg.getLsbD j =
        (decide (j = 0 ∨ (8 ≤ j ∧ j < 28) ∨ (32 ≤ j ∧ j < 42)) && v.getLsbD j)) ∧
    (phctlHold s = none → ∃ t, exec .csrwrPhctl s = .next t ∧ t.core.ph.en = v.getLsbD 0 ∧ t.core.ph.retry = BitVec.ofNat 4 (x / 2 ^ 4) ∧
      (v.getLsbD 0 ≠ s.core.ph.en → t.core.ph.phase = s.core.ph.phase + 1)))

/-! Loads and stores (06 R110 to R113, 07 R144 to R147, 12 R201 to R208, 14 R248). -/

/-- R111, R145: the first access check that fails traps, and the access changes nothing else; for every load and store form. R111, R145:
what the access checks are, in their order: space, window register, bounds, address range, alignment. -/
def Obligations.AccessChecksTrapPrecisely : Prop :=
  (∀ (s : State) (t : TrapInfo),
    let f := s.core.q.ir
    (Issues (shSld f) (loadLat [2] 5 f) s → (scalarAccess false s).fails = some t →
      ∀ i ∈ [Instr.sld, .sldShort], exec i s = .next (s.takeTrap t s.core.q.pc)) ∧
    (Issues (shSst f) none s → (scalarAccess true s).fails = some t →
      ∀ i ∈ [Instr.sst, .sstShort], exec i s = .next (s.takeTrap t s.core.q.pc)) ∧
    (LaneReady (shVld f) (loadLat [2, 3] 6 f) s → s.enabled ≠ 0 → (vectorLoad false s).fails = some t →
      ∀ i ∈ [Instr.vld, .vldShort], exec i s = .next (s.takeTrap t s.core.q.pc)) ∧
    (LaneReady (shVld f) (loadLat [2, 3] 6 f) s → s.enabled ≠ 0 → (vectorLoad true s).fails = some t →
      exec .vlds s = .next (s.takeTrap t s.core.q.pc)) ∧
    (LaneReady (shVst f) none s → s.enabled ≠ 0 → (vectorStore false s).fails = some t →
      ∀ i ∈ [Instr.vst, .vstShort], exec i s = .next (s.takeTrap t s.core.q.pc)) ∧
    (LaneReady (shVst f) none s → s.enabled ≠ 0 → (vectorStore true s).fails = some t →
      exec .vsts s = .next (s.takeTrap t s.core.q.pc))) ∧
  (∀ k : AccessCheck, k.space < 8 → 0 < k.width →
    let size : Int := if k.space = 3 ∨ k.space = 5 then Config.sizeC else Config.sizeA
    let refused : Prop := if k.vec then k.space = 1 ∨ (k.space = 7 ∧ k.store = false) else k.space = 1 ∨ k.space = 3 ∨ k.space = 5
    let aux (c d : Nat) : TrapInfo := trapOf c d k.ea (BitVec.ofNat 64 k.space)
    (refused → k.fails = some (aux BUFFER_ACCESS 1)) ∧
    (¬ refused → k.space = 6 → k.store = false → k.fails = some (aux BUFFER_ACCESS 4)) ∧
    (¬ refused → k.space = 7 → k.store = true → k.fails = some (aux BUFFER_ACCESS 5)) ∧
    (k.fails = none → ¬ refused ∧ k.ea.toNat % k.width = 0 ∧ (k.space = 0 ∨ k.space = 7 → k.ea.toNat < 2 ^ 51) ∧
      (k.space = 4 ∨ k.space = 5 → k.sc.toNat < 128) ∧
      (1 ≤ k.space ∧ k.space ≤ 6 → 0 ≤ k.ea.toInt ∧ k.ea.toInt + k.extent ≤ size) ∧ (k.space = 7 → k.store = false)))

/-- R110 to R113, R83: SLD: from the own A-buffer the value of the w bytes at EA, 5 cyc after issue; from a window, main memory or the
Progress Engine window a fill, once the address translates. R110, R111, R113, R208, R83: SST: the w bytes of S(SA) at EA enter the own
A-buffer at the end of the second cyc after issue, or leave on the SEQ path for a window, a multicast or main memory. When a load is
performed, and when a multicast is compared, are the model's choices (log entries 13 and 29). R248: a read of the own buffer is performed
behind the older loads of its path. -/
def Obligations.ScalarLoadAndStoreResult : Prop :=
  (∀ s : State,
    let f := s.core.q.ir
    let k := scalarAccess false s
    let a := k.ea.toNat
    let w := k.width
    let l : LoadForm := { base := a, width := w, sx := isSigned f.ty }
    let own : Word :=
      let x := BitVec.ofNat (8 * w) (Mem.readLE s.core.tile.bufA a w)
      if isSigned f.ty then x.signExtend 64 else x.setWidth 64
    let dst : RegRef := .s f.dst
    let tr (d : Nat) : TrapInfo := trapOf PAGE_FAULT d k.ea (BitVec.ofNat 64 k.space)
    Ready (shSld f) (loadLat [2] 5 f) s → k.fails = none →
    ∀ i ∈ [Instr.sld, .sldShort],
      (k.space = 2 → s.core.isPending 1 a w = false → s.core.isPoisoned 1 a w = false →
        exec i s = .next (retired s ((s.readsFirst 0).writeS 5 f.dst own) (some 5))) ∧
      (k.space = 4 → exec i s = .next (retired s (s.issueLoad (some dst) l [] 4 (s.core.num / 128 * 128 + k.sc.toNat % 128) 0 14 40) none)) ∧
      (∀ ps, k.space = 0 ∨ k.space = 7 → s.xlat a w .read (decide (k.space = 7)) tr = .pieces ps →
        (k.space = 7 → s.overflowArea ps = false) →
        ((∀ p ∈ ps, p.node = s.fab.node.toNat) →
          exec i s = .next (retired s (s.issueLoad (some dst) l ps k.space 0 0 (if k.space = 7 then 1 else 96) 0) none)) ∧
        (¬ (∀ p ∈ ps, p.node = s.fab.node.toNat) → exec i s = .next (retired s (s.issueRemote (some dst) l ps 0) none)))) ∧
  (∀ s : State,
    let f := s.core.q.ir
    let k := scalarAccess true s
    let bs := spanAt k.ea.toNat (leBytes k.width s.srcA.toNat)
    let tr (d : Nat) : TrapInfo := trapOf PAGE_FAULT d k.ea (BitVec.ofNat 64 k.space)
    Ready (shSst f) none s → k.fails = none →
    ∀ i ∈ [Instr.sst, .sstShort],
      (k.space = 2 → exec i s = .next (retired s (s.padStore 1 bs false) none)) ∧
      (k.space = 4 → exec i s = .next (retired s
        (s.sendStore 0 (.window 1 (s.core.num / 128 * 128 + k.sc.toNat % 128) bs) 4 12) none)) ∧
      (k.space = 6 → s.core.isPending 1 k.sc.toNat 16 = false →
        (s.rivals = true → exec i s = .next s.multicastAsks.heldOwn) ∧
        (s.rivals = false → s.multicastLost = true → exec i s = .next (s.multicastHeld 0 (k.ea.toNat / 32)).heldOwn) ∧
        (s.rivals = false → s.multicastLost = false → s.youngWindow 0 = false → ∃ t, exec i s = .next t ∧
          t.mem.flying = s.mem.flying ++ [s.accessOf s.uid 0 (.multicast (s.core.multicastMask k.sc.toNat) bs)])) ∧
      (∀ ps, k.space = 0 → s.xlat k.ea.toNat k.width .write false tr = .pieces ps →
        exec i s = .next (retired s (s.sendPlain 0 ps bs) none)))

/-- R144 to R147, R83: VLD and VLDS: lane i of an enabled lane from EA + i·w (VLDS: from EA), 6 cyc after issue from an own buffer, by
a fill from elsewhere; with no lane enabled the load has no effect (R84). R144 to R147, R83: VST and VSTS: the bytes of each enabled
lane at EA + i·w, or those of the lowest enabled lane at EA. When a load is performed is the model's choice (log entry 13). -/
def Obligations.VectorLoadAndStoreResult : Prop :=
  (∀ (s : State) (one : Bool),
    let f := s.core.q.ir
    let u := s.noteReads (shVld f)
    let k := vectorLoad one s
    let a := k.ea.toNat
    let w := k.width
    let stride := if one then 0 else w
    let l : LoadForm := { base := a, width := w, sx := (match vecFmt f.ty with | .int _ => true | _ => false), vec := true,
                          en := s.enabled, stride := stride }
    let lane (m : Mem) (i : Nat) : Lane :=
      let x := BitVec.ofNat (8 * w) (Mem.readLE m (a + i * stride) w)
      match vecFmt f.ty with | .int _ => x.signExtend 32 | _ => x.setWidth 32
    let own (m : Mem) : LaneVec := tab 64 fun i => if s.enabled.getLsbD i then lane m i else 0
    let dst : RegRef := .v (f.dst.setWidth 5)
    let tr (d : Nat) : TrapInfo := trapOf PAGE_FAULT d k.ea (BitVec.ofNat 64 k.space)
    LaneReady (shVld f) (loadLat [2, 3] 6 f) s →
    ∀ i ∈ (if one then [Instr.vlds] else [.vld, .vldShort]),
      (s.enabled = 0 → exec i s = .next (retired s u (loadLat [2, 3] 6 f))) ∧
      (s.enabled ≠ 0 → k.fails = none →
        (k.space = 2 ∨ k.space = 3 → u.core.isPending (k.space - 1) a k.extent = false → u.core.isPoisoned (k.space - 1) a k.extent = false →
          exec i s = .next (retired s ((u.readsFirst 1).writeV 6 f.dst s.enabled (own (s.core.tile.buf (k.space - 1)))) (some 6))) ∧
        (k.space = 4 ∨ k.space = 5 →
          exec i s = .next (retired s (u.issueLoad (some dst) l [] k.space (s.core.num / 128 * 128 + k.sc.toNat % 128) 1 14 40) none)) ∧
        (∀ ps, k.space = 0 → u.xlat a k.extent .read false tr = .pieces ps → (∀ p ∈ ps, p.node = s.fab.node.toNat) →
          exec i s = .next (retired s (u.issueLoad (some dst) l ps 0 0 1 96 0) none)))) ∧
  (∀ (s : State) (one : Bool),
    let f := s.core.q.ir
    let u := s.noteReads (shVst f)
    let k := vectorStore one s
    let w := k.width
    let on := (List.range 64).filter fun i => s.enabled.getLsbD i
    let at' (i a : Nat) : List (Nat × Byte) := spanAt a (leBytes w (vat s.vecA i).toNat)
    let bs := if one then at' (on.headD 0) k.ea.toNat else on.flatMap fun i => at' i (k.ea.toNat + i * w)
    let tr (d : Nat) : TrapInfo := trapOf PAGE_FAULT d k.ea (BitVec.ofNat 64 k.space)
    LaneReady (shVst f) none s →
    ∀ i ∈ (if one then [Instr.vsts] else [.vst, .vstShort]),
      (s.enabled = 0 → exec i s = .next (retired s u none)) ∧
      (s.enabled ≠ 0 → k.fails = none →
        (k.space = 2 ∨ k.space = 3 → exec i s = .next (retired s (u.padStore (k.space - 1) bs true) none)) ∧
        (k.space = 4 ∨ k.space = 5 → exec i s = .next (retired s
          (u.sendStore 1 (.window (k.space - 3) (s.core.num / 128 * 128 + k.sc.toNat % 128) bs) 4 12) none)) ∧
        (∀ ps, k.space = 0 → u.xlat k.ea.toNat k.extent .write false tr = .pieces ps →
          exec i s = .next (retired s (u.sendPlain 1 ps bs) none))))

/-- R113, R147, R248, R383 frame: a store that does not trap changes no register and no byte of memory in its issue cyc; what it stores
is listed, either as bytes pending for an own buffer or as an access under way, and its bytes are those from the effective address up:
the width of the form for SST, w for each enabled lane of VST at EA + i·w, w for VSTS. A store to an own buffer that older window
accesses of its path name decides what an older load of them returns and leaves none of its bytes to an older window store (R203, R248,
log entry 114). -/
def Obligations.StoreFrame : Prop :=
  ∀ i ∈ [Instr.sst, .sstShort, .vst, .vstShort, .vsts], ∀ s t : State, Straight s → exec i s = .next t →
    (∀ x, t ≠ s.takeTrap x s.core.q.pc) →
    let k := storeAccess i s
    let inside (a : Nat) : Prop := k.ea.toNat ≤ a ∧ a < k.ea.toNat + k.extent
    t.core.q.s = s.core.q.s ∧ t.core.q.v = s.core.q.v ∧ t.core.q.m = s.core.q.m ∧ t.core.q.lat = s.core.q.lat ∧
    (k.space ≠ 2 → k.space ≠ 3 → t.core.q.fills = s.core.q.fills) ∧
    t.core.q.fills.map (fun x => (x.uid, x.reg, x.due)) = s.core.q.fills.map (fun x => (x.uid, x.reg, x.due)) ∧
    t.core.q.loops = s.core.q.loops ∧ t.core.q.lfsr = s.core.q.lfsr ∧ t.core.trap = s.core.trap ∧
    t.core.tile.t = s.core.tile.t ∧ t.core.tile.bufW = s.core.tile.bufW ∧ t.core.tile.bufA = s.core.tile.bufA ∧
    t.core.tile.bufC = s.core.tile.bufC ∧ (k.space ≤ 3 → t.peers = s.peers) ∧ t.mem.views = s.mem.views ∧
    (∀ d key n, t.readView d key n = s.readView d key n) ∧
    (∀ w ∈ t.core.q.pad, w ∈ s.core.q.pad ∨ (w.buf = k.space - 1 ∧ ∀ b ∈ w.bytes, inside b.1)) ∧
    (∀ x ∈ t.mem.flying, x ∈ s.mem.flying ∨
      (match x.what with
      | .plain _ bs => ∀ b ∈ bs, inside b.1
      | .window _ _ bs => ∀ b ∈ bs, inside b.1
      | .multicast _ bs => ∀ b ∈ bs, inside b.1
      | _ => False) ∨
      ((k.space = 2 ∨ k.space = 3) ∧ ∃ y ∈ s.mem.flying, y.uid = x.uid ∧
        (match x.what, y.what with
        | .window b c bs, .window b' c' bs' => b = b' ∧ c = c' ∧ ∀ p ∈ bs, p ∈ bs'
        | _, _ => False)))

/-! Vector instructions (07 R125 to R143). -/

/-- R26, R84, R127: lanes are computed in ascending order where they are enabled, each with the LFSR the one before left; a lane that
draws nothing depends on nothing else. R62, R84, R127: a write of enabled lanes to a vector register, or of enabled bits to a mask
register, leaves the other lanes and bits, and every other register, as they were. -/
def Obligations.WritesKeepDisabledLanes : Prop :=
  ((∀ (en : BitVec 64) (g : Nat → Lane) (d : Draw) (i : Nat), i < 64 →
    vat (eachLane en (fun i d => (g i, d)) d).1 i = (if en.getLsbD i then g i else 0) ∧ (eachLane en (fun i d => (g i, d)) d).2 = d) ∧
  (∀ (f : Nat → Draw → Lane × Draw) (d : Draw), eachLane 0 f d = (Vector.replicate 64 0, d)) ∧
  (∀ (f : Nat → Draw → Lane × Draw) (d : Draw), vat (eachLane 1 f d).1 0 = (f 0 d).1 ∧ (eachLane 1 f d).2 = (f 0 d).2) ∧
  (∀ (f : Nat → Draw → Lane × Draw) (d : Draw), vat (eachLane 3 f d).1 1 = (f 1 (f 0 d).2).1 ∧ (eachLane 3 f d).2 = (f 1 (f 0 d).2).2)) ∧
  (∀ (q : SeqSt) (n : BitVec 5) (k : BitVec 3) (en x : BitVec 64) (v : LaneVec),
    (∀ i < 64, vat ((q.put (.v n) (.lanes en v)).getV n.toNat) i = if en.getLsbD i then vat v i else vat (q.getV n.toNat) i) ∧
    (∀ j < 32, j ≠ n.toNat → (q.put (.v n) (.lanes en v)).getV j = q.getV j) ∧
    (k ≠ 0 → ∀ i < 64, ((q.put (.m k) (.bits en x)).getM k.toNat).getLsbD i =
      if en.getLsbD i then x.getLsbD i else (q.getM k.toNat).getLsbD i) ∧
    (∀ j < 8, j ≠ k.toNat → (q.put (.m k) (.bits en x)).getM j = q.getM j) ∧
    (q.put (.v n) (.lanes en v)).s = q.s ∧ (q.put (.m k) (.bits en x)).s = q.s)

/-- R128 to R130, R22, R83: vector arithmetic on exact values, each lane rounded or fitted once: latency 4 for floats, 2 for integers; a
product of floats 4. R129, R141: a vector product of integers and VLOG are long-latency: the destination is marked empty, and the
enabled lanes are filled 5 to 9, or 10 to 14, cyc after issue. R84: with no lane enabled they have no effect and mark nothing empty. -/
def Obligations.VectorArithmeticResult : Prop :=
  (∀ s : State,
    let f := s.core.q.ir
    let m := vecFmt f.ty
    let r := rndOf f.md
    let lat := arithLat f
    let a (i : Nat) : FVal := laneVal m (vat s.vecA i)
    let b (i : Nat) : FVal := laneVal m (vat s.vecB i)
    let c (i : Nat) : FVal := laneVal m (vat s.vecC i)
    let k : FVal := laneVal m s.scalarB
    let sum (x y : FVal) : FVal := Sem.add (r.mode == .rd) x y
    let diff (x y : FVal) : FVal := Sem.add (r.mode == .rd) x (Sem.neg y)
    let out (sh : Shape) (lat : Nat) (v : Nat → FVal) : State := laneResult s sh lat fun i d => laneFit m r (v i) d
    (LaneReady (shV2 f) (some lat) s →
      (∀ i ∈ [Instr.vadd, .vaddF32Short, .vaddI32Short], exec i s = .next (out (shV2 f) lat fun i => sum (a i) (b i))) ∧
      (∀ i ∈ [Instr.vsub, .vsubShort], exec i s = .next (out (shV2 f) lat fun i => diff (a i) (b i)))) ∧
    (LaneReady (shVadds f) (some lat) s → exec .vadds s = .next (out (shVadds f) lat fun i => sum (a i) k)) ∧
    (LaneReady (shVmul f) (some 4) s → iv f.ty = false →
      ∀ i ∈ [Instr.vmul, .vmulShort], exec i s = .next (out (shVmul f) 4 fun i => Sem.mul (a i) (b i))) ∧
    (LaneReady (shVmuls f) (some 4) s → iv f.ty = false → exec .vmuls s = .next (out (shVmuls f) 4 fun i => Sem.mul (a i) k)) ∧
    (LaneReady (shFma f) (some 4) s →
      exec .vfma s = .next (out (shFma f) 4 fun i => sum (Sem.mul (a i) (b i)) (c i)) ∧
      exec .vfms s = .next (out (shFma f) 4 fun i => diff (Sem.mul (a i) (b i)) (c i)) ∧
      exec .vfnma s = .next (out (shFma f) 4 fun i => diff (c i) (Sem.mul (a i) (b i)))) ∧
    (LaneReady (shMinMax f) (some lat) s →
      exec .vmin s = .next (out (shMinMax f) lat fun i => minV (a i) (b i)) ∧
      (∀ i ∈ [Instr.vmax, .vmaxShort], exec i s = .next (out (shMinMax f) lat fun i => maxV (a i) (b i)))) ∧
    (LaneReady (shSign f) (some lat) s →
      exec .vabs s = .next (laneResult s (shSign f) lat fun i d => laneFit m { sat := satOf f.md } (Sem.abs (a i)) d) ∧
      exec .vneg s = .next (laneResult s (shSign f) lat fun i d => laneFit m { sat := satOf f.md } (Sem.neg (a i)) d)) ∧
    (LaneReady (shVaddi f) (some 2) s →
      exec .vaddi s = .next (out (shVaddi f) 2 fun i => Sem.add false (a i) (.fin (decide (f.imm.toInt < 0)) f.imm.toInt.natAbs 0)))) ∧
  (∀ s : State,
    let f := s.core.q.ir
    let m := vecFmt f.ty
    let r := rndOf f.md
    let a (i : Nat) : FVal := laneVal m (vat s.vecA i)
    let filled (i : Instr) (sh : Shape) (lo hi : Nat) (v : LaneVec × Draw) : Prop :=
      (s.enabled = 0 → exec i s = .next (retired s (s.noteReads sh) none)) ∧
      (s.enabled ≠ 0 → ∃ (t : State) (d : Nat), exec i s = .next (retired s t none) ∧ lo ≤ d ∧ d ≤ hi ∧
        t.core.q.vFull = setBit s.core.q.vFull (f.dst.setWidth 5).toNat false ∧ t.core.q.lfsr = v.2.lfsr ∧ t.core.q.v = s.core.q.v ∧
        t.core.q.fills = s.core.q.fills ++ [{ uid := s.uid, reg := .v (f.dst.setWidth 5), due := s.cyc + d + 1, pc := s.core.q.pc,
                                              src := .value (.lanes s.enabled v.1) }])
    (LaneReady (shVmul f) none s → iv f.ty = true →
      ∀ i ∈ [Instr.vmul, .vmulShort],
        filled i (shVmul f) 5 9 (eachLane s.enabled (fun i d => laneFit m r (Sem.mul (a i) (laneVal m (vat s.vecB i))) d) s.core.draw)) ∧
    (LaneReady (shVmuls f) none s → iv f.ty = true →
      filled .vmuls (shVmuls f) 5 9 (eachLane s.enabled (fun i d => laneFit m r (Sem.mul (a i) (laneVal m s.scalarB)) d) s.core.draw)) ∧
    (LaneReady (shVlog f) none s →
      filled .vlog (shVlog f) 10 14 (eachLane s.enabled (funLane logFun false s) s.core.draw)))

/-- R128, R131, R132, R83: logic, shifts, moves, selects, broadcasts, inserts and indexes of lanes, and VEXT to a scalar register. R133,
R134, R127: VCMP and VCLASS write one bit a lane to the enabled bits of a mask register, with latency 2. -/
def Obligations.VectorMoveLogicAndCompare : Prop :=
  (∀ s : State,
    let f := s.core.q.ir
    let m := vecFmt f.ty
    let a (i : Nat) : Lane := vat s.vecA i
    let b (i : Nat) : Lane := vat s.vecB i
    let k : Lane := f.imm.signExtend 32
    let out (sh : Shape) (lat : Nat) (v : Nat → Lane) : State := laneResult s sh lat fun i d => (v i, d)
    (LaneReady (shVraw2 f) (some 2) s →
      exec .vand s = .next (out (shVraw2 f) 2 fun i => a i &&& b i) ∧ exec .vor s = .next (out (shVraw2 f) 2 fun i => a i ||| b i) ∧
      exec .vxor s = .next (out (shVraw2 f) 2 fun i => a i ^^^ b i) ∧
      exec .vshl s = .next (out (shVraw2 f) 2 fun i => a i <<< ((b i).toNat % 32)) ∧
      exec .vshr s = .next (out (shVraw2 f) 2 fun i => a i >>> ((b i).toNat % 32)) ∧
      exec .vsra s = .next (out (shVraw2 f) 2 fun i => (a i).sshiftRight ((b i).toNat % 32))) ∧
    (LaneReady (shVandi f) (some 2) s → exec .vandi s = .next (out (shVandi f) 2 fun i => a i &&& k)) ∧
    (LaneReady (shVshi f) (some 2) s →
      exec .vshli s = .next (out (shVshi f) 2 fun i => a i <<< (k.toNat % 32)) ∧
      exec .vshri s = .next (out (shVshi f) 2 fun i => a i >>> (k.toNat % 32)) ∧
      exec .vsrai s = .next (out (shVshi f) 2 fun i => (a i).sshiftRight (k.toNat % 32))) ∧
    (LaneReady (shVraw1 f) (some 2) s → ∀ i ∈ [Instr.vmov, .vmovShort], exec i s = .next (out (shVraw1 f) 2 a)) ∧
    (LaneReady (shVsel f) (some 2) s →
      exec .vsel s = .next (out (shVsel f) 2 fun i => if (s.core.q.getM f.sa.toNat).getLsbD i then b i else vat s.vecC i)) ∧
    (LaneReady (shVbcast f) (some 3) s → exec .vbcast s = .next (out (shVbcast f) 3 fun _ => s.srcA.setWidth 32)) ∧
    (LaneReady (shVins f) (some 3) s →
      exec .vins s = .next (out (shVins f) 3 fun i => if i = s.srcC.toNat % 64 then s.srcB.setWidth 32 else a i)) ∧
    (LaneReady (shVext f) (some 3) s → predOn s.core.q f = true →
      exec .vext s = .next (retired s ((s.noteReads (shVext f)).writeS 3 f.dst
        (match m with
        | .int n => ((BitVec.ofNat n (a (s.srcB.toNat % 64)).toNat).signExtend 32).signExtend 64
        | _ => BitVec.ofNat 64 ((a (s.srcB.toNat % 64)).toNat % 2 ^ m.width % 2 ^ 32))) (some 3))) ∧
    (LaneReady (shViota f) (some 2) s →
      exec .viota s = .next (laneResult s (shViota f) 2 fun i d =>
        let n : Int := intVal m (s.srcA.toNat % 2 ^ m.width) + i * intVal m (s.srcB.toNat % 2 ^ m.width)
        laneFit m (rndOf f.md) (.fin (decide (n < 0)) n.natAbs 0) d))) ∧
  (∀ s : State,
    let f := s.core.q.ir
    let m := vecFmt f.ty
    let a (i : Nat) : FVal := laneVal m (vat s.vecA i)
    let maskOf (i : Instr) (sh : Shape) (p : Nat → Bool) : Prop :=
      ∃ x : BitVec 64, exec i s = .next (retired s ((s.noteReads sh).writeM 2 f.dst s.enabled x) (some 2)) ∧
        ∀ j < 64, s.enabled.getLsbD j = true → x.getLsbD j = p j
    (LaneReady (shVcmp f) (some 2) s → maskOf .vcmp (shVcmp f) fun j => condFlt f.md (a j) (laneVal m (vat s.vecB j))) ∧
    (LaneReady (shVclass f) (some 2) s → maskOf .vclass (shVclass f) fun j => s.srcB.getLsbD (classOf m (a j))))

/-- R135, R141, R142: conversions and functions of one lane. R142: the special inputs of the functions. The pattern of the four
functions within their bound is a free value (log entry 9). -/
def Obligations.VectorConversionAndFunction : Prop :=
  (∀ s : State,
    let f := s.core.q.ir
    let m := vecFmt f.ty
    let src := (fmtOfCode (f.imm.toNat % 32)).getD .f32
    let a (i : Nat) : FVal := laneVal m (vat s.vecA i)
    let plainMd := decide (f.md = 0)
    (LaneReady (shVcvt f) (some 4) s → exec .vcvt s = .next (laneResult s (shVcvt f) 4 fun i d =>
      if src.isFloat && m.isInt then
        (laneExt m (floatToInt m (rmodeOf f.md) (laneVal src (vat s.vecA i)) d).1, (floatToInt m (rmodeOf f.md) (laneVal src (vat s.vecA i)) d).2)
      else laneFit m (rndOf f.md) (laneVal src (vat s.vecA i)) d)) ∧
    (LaneReady (shVfun f (satOnly f.md)) (some 8) s →
      exec .vexp s = .next (laneResult s (shVfun f (satOnly f.md)) 8 (funLane expFun true s)) ∧
      exec .vrcp s = .next (laneResult s (shVfun f (satOnly f.md)) 8 (funLane rcpFun true s))) ∧
    (LaneReady (shVfun f plainMd) (some 8) s →
      exec .vrsqrt s = .next (laneResult s (shVfun f plainMd) 8 (funLane rsqrtFun true s))) ∧
    (LaneReady (shVfun f (decide (f.md.toNat ≤ 4))) (some 4) s →
      exec .vrnd s = .next (laneResult s (shVfun f (decide (f.md.toNat ≤ 4))) 4 (rndLane s))) ∧
    (LaneReady (shVscl f) (some 4) s →
      exec .vscl s = .next (laneResult s (shVscl f) 4 fun i d => laneFit m (rndOf f.md) (Sem.scale (vat s.vecB i).toInt (a i)) d))) ∧
  (∀ (p : BitVec 32) (g : Bool) (m : Nat) (e : Int),
    expFun .nan p = .nan ∧ expFun (.inf true) p = .fin false 0 0 ∧ expFun (.inf false) p = .inf false ∧ expFun (.fin g 0 e) p = .fin false 1 0 ∧
    logFun .nan p = .nan ∧ logFun (.inf false) p = .inf false ∧ logFun (.inf true) p = .nan ∧ logFun (.fin g 0 e) p = .inf true ∧
    (0 < m → logFun (.fin true m e) p = .nan) ∧ logFun (.fin false 1 0) p = .fin false 0 0 ∧
    rcpFun .nan p = .nan ∧ rcpFun (.inf g) p = .fin g 0 0 ∧ rcpFun (.fin g 0 e) p = .inf g ∧
    rsqrtFun .nan p = .nan ∧ rsqrtFun (.inf false) p = .fin false 0 0 ∧ rsqrtFun (.inf true) p = .nan ∧ rsqrtFun (.fin g 0 e) p = .inf g ∧
    (0 < m → rsqrtFun (.fin true m e) p = .nan))

/-- R136 to R140, R143: the cross-lane instructions: encodes, decodes, permutes, packs, rotations and sorts write the enabled lanes;
reductions write a scalar register, 6 cyc after issue. -/
def Obligations.CrossLaneResult : Prop :=
  ∀ s : State,
    let f := s.core.q.ir
    let m := vecFmt f.ty
    let a := s.vecA
    let b := s.vecB
    let drawn (sh : Shape) (lat : Nat) (x : LaneVec × Draw) : State :=
      retired s (State.writeV { s.noteReads sh with core := (s.noteReads sh).core.drawn x.2 } lat f.dst s.enabled x.1) (some lat)
    let moved (sh : Shape) (v : LaneVec) : State := retired s ((s.noteReads sh).writeV 3 f.dst s.enabled v) (some 3)
    let reduced (sh : Shape) (v : FVal × Draw) : State :=
      let w := reduceResult m v.1 v.2
      retired s (State.writeS { s.noteReads sh with core := (s.noteReads sh).core.drawn w.2 } 6 f.dst w.1) (some 6)
    let taking (i : Nat) : Option FVal := if s.enabled.getLsbD i then some (laneVal m (vat a i)) else none
    let tree (comb : FVal → FVal → Draw → FVal × Draw) (none' : FVal) : FVal × Draw :=
      let r := reduceTree comb ((List.range 64).map taking) s.core.draw
      (r.1.getD none', r.2)
    (LaneReady (shE2 f) (some 4) s →
      exec .ve2enc s = .next (drawn (shE2 f) 4 (e2EncodeLanes s s.core.draw)) ∧ exec .ve2dec s = .next (drawn (shE2 f) 4 (e2DecodeLanes s s.core.draw))) ∧
    (LaneReady (shBn f) (some 4) s →
      exec .vbenc s = .next (drawn (shBn f) 4 (bEncodeLanes s s.core.draw)) ∧ exec .vbdec s = .next (drawn (shBn f) 4 (bDecodeLanes s s.core.draw))) ∧
    (LaneReady (shVsort f) (some 12) s → exec .vsort s = .next (drawn (shVsort f) 12 (sortLanes s s.core.draw))) ∧
    (LaneReady (shVraw2 f) (some 3) s → exec .vperm s = .next (moved (shVraw2 f) (tab 64 fun i => vat a ((vat b i).toNat % 64)))) ∧
    (LaneReady (shVperm2 f) (some 3) s → exec .vperm2 s = .next (moved (shVperm2 f) (tab 64 fun i =>
      let j := (vat s.vecC i).toNat % 128
      if j < 64 then vat a j else vat b (j - 64)))) ∧
    (LaneReady (shVpack f) (some 3) s → exec .vpack s = .next (moved (shVpack f) (packLanes s))) ∧
    (LaneReady (shVunpk f) (some 3) s → exec .vunpk s = .next (moved (shVunpk f) (unpackLanes s))) ∧
    (LaneReady (shVrot f) (some 3) s → exec .vrot s = .next (moved (shVrot f) (tab 64 fun i => vat a (i + f.imm.toNat % 64)))) ∧
    (LaneReady (shVradd f) (some 6) s → exec .vradd s = .next (reduced (shVradd f) (tree (sumComb m (rndOf f.md)) (.fin false 0 0)))) ∧
    (LaneReady (shVrmin f) (some 6) s →
      exec .vrmin s = .next (reduced (shVrmin f) (tree (fun x y d => (minV x y, d)) (largestOf m false))) ∧
      exec .vrmax s = .next (reduced (shVrmin f) (tree (fun x y d => (maxV x y, d)) (largestOf m true))))

/-- R84, R127, R178 frame: a vector instruction that neither traps nor goes to memory leaves every scalar register but VEXT's and the
reductions' destination, every vector register, tile, buffer, trap register, memory and device alone in its issue cyc; what it writes is
pending for its destination, under the enabled lanes. -/
def Obligations.VectorFrame : Prop :=
  ∀ i ∈ vectorRows, ∀ (s t : State) (sh : Shape) (lat : Option Nat), shapeOf i s = some (sh, lat) →
    (∀ x, gate sh lat s ≠ .trap x) → Straight s → exec i s = .next t →
    Untouched s t ∧ t.core.q.s = s.core.q.s ∧ t.core.q.v = s.core.q.v ∧ t.core.q.m = s.core.q.m ∧ t.core.q.sFull = s.core.q.sFull ∧
    (∀ n < 32, n ≠ (s.core.q.ir.dst.setWidth 5).toNat → t.core.q.fullV n = s.core.q.fullV n) ∧
    (∀ w ∈ s.core.q.lat, w ∈ t.core.q.lat) ∧
    (∀ w ∈ t.core.q.lat, w ∈ s.core.q.lat ∨ (sh.dst.reg s.core.q.ir.dst = some w.reg ∧ ∃ l, lat = some l ∧ w.due = s.cyc + l ∧
      (∀ en x, w.val = .lanes en x → en = s.enabled) ∧ (∀ en x, w.val = .bits en x → en = s.enabled))) ∧
    (∀ w ∈ t.core.q.fills, w ∈ s.core.q.fills ∨ (sh.dst.reg s.core.q.ir.dst = some w.reg ∧ ∀ en x, w.src = .value (.lanes en x) → en = s.enabled))

/-! Tiles (08, 09 R174 to R187). -/

/-- R178 to R180: TCFG, TZERO, TCONST, TRAMP, TREPEAT and TRELEASE set a register's shape or symbol, which is complete at the end of the
issue cyc, and leave every other tile register and the bytes of the buffers; setting a symbol of an unconfigured register raises
TILE_UNCONF. R52, R180: what a new shape leaves of a register that is not marked lazily: ZERO under a format, UNCONF under format 0.
R163, R164, R180: a constant is stored by its canonical pattern: a zero is ZERO, a NaN the format's NaN. When a lazy write-back happens,
and that TCFG and TRELEASE set DIRTY, are the model's readings (log entries 46 and 47). -/
def Obligations.TileShapesAndSymbols : Prop :=
  (∀ s : State,
    let f := s.core.q.ir
    let n := s.dN
    let r := s.reg n
    let m := r.format
    tileHold [] [n] false s = none →
    (Ready (shTcfg f) none s → exec .tcfg s = .next (retired s (s.configure n f.imm.toNat) none)) ∧
    (Ready (shTset f) none s → ∃ t, exec .trelease s = .next t ∧ (t.reg n).entry = { kind := .unconf, dirty := true } ∧ (t.reg n).fmt = 0 ∧
      (t.reg n).saved = false ∧ (t.reg n).lazyMark = false ∧ (∀ j < 16, j ≠ n → t.reg j = s.reg j) ∧ t.mem = s.mem) ∧
    (∀ p ∈ [(Instr.tzero, shTset f, ({ kind := .zero } : TileEntry)), (.tconst, shTconst f, constEntry m s.srcA.toNat),
            (.tramp, shTramp f, rampEntry r (f.imm.toNat % 4) (s.srcB.toNat % 2 ^ 32) (s.srcA.toNat % 2 ^ 32)),
            (.trepeat, shTrepeat f, repeatEntry (s.srcA.toNat % 2 ^ 51) (f.imm.toNat % 64) (f.imm.toNat / 64 % 64))],
      Ready p.2.1 none s →
      (r.blank = true → exec p.1 s = .next (s.takeTrap (trapOf TILE_UNCONF n) s.core.q.pc)) ∧
      (r.blank = false → ∃ t, exec p.1 s = .next t ∧
        t.reg n = { r with entry := { p.2.2 with dirty := true }, defined := true, ready := s.cyc + 1 } ∧
        (∀ j < 16, j ≠ n → t.reg j = s.reg j) ∧ t.core.tile.bufA = s.core.tile.bufA ∧ t.core.tile.bufC = s.core.tile.bufC ∧ t.mem = s.mem))) ∧
  (∀ (s : State) (n x : Nat), n < 16 → (s.reg n).lazyMark = false →
    let t := (s.configure n x).reg n
    t.fmt = BitVec.ofNat 5 (x / 2 ^ 16) ∧ t.cols = BitVec.ofNat 6 (x / 2 ^ 8) ∧ t.rows = BitVec.ofNat 6 x ∧
    t.entry = { kind := if x / 2 ^ 16 % 32 = 0 then .unconf else .zero, dirty := true } ∧ t.defined = true ∧ t.ready = s.cyc + 1 ∧
    t.space = (s.reg n).space ∧ t.offset = (s.reg n).offset ∧ (∀ j < 16, j ≠ n → (s.configure n x).reg j = s.reg j)) ∧
  (∀ (m : Fmt) (x : Nat), m.isBlock = false →
    let v := (elemOf m x).val
    (Sem.isZero v = true → constEntry m x = { kind := .zero }) ∧
    (Sem.isZero v = false → (constEntry m x).kind = .const ∧
      plField (constEntry m x) 0 64 = (if Sem.isNaN v then m.nanBits else (elemOf m x).pat) % 2 ^ 64 ∧
      (constEntry m x).hnan = Sem.isNaN v ∧ (constEntry m x).hinf = Sem.isInf v))

/-- R169, R170, R177, R184, R264: the two-source tile operations: their checks in order, and a result that is resolved symbolically
where R170 says so and computed element by element, row-major, elsewhere. R184: TYPE equals the format of every operand, so that a format
the instruction does not accept is refused before. R211: bytes whose write has not landed raise SPAD_EARLY. -/
def Obligations.TileArithmeticResult : Prop :=
  ∀ (s : State) (as bs : List Elem),
    let f := s.core.q.ir
    let n := s.dN
    let td := s.reg n
    let ta := s.reg s.aN
    let tb := s.reg s.bN
    let m := td.format
    let u := (s.useTiles [s.aN, s.bN]).spendTiles [s.aN, s.bN]
    let trap (x : TrapInfo) : State := s.takeTrap x s.core.q.pc
    let result (o : TileOp) : State :=
      match u.resolve2 o m (o.fn m (rndOf f.md)) ta tb u.core.draw with
      | some (e, d) => State.tileResult { u with core := u.core.drawn d } n { entry := e } true true
      | none =>
        let r := computeElems m (o.fn m (rndOf f.md)) as bs u.core.draw
        State.tileResult { u with core := u.core.drawn r.2 } n (classifyElems td r.1) false true
    tileHold [s.aN, s.bN] [n] true s = none →
    ∀ p ∈ [(Instr.tadd, TileOp.add, shTbin f), (.tsub, .sub, shTbin f), (.tmul, .mul, shTbin f), (.tmin, .min, shTmin f), (.tmax, .max, shTmin f)],
      Ready p.2.2 none s →
      (∀ x, s.unconf [n, s.aN, s.bN] = some x → exec p.1 s = .next (trap x)) ∧
      (s.unconf [n, s.aN, s.bN] = none →
        (tyDiffers f [td, ta, tb] = true → exec p.1 s = .next (trap (trapOf TILE_FORMAT 1))) ∧
        (tyDiffers f [td, ta, tb] = false → (sameShape td ta && sameShape td tb) = false → exec p.1 s = .next (trap (trapOf TILE_FORMAT 2))) ∧
        (tyDiffers f [td, ta, tb] = false → (sameShape td ta && sameShape td tb) = true →
          arithFmt m = true ∧
          (∀ x, s.tileEarly [s.aN, s.bN] = some x → exec p.1 s = .next (trap x)) ∧
          (s.tileEarly [s.aN, s.bN] = none → s.synth s.core ta = .ok as → s.synth s.core tb = .ok bs → PowerFree s →
            ∃ t, exec p.1 s = .next t ∧ t.core.tile = (result p.2.1).core.tile ∧ t.core.cnt = (result p.2.1).core.cnt ∧
              t.core.q.lfsr = (result p.2.1).core.q.lfsr ∧ t.core.q.pad = (result p.2.1).core.q.pad ∧ t.core.q.s = s.core.q.s ∧ t.mem = s.mem)))

/-- R169, R184: computing goes element by element; a sum, difference, product, minimum or maximum of exact values is rounded once. R170:
ZERO with ZERO resolves to ZERO under every operation; a product with ZERO resolves to ZERO when the other operand holds no NaN and no
infinity, and in the FAST mode whatever it holds; ZERO plus RAMP is the RAMP, and its NaN elements count as the computation would count
them; an operation on a REPEAT of a STORED or RAMP tile is computed. What becomes of a RAMP with an element of -0 is the model's reading
(log entry 115). -/
def Obligations.TileElementsAndSymbols : Prop :=
  ((∀ (m : Fmt) (g : FVal → FVal → Nat) (as bs : List Elem) (d : Draw),
    computeElems m (fun a b d => (g a b, d)) as bs d = ((as.zip bs).map fun p => elemOf m (g p.1.val p.2.val), d)) ∧
  (∀ (m : Fmt) (r : Rnd) (a b : FVal) (d : Draw),
    TileOp.fn .add m r a b d = fitTile m r (Sem.add (r.mode == .rd) a b) d ∧
    TileOp.fn .sub m r a b d = fitTile m r (Sem.add (r.mode == .rd) a (Sem.neg b)) d ∧ TileOp.fn .mul m r a b d = fitTile m r (Sem.mul a b) d ∧
    TileOp.fn .min m r a b d = fitTile m {} (minV a b) d ∧ TileOp.fn .max m r a b d = fitTile m {} (maxV a b) d)) ∧
  (∀ (s : State) (o : TileOp) (m : Fmt) (f : TileFun) (ta tb : TileReg) (d : Draw),
    let z (t : TileReg) : Prop := t.entry.kind = .zero ∧ t.entry.list = [] ∧ t.format.isBlock = false
    (z ta → z tb → s.resolve2 o m f ta tb d = some ({ kind := .zero }, d)) ∧
    (z ta → s.repComputed tb = false → s.clean tb = true → s.resolve2 .mul m f ta tb d = some ({ kind := .zero }, d)) ∧
    (z tb → s.repComputed ta = false → s.clean ta = true → s.resolve2 .mul m f ta tb d = some ({ kind := .zero }, d)) ∧
    (s.repComputed ta = true → (z tb → s.resolve2 o m f ta tb d = none) ∧ (tb.entry.kind = .stored → s.resolve2 o m f ta tb d = none)) ∧
    (z ta → tb.entry.kind = .stored → s.clean tb = false → s.core.tile.fast = true →
      s.resolve2 .mul m f ta tb d = some ({ kind := .zero }, { d with st := { d.st with skip := d.st.skip + 1 } })) ∧
    (z ta → tb.entry.kind = .ramp → s.resolve2 .add m f ta tb d = some (rampPlusZero tb d)) ∧
    ((rampPlusZero tb d).1.kind = tb.entry.kind ∧ (rampPlusZero tb d).1.payload = tb.entry.payload) ∧
    ((∀ x ∈ symbolElems tb.format tb.nrows tb.ncols tb.entry, Sem.isZero x.val = true → x.pat = 0) →
      rampPlusZero tb d = (tb.entry, d.nan (nansOf (symbolElems tb.format tb.nrows tb.ncols tb.entry)))) ∧
    (ta.entry.kind = .stored → tb.entry.kind = .stored → s.resolve2 o m f ta tb d = none))

/-- R135, R139, R177, R184: TSCALE, TCVT and TTRANS of a STORED tile compute every element; R29: an undecodable escape that becomes no
NaN counts one; TREDROW fills a vector register. -/
def Obligations.TileUnaryResult : Prop :=
  ∀ (s : State) (es : List Elem),
    let f := s.core.q.ir
    let n := s.dN
    let td := s.reg n
    let ta := s.reg s.aN
    let m := td.format
    let u := (s.useTiles [s.aN]).spendTiles [s.aN]
    let after (t : State) (v : List Elem × Draw) : Prop :=
      let r := State.tileResult { u with core := u.core.drawn v.2 } n (classifyElems td v.1) false true
      t.core.tile = r.core.tile ∧ t.core.cnt = r.core.cnt ∧ t.core.q.lfsr = r.core.q.lfsr ∧ t.core.q.pad = r.core.q.pad ∧
        t.core.q.s = s.core.q.s ∧ t.mem = s.mem
    ta.entry.kind = .stored → s.tileEarly [s.aN] = none → s.synth s.core ta = .ok es → PowerFree s →
    (s.unconf [n, s.aN] = none → tileHold [s.aN] [n] true s = none →
      (Ready (shTscale f) none s → tyDiffers f [td, ta] = false → sameShape td ta = true → (arithFmt m && m.isFloat) = true →
        ∃ t, exec .tscale s = .next t ∧
          after t (computeElems m (fun a _ d => fitTile m (rndOf f.md) (Sem.scale (s.srcB.setWidth 32).toInt a) d) es es u.core.draw)) ∧
      (Ready (shTcvt f) none s → sameShape td ta = true → (cvtTileFmt m && cvtTileFmt ta.format) = true → m.isBlock = false →
        let c := computeElems m (cvtFun ta.format m (rndOf f.md)) es es u.core.draw
        ∃ t, exec .tcvt s = .next t ∧ after t (c.1, c.2.nan (lostEscapes es c.1))) ∧
      (Ready (shTmov f) none s → td.fmt = ta.fmt → td.rows = ta.cols → td.cols = ta.rows → m.isBlock = false →
        let flip : List Elem := (positions td.nrows td.ncols).map fun p => es.toArray.getD (p.2 * ta.ncols + p.1) { pat := 0, val := .nan }
        ∃ t, exec .ttrans s = .next t ∧
          after t (flip, Draw.nan { lfsr := u.core.q.lfsr } (flip.filter fun e => Sem.isNaN e.val).length))) ∧
    (s.unconf [s.aN] = none → tileHold [s.aN] [] true s = none → Ready (shTredrow f) none s → tyDiffers f [ta] = false →
      arithFmt ta.format = true →
      ∃ t, exec .tredrow s = .next t ∧ t.core.tile = s.core.tile ∧ t.core.q.v = s.core.q.v ∧
        t.core.q.vFull = setBit s.core.q.vFull (f.dst.setWidth 5).toNat false ∧
        (∃ x ∈ t.core.q.fills, x.reg = .v (f.dst.setWidth 5) ∧ x.due = s.cyc + 9 + ta.cycs ∧ ∃ w, x.src = .value (.lanes (BitVec.allOnes 64) w)) ∧
        t.mem = s.mem)

/-- R183, R262: TRROW and TRCOL write the enabled lanes of a vector register with the elements of a row or column, 4 cyc after issue;
lanes beyond the tile receive zero. R183, R262: TWROW and TWCOL write the elements of the enabled lanes within the tile; a symbolic tile
is promoted first; the other registers stay. That a slice without an enabled lane has no effect is the model's reading (log entry 45). -/
def Obligations.SliceResult : Prop :=
  (∀ (s : State) (row : Bool) (es : List Elem),
    let f := s.core.q.ir
    let n := s.aN
    let r := s.reg n
    let i := s.srcB.toNat
    let ix := if row then Instr.trrow else .trcol
    LaneReady (shTrrow f) (some 4) s → tileHold [n] [] true s = none →
    (s.enabled = 0 → exec ix s = .next (retired s (s.noteReads (shTrrow f)) (some 4))) ∧
    (s.enabled ≠ 0 → r.blank = true → exec ix s = .next (s.takeTrap (trapOf TILE_UNCONF n) s.core.q.pc)) ∧
    (s.enabled ≠ 0 → r.blank = false → sliceFmt r.format = false → exec ix s = .next (s.takeTrap (trapOf TILE_FORMAT 3) s.core.q.pc)) ∧
    (s.enabled ≠ 0 → r.blank = false → sliceFmt r.format = true → (if row then r.nrows else r.ncols) ≤ i →
      exec ix s = .next (s.takeTrap (trapOf TILE_BOUND 0) s.core.q.pc)) ∧
    (∀ x, s.enabled ≠ 0 → r.blank = false → sliceFmt r.format = true → i < (if row then r.nrows else r.ncols) →
      s.sliceEarly row r i = some x → exec ix s = .next (s.takeTrap x s.core.q.pc)) ∧
    (s.enabled ≠ 0 → r.blank = false → sliceFmt r.format = true → i < (if row then r.nrows else r.ncols) → s.sliceEarly row r i = none →
      s.synth s.core r = .ok es → ∃ (t : State) (v : LaneVec), exec ix s = .next t ∧ t.core.q.lat = s.core.q.lat ++ [{ reg := .v (f.dst.setWidth 5), val := .lanes s.enabled v, due := s.cyc + 4 }] ∧
        (∀ k < 64, vat v k = if k < (if row then r.ncols else r.nrows) then
          laneExt r.format (es.toArray.getD (if row then i * r.ncols + k else k * r.ncols + i) { pat := 0, val := .nan }).pat else 0) ∧
        t.core.tile = (s.useTiles [n]).core.tile ∧ t.core.q.v = s.core.q.v ∧ t.core.q.s = s.core.q.s ∧ t.mem = s.mem)) ∧
  (∀ (s : State) (row : Bool) (es : List Elem),
    let f := s.core.q.ir
    let n := s.dN
    let r := s.reg n
    let i := s.srcB.toNat
    let ix := if row then Instr.twrow else .twcol
    let at' (k : Nat) : Nat := if row then i * r.ncols + k else k * r.ncols + i
    let w := r.format.width / 8
    LaneReady (shTwrow f) none s → tileHold [n] [n] true s = none →
    (s.enabled = 0 → exec ix s = .next (retired s (s.noteReads (shTwrow f)) none)) ∧
    (s.enabled ≠ 0 → r.blank = true → exec ix s = .next (s.takeTrap (trapOf TILE_UNCONF n) s.core.q.pc)) ∧
    (s.enabled ≠ 0 → r.blank = false → sliceFmt r.format = true → (if row then r.nrows else r.ncols) ≤ i →
      exec ix s = .next (s.takeTrap (trapOf TILE_BOUND 0) s.core.q.pc)) ∧
    (s.enabled ≠ 0 → r.blank = false → sliceFmt r.format = true → i < (if row then r.nrows else r.ncols) → s.synth s.core r = .ok es →
      ∃ (t : State) (p : PadWrite), exec ix s = .next t ∧ t.core.q.pad.getLast? = some p ∧ p.buf = r.buf ∧
        p.bytes = (((List.range 64).filter fun k => s.enabled.getLsbD k && decide (k < if row then r.ncols else r.nrows)).flatMap fun k =>
          spanAt (r.offset.toNat + w * at' k) (leBytes w (elemOf r.format (vat s.vecA k).toNat).pat)) ∧
        (t.reg n).entry.kind = .stored ∧ (t.reg n).entry.dirty = true ∧ (∀ j < 16, j ≠ n → t.reg j = s.reg j) ∧
        t.core.q.s = s.core.q.s ∧ t.core.q.v = s.core.q.v ∧ t.mem = s.mem))

/-- R168, R185 to R187: the modes, TSTAT, TMATL, TMOV, the spills and the exception pairs. DIRTY and the save slots are read as log
entries 46, 47 and 49 say; what a handle needs from another module is waited for, as log entry 109 says. -/
def Obligations.TileTableAndModeResult : Prop :=
  ∀ (s : State) (es : List Elem),
    let f := s.core.q.ir
    let n := s.dN
    let td := s.reg n
    let ta := s.reg s.aN
    let q := f.imm.toNat % 16
    let pos := (s.srcB.toNat / 64 % 64, s.srcB.toNat % 64)
    let wants := fun ok => s.handleWants s.core ok 1 (s.srcA.toNat % 2 ^ 51)
    (Ready (shTsymx f) none s → ∀ p ∈ [(Instr.tsymxStrict, false), (.tsymxFast, true)],
      ∃ t, exec p.1 s = .next t ∧ t.core.tile = { s.core.tile with fast := p.2 } ∧ t.mem = s.mem) ∧
    (Ready (shTstatR f) (some 2) s → tileHold [q] [] false s = none →
      exec .tstatRegister s = .next (retired s ((s.readTiles [q]).writeS 2 f.dst (statWord (s.reg q).entry)) (some 2))) ∧
    (∀ r, Ready (shTstatH f) none s → s.handleMiss (s.srcA.toNat % 2 ^ 51) = none → s.farHold wants = none → s.resolve s.core (s.srcA.toNat % 2 ^ 51) = .ok r →
      ∃ t, exec .tstatHandle s = .next t ∧ t.core.q.s = s.core.q.s ∧ (f.dst ≠ 0 → t.core.q.fullS f.dst.toNat = false) ∧
        t.core.q.fills.length = s.core.q.fills.length + 1 ∧ (∃ x ∈ t.core.q.fills, x.reg = .s f.dst) ∧ t.mem.views = s.mem.views) ∧
    (∀ d, Ready (shTstatH f) none s → s.handleMiss (s.srcA.toNat % 2 ^ 51) = none → s.farHold wants = none → s.resolve s.core (s.srcA.toNat % 2 ^ 51) = .error (.tile d) →
      exec .tstatHandle s = .next (s.takeTrap (trapOf TILE_HANDLE d s.srcA) s.core.q.pc)) ∧
    (∀ va, Ready (shTstatH f) none s → s.handleMiss (s.srcA.toNat % 2 ^ 51) = some va → exec .tstatHandle s = .next (s.startWalk va).heldOwn) ∧
    (∀ t, Ready (shTstatH f) none s → s.handleMiss (s.srcA.toNat % 2 ^ 51) = none → s.farHold wants = some t → exec .tstatHandle s = .next t.heldOwn) ∧
    (∀ d va, Ready (shTstatH f) none s → s.handleMiss (s.srcA.toNat % 2 ^ 51) = none → s.farHold wants = none → s.resolve s.core (s.srcA.toNat % 2 ^ 51) = .error (.page d va) →
      exec .tstatHandle s = .next (s.takeTrap (trapOf PAGE_FAULT d (BitVec.ofNat 64 va)) s.core.q.pc)) ∧
    (Ready (shTset f) none s → tileHold [n] [n] true s = none → td.blank = false →
      (td.entry.kind = .stored → exec .tmatl s = .next (retired s s none)) ∧
      (td.entry.kind ≠ .stored → s.synth s.core td = .ok es → PowerFree s →
        ∃ t, exec .tmatl s = .next t ∧ t.core.tile = (((s.useTiles [n]).spendTiles [n]).tileResult n (promoteOut td es) false true).core.tile ∧ t.mem = s.mem)) ∧
    (Ready (shTmov f) none s → tileHold [s.aN] [n] true s = none → s.unconf [n, s.aN] = none → td.fmt = ta.fmt → td.rows = ta.rows →
      td.cols = ta.cols → s.tileEarly [s.aN] = none → PowerFree s →
      ∃ t, exec .tmov s = .next t ∧ (t.reg n).entry = (if ta.entry.kind = .stored then
          { ta.entry with payload := plStored td.space.toNat td.offset.toNat, dirty := true } else { ta.entry with dirty := true }) ∧
        (∀ j < 16, j ≠ n → t.reg j = s.reg j) ∧ t.mem = s.mem) ∧
    (Ready (shTexcget f) (some 2) s → tileHold [s.aN] [] false s = none → ta.blank = false → pos.1 < ta.nrows → pos.2 < ta.ncols →
      s.pairEarly ta (pos.1 * ta.ncols + pos.2) = none → s.synth s.core ta = .ok es →
      let e := es.getD (pos.1 * ta.ncols + pos.2) { pat := 0, val := .nan }
      let c : State := if e.bad then { s with core := s.core.charge { nan := 1 } } else s
      exec .texcget s = .next (retired s (((c.useTiles [s.aN]).spend (c.pairSpoiled ta (pos.1 * ta.ncols + pos.2))).writeS 2 f.dst (BitVec.ofNat 64 e.pat)) (some 2))) ∧
    (Ready (shTexcset f) none s → tileHold [n] [n] true s = none → td.blank = false → listFmt td.format = true → pos.1 < td.nrows → pos.2 < td.ncols →
      s.synth s.core td = .ok es → PowerFree s →
      ∃ t, exec .texcset s = .next t ∧ (t.reg n).entry.dirty = true ∧ (∀ j < 16, j ≠ n → t.reg j = s.reg j) ∧ t.mem = s.mem ∧
        (td.entry.kind = .zero → td.entry.list = [] → Sem.isZero (elemOf td.format s.srcA.toNat).val = false →
          (t.reg n).entry.kind = .zero ∧ (t.reg n).entry.list = [{ row := pos.1, col := pos.2, value := BitVec.ofNat 32 (canonPat td.format s.srcA.toNat) }])) ∧
    (Ready (shTspill f) none s →
      (tileHold (spillMask f) [] false s = none →
        (∃ t, exec .tspillSave s = .next t ∧ (∀ j ∈ spillMask f, (t.reg j).saved = true ∧ (t.reg j).entry.dirty = false) ∧
          (∀ j < 16, j ∉ spillMask f → t.reg j = s.reg j) ∧ t.mem = ((s.readTiles (spillMask f)).saveRegs (spillMask f) false).mem ∧
          ((∀ j ∈ spillMask f, (s.reg j).entry.dirty = false) → t.mem = s.mem)) ∧
        (∃ t, exec .tspillLazy s = .next t ∧ (∀ j < 16, t.reg j = { s.reg j with lazyMark := (s.reg j).lazyMark || (spillMask f).contains j }) ∧
          t.mem = s.mem)) ∧
      (tileHold [] (spillMask f) false s = none →
        ∃ t, exec .tspillRestore s = .next t ∧ (∀ j ∈ spillMask f, (t.reg j).saved = false ∧ (t.reg j).lazyMark = false) ∧
          (∀ j < 16, j ∉ spillMask f → t.reg j = s.reg j) ∧ t.mem = s.mem))

/-! Engine commands (05 R89 to R92, 13 R220 to R244). -/

/-- R92: the fields of a command word stand where the spec puts them. R220, R221, R227: a command that is placed stands at the tail of
its queue in a free slot, takes the next identifier of its channel, marks its DST empty until it has passed its compare, which comes 4
to 12 cyc later, and changes no other state. Which free slot a command takes is the model's choice (log entry 51); the statement asks
only that it is free. -/
def Obligations.PlacedCommandEntersItsQueue : Prop :=
  (∀ (c : Cmd) (opc md ty tok ch spd sps loc aux far : Nat) (e fol : Bool),
    c.raw = cmdWord opc md ty tok ch e fol spd sps loc aux far → opc < 2 ^ 10 → md < 2 ^ 4 → ty < 2 ^ 4 → tok < 2 ^ 4 → ch < 2 ^ 2 → spd < 2 ^ 3 →
    sps < 2 ^ 3 → loc < 2 ^ 20 → aux < 2 ^ 12 → far < 2 ^ 51 →
    c.opc = opc ∧ c.md = md ∧ c.ty = ty ∧ (∀ b < 4, c.tok b = tok.testBit b) ∧ c.raw.toNat / 2 ^ 104 % 4 = ch ∧ c.posts = e ∧
    c.raw.getLsbD 102 = fol ∧ c.spd = spd ∧ c.sps = sps ∧ c.loc = loc ∧ c.aux = aux ∧ c.far = far) ∧
  (∀ (s : State) (k : Cmd) (dst : BitVec 6), k.chan < 8 → k.q ≤ 2 → (s.core.queue k.q k.ch).length < slotsOf k.q →
    let t := s.place k dst
    let e := s.core.eng
    ∃ c : Cmd, t.core.eng.cmds = e.cmds ++ [c] ∧ c.raw = k.raw ∧ c.q = k.q ∧ c.ch = k.ch ∧ c.b = k.b ∧ c.c = k.c ∧ c.pre = k.pre ∧ c.tile = k.tile ∧
      c.slot < slotsOf k.q ∧ (∀ x ∈ s.core.queue k.q k.ch, x.slot ≠ c.slot) ∧
      (k.q ≠ 1 → c.xid = vat e.xnext k.chan ∧ vat t.core.eng.xnext k.chan = c.xid + 1) ∧
      (∀ j < 8, k.q = 1 ∨ j ≠ k.chan → vat t.core.eng.xnext j = vat e.xnext j) ∧
      (dst = 0 → t.core.q = s.core.q) ∧
      (dst ≠ 0 → t.core.q.fullS dst.toNat = false ∧ (∀ n < 64, n ≠ dst.toNat → t.core.q.fullS n = s.core.q.fullS n) ∧
        ∃ x, t.core.q.fills = s.core.q.fills ++ [x] ∧ x.reg = .s dst ∧ c.fill = some x.uid) ∧
      (∃ v ∈ t.agenda, v.op = .tasterCompare ∧ v.arg.n1 = c.uid ∧ s.cyc + 4 ≤ v.due ∧ v.due ≤ s.cyc + 12) ∧
      t.core.q.s = s.core.q.s ∧ t.core.q.v = s.core.q.v ∧ t.core.q.m = s.core.q.m ∧ t.core.tile = s.core.tile ∧ t.core.trap = s.core.trap ∧
      t.core.eng.xdone = e.xdone ∧ t.core.eng.rsc = e.rsc ∧ t.core.eng.events = e.events ∧ t.mem = s.mem ∧ t.peers = s.peers)

/-- R89, R92, R181, R192, R220: the matrix and tile-transfer instructions hold on a full queue or a busy tile register, and place the
command that the spec gives them. -/
def Obligations.EngineInstructionsPlaceCommands : Prop :=
  ∀ s : State,
    let f := s.core.q.ir
    let a := s.srcA.toNat
    let b := s.srcB.toNat
    let low := f.imm.toNat % 16
    let rows := f.sc.toNat * 16 + low
    let pad (w : Word) : Bool := decide (786431 < w.toNat)
    let far20 (w : Word) : Bool := decide (2 ^ 20 - 1 < w.toNat)
    let count : Bool := decide (s.srcC.toNat < 1 ∨ 1024 < s.srcC.toNat)
    let det (x : Bool) (n : Nat) : Nat := if x then n else 0
    let mx (opc spd sps loc aux far tile pre : Nat) : Cmd := { s.cmd 1 0 opc spd sps loc aux far with pre := pre, tile := tile }
    let t20 := a % 2 ^ 20
    let tst (opc pre : Nat) : Cmd :=
      let r := s.reg s.aN
      { s.cmd 2 0 opc 0 r.space.toNat r.offset.toNat 0 (b % 2 ^ 51) with tile := s.aN, pre := pre }
    let tld (opc pre : Nat) : Cmd := { s.cmd 0 0 opc 2 0 (s.reg low).offset.toNat 0 (a % 2 ^ 51) with tile := low, pre := pre }
    let u := s.readTiles [s.aN]
    ∀ p ∈ ([(.mloadw, shMloadw f, none, s, mx 0x280 0 1 a 0 0 0 (det (pad s.srcA) 7), 0),
            (.mloadwh, shMloadwh f, none, s, mx 0x281 0 0 0 0 a 0 0, 0),
            (.mswap, engPlain 1 f, none, s, mx 0x282 0 0 0 0 0 0 0, 0),
            (.mstream, shMstream false f, none, s, mx 0x283 3 2 b rows t20 0 (det (pad s.srcB || far20 s.srcA) 7), 0),
            (.mstreamh, shMstream true f, none, s, mx 0x284 3 0 a rows b 0 (det (pad s.srcA) 7), 0),
            (.mmac, shMmac f, none, s, mx 0x285 3 0 a 0 b 0 (det (pad s.srcA) 7), 0),
            (.mmach, shMmach f, some (low, true), s, mx 0x286 3 0 0 0 b low 0, 0),
            (.mepi, shMepi f, some (low, true), s, mx 0x287 3 2 b 0 t20 low (det (pad s.srcB || far20 s.srcA) 7), 0),
            (.mdrain, shMdrain f, none, s, mx 0x288 0 0 0 0 0 0 0, f.dst),
            (.mzacc, shMzacc f, none, s, mx 0x289 3 0 a (s.srcC.toNat - 1) 0 0 (det (pad s.srcA || count) 7), 0),
            (.maccld, shMaccld f, none, s, mx 0x28A 3 2 b (s.srcC.toNat - 1) t20 0 (det (pad s.srcB || far20 s.srcA || count) 7), 0),
            (.maccst, shMaccst f, none, s, mx 0x28B 3 3 b (s.srcC.toNat - 1) t20 0 (det (pad s.srcB || far20 s.srcA || count) 7), 0),
            (.tld, shTld f, some (low, true), s, tld 0x208 0, f.dst),
            (.tlda, shTld f, some (low, true), s, tld 0x209 (det (decide (2 ^ 51 ≤ a)) 3), f.dst),
            (.tst, shTst f, some (s.aN, false), u, tst 0x20A 0, f.dst),
            (.tsta, shTst f, some (s.aN, false), u, tst 0x20B (det (decide (2 ^ 51 ≤ b)) 3), f.dst)] :
           List (Instr × Shape × Option (Nat × Bool) × State × Cmd × BitVec 6)),
      let k := p.2.2.2.2.1
      let busy : Bool := (match p.2.2.1 with | some (n, w) => s.core.tileBusy s.cyc n w | none => false)
      (gate p.2.1 none s = .pass → (s.core.queueFull k.q 0 || busy) = true → exec p.1 s = .next s.heldOwn) ∧
      (Ready p.2.1 none s → s.core.queueFull k.q 0 = false → busy = false →
        exec p.1 s = .next (retired s (p.2.2.2.1.place k p.2.2.2.2.2) none))

/-- R91, R92, R231, R235: CPY and CPYW place a command of the queue that their spaces name, with the addresses of SA and SB and the
length of SC; a value the command refuses is reported when the command is done. R148, R149: GATHER and GATHERB: with no lane enabled
nothing happens; an index at or beyond the bound of GATHERB raises GATHER_BOUND for the lowest such lane where MOD[3] asks for it and is
counted elsewhere; the command holds the indexes and the enabled lanes. That a gather without an enabled lane has no effect is the
model's reading (log entry 45). -/
def Obligations.CopyAndGatherPlaceCommands : Prop :=
  (∀ s : State,
    let f := s.core.q.ir
    let spd := f.ty.toNat % 8
    let sps := f.md.toNat % 8
    let q := if 1 ≤ spd ∧ spd ≤ 3 then 0 else 2
    let a := s.srcA.toNat
    let b := s.srcB.toNat
    let n := s.srcC.toNat
    let padAt (x : Nat) : Prop := 1 ≤ x ∧ x ≤ 3
    let refused : Prop := n % 256 ≠ 0 ∨ 2 ^ 20 ≤ n ∨ (padAt spd ∧ 786431 < a) ∨ (padAt sps ∧ 786431 < b)
    let beyond : Prop := (spd = 0 ∧ 2 ^ 51 ≤ a) ∨ (sps = 0 ∧ 2 ^ 51 ≤ b)
    Ready (shCpy s.core.q) none s → s.core.queueFull q (f.imm.toNat % 4) = false →
    ∀ p ∈ [(Instr.cpy, 0x2C0), (.cpyw, 0x2C1)],
      ∃ (t : State) (c : Cmd), exec p.1 s = .next t ∧ t.core.eng.cmds = s.core.eng.cmds ++ [c] ∧ c.opc = p.2 ∧ c.q = q ∧ c.ch = f.imm.toNat % 4 ∧
        c.spd = spd ∧ c.sps = sps ∧ c.posts = f.imm.getLsbD 3 ∧ c.raw.getLsbD 102 = f.md.getLsbD 3 ∧ c.aux = n / 256 % 2 ^ 12 ∧
        (spd = 0 ∨ spd = 7 → c.loc = b % 2 ^ 20 ∧ c.far = a % 2 ^ 51) ∧
        (padAt spd → sps = 0 → c.loc = a % 2 ^ 20 ∧ c.far = b % 2 ^ 51) ∧
        (padAt spd → sps ≠ 0 → c.loc = b % 2 ^ 20 ∧ c.far = a % 2 ^ 20) ∧
        (refused → c.pre = 7) ∧ (¬ refused → beyond → c.pre = 3) ∧ (¬ refused → ¬ beyond → c.pre = 0) ∧ t.mem = s.mem ∧ t.core.q.s = s.core.q.s) ∧
  (∀ (s : State) (bounded : Bool),
    let f := s.core.q.ir
    let sh := shGather bounded f
    let i := if bounded then Instr.gatherb else .gather
    let ix := s.vecC
    let bound := s.srcA.toNat / 2 ^ 32
    let out := (List.range 64).filter fun j => s.enabled.getLsbD j && decide (bounded = true ∧ bound ≤ (vat ix j).toNat)
    gate sh none s = .pass → Straight s → s.core.queueFull 0 (f.imm.toNat % 4) = false →
    (s.enabled = 0 → exec i s = .next (retired s (s.noteReads sh) none)) ∧
    (∀ j l, s.enabled ≠ 0 → f.md.getLsbD 3 = true → out = j :: l →
      exec i s = .next (s.takeTrap (trapOf GATHER_BOUND j ((vat ix j).setWidth 64) (BitVec.ofNat 64 bound)) s.core.q.pc)) ∧
    (s.enabled ≠ 0 → f.md.getLsbD 3 = false ∨ out = [] →
      ∃ (t : State) (c : Cmd), exec i s = .next t ∧ t.core.eng.cmds = s.core.eng.cmds ++ [c] ∧ c.idx = ix ∧ c.en = s.enabled ∧
        c.opc = (if bounded then 0x2C3 else 0x2C2) ∧ c.q = 0 ∧ c.ch = f.imm.toNat % 4 ∧ c.bound = (if bounded then bound else 0) ∧
        c.loc = s.srcA.toNat % 2 ^ 20 ∧ c.far = s.srcB.toNat % 2 ^ 51 ∧
        t.core.cnt.gboob = satAdd s.core.cnt.gboob out.length ∧ t.mem = s.mem ∧ t.core.q.v = s.core.q.v))

/-- R238, R239: CHLINK emits the 8 bytes of SB for the link of the entry at SA once its page translates; CHKICK starts a walker that
does not run and writes 0, or writes 1; CHSEQ reports error, state and sequence number; addresses are checked in order. -/
def Obligations.ChainInstructionResult : Prop :=
  ∀ s : State,
    let f := s.core.q.ir
    let w := f.md.toNat % 2
    let k := vat s.core.eng.walkers w
    let a := s.srcA
    let b := s.srcB
    let trap (c : Nat) (x : Word) : State := s.takeTrap (trapOf c 0 x) s.core.q.pc
    (Ready (shChlink f) none s →
      (2 ^ 51 ≤ a.toNat → exec .chlink s = .next (trap ADDR_RANGE a)) ∧
      (a.toNat < 2 ^ 51 → 2 ^ 51 ≤ b.toNat → exec .chlink s = .next (trap ADDR_RANGE b)) ∧
      (a.toNat < 2 ^ 51 → b.toNat < 2 ^ 51 → a.toNat % 32 ≠ 0 → exec .chlink s = .next (trap MISALIGNED a)) ∧
      (a.toNat < 2 ^ 51 → b.toNat < 2 ^ 51 → a.toNat % 32 = 0 → b.toNat % 32 ≠ 0 → exec .chlink s = .next (trap MISALIGNED b)) ∧
      (∀ p, a.toNat < 2 ^ 51 → b.toNat < 2 ^ 51 → a.toNat % 32 = 0 → b.toNat % 32 = 0 →
        s.xlat (a.toNat + 16) 8 .write false (fun d => trapOf PAGE_FAULT d a) = .pieces [p] →
        ∃ (t : State) (x : InFlight), exec .chlink s = .next t ∧ t.mem.flying = s.mem.flying ++ [x] ∧
          x.what = .plain (s.viewed s.core.num p) (spanAt (a.toNat + 16) (leBytes 8 b.toNat)) ∧ t.mem.views = s.mem.views ∧ t.core.q.s = s.core.q.s)) ∧
    (Ready (shChkick f) (some 2) s →
      (2 ^ 51 ≤ a.toNat → exec .chkick s = .next (trap ADDR_RANGE a)) ∧
      (a.toNat < 2 ^ 51 → a.toNat % 32 ≠ 0 → exec .chkick s = .next (trap MISALIGNED a)) ∧
      (a.toNat < 2 ^ 51 → a.toNat % 32 = 0 → k.st = .run → exec .chkick s = .next (retired s (s.writeS 2 f.dst 1) (some 2))) ∧
      (a.toNat < 2 ^ 51 → a.toNat % 32 = 0 → k.st ≠ .run → ∃ t, exec .chkick s = .next t ∧ (vat t.core.eng.walkers w).st = .run ∧
        (vat t.core.eng.walkers w).addr = a.toNat ∧ (vat t.core.eng.walkers w).cherr = false ∧ (vat t.core.eng.walkers w).seqNo = k.seqNo ∧
        t.core.q.lat = s.core.q.lat ++ [{ reg := .s f.dst, val := .word 0, due := s.cyc + 2 }] ∧ t.mem = s.mem)) ∧
    (Ready (shChseq f) (some 2) s → exec .chseq s = .next (retired s (s.writeS 2 f.dst (BitVec.ofNat 64
      ((if k.cherr then 2 ^ 63 else 0) + (match k.st with | .idle => 0 | .run => 1 | .park => 2) * 2 ^ 61 + k.seqNo.toNat))) (some 2)))

/-- R229, R241 to R244, R324: polls, depths, and waits on transfers and events. That EVPOP and TXQPOP pop at issue is the model's
reading (log entry 57). -/
def Obligations.TransferWaitResult : Prop :=
  ∀ s : State,
    let f := s.core.q.ir
    let e := s.core.eng
    let ch := f.imm.toNat % 8
    let t0 : BitVec 32 := s.srcA.setWidth 32
    let n := f.imm.toNat
    let depth := if n < 4 then (s.core.queue 0 n).length else if n = 4 then (s.core.queue 1 0).length else (s.core.queue 2 (n - 5)).length
    let fills (i : Instr) (lo hi : Nat) (src : FillSrc) : Prop :=
      ∃ (t : State) (x : Fill), exec i s = .next t ∧ t.core.q.fills = s.core.q.fills ++ [x] ∧ x.reg = .s f.dst ∧ x.src = src ∧
        s.cyc + lo ≤ x.due ∧ x.due ≤ s.cyc + hi ∧ (f.dst ≠ 0 → t.core.q.fullS f.dst.toNat = false) ∧ t.core.q.s = s.core.q.s ∧ t.mem = s.mem
    (Ready (shXpoll f) (some 2) s →
      exec .xpoll s = .next (retired s (s.writeS 2 f.dst (e.status ch (vat e.xdone ch - 1) false)) (some 2))) ∧
    (Ready (shQdepth f) (some 2) s → exec .qdepth s = .next (retired s (s.writeS 2 f.dst (BitVec.ofNat 64 depth)) (some 2))) ∧
    (Ready (shXwait f) none s →
      (e.waitsFor ch t0 = false → fills .xwait 2 2 (.xwait ch t0 (!passed t0 (vat e.xdone ch)))) ∧
      (e.waitsFor ch t0 = true → s.holdPassed = false → exec .xwait s = .next s.heldOwn)) ∧
    (Ready (shFill f) none s →
      fills .evpop 4 7 (.value (.word (e.events.headD 0))) ∧
      (∀ t, exec .evpop s = .next t → t.core.eng.events = e.events.drop 1) ∧
      (cfgOn e.txqcfg = false → fills .txqpop 5 13 (.value (.word 0))) ∧
      (let w := (State.popBatch { s with core := s.core.irrevocable }).1
       ∃ (t : State) (x : Fill), exec .txqpop s = .next t ∧ x ∈ t.core.q.fills ∧ x.reg = .s f.dst ∧ x.src = .value (.word w))) ∧
    (Ready (shWaitev f) none s → fills .waitev 1 1 (.waitev (s.cyc + 64 * f.imm.toNat)))

/-! Progress, fences, atomics and collectives (14 R250 to R253, 16 R281 to R290). -/

/-- R281, R282: a post of an accepted location and time sends its update to the home and holds; one without effect retires. R327:
PCINC, and not PCDEC, counts as having posted. R253, R260, R282: a release waits until what came before it has been performed at its
scope. What a release waits for is read as log entry 64 says. -/
def Obligations.PostsAndReleases : Prop :=
  (∀ (s : State) (g : GraphInst) (tp : Template) (j d : Nat),
    let f := s.core.q.ir
    let loc := s.srcA
    let time := s.srcB
    let n : Int := (f.imm.toNat % 65536 : Nat)
    s.core.q.verdict = none → Straight s →
    ∀ p ∈ [(Instr.pcinc, shPcinc f, n), (.pcdec, shPcdec f, -n)],
      gate p.2.1 none s = .pass → (p.1 = .pcdec → s.performed s.core.num (fun _ => true) (f.md.toNat % 8) = true) →
      (predOn s.core.q f = false → exec p.1 s = .next (retired s s none)) ∧
      (predOn s.core.q f = true → s.findLoc loc = .ok (g, tp, j, d) → badTime time d = false →
        ∃ (t : State) (u : Update), exec p.1 s = .next t ∧ t.pe.updates = s.pe.updates ++ [u] ∧ u.items = [(loc, time, p.2.2)] ∧ u.inst = g.inst ∧
          u.sender = s.die ∧ u.core = some s.core.num ∧ u.owner = some s.core.num ∧ t.core.q.verdict = some u.uid ∧ t.core.q.pc = s.core.q.pc ∧
          t.core.task.posted = (if p.1 = .pcinc then true else s.core.task.posted) ∧ t.core.q.s = s.core.q.s ∧ Departs s t .post ∧
          Awaits t .tasterCompare s.core.num u.uid (s.cyc + 4) (s.cyc + 12))) ∧
  (∀ s : State,
    let f := s.core.q.ir
    (gate (shPcdec f) none s = .pass → s.core.q.verdict = none → s.performed s.core.num (fun _ => true) (f.md.toNat % 8) = false →
      exec .pcdec s = .next s.heldOwn) ∧
    (∀ p ∈ [(Instr.fence, shFence f, fun x => f.imm.getLsbD x), (.pfence, shPfence f, fun x => x == f.imm.toNat % 8)],
      (gate p.2.1 none s = .pass → s.performed s.core.num p.2.2 (f.md.toNat % 8) = false → exec p.1 s = .next s.heldOwn) ∧
      (Ready p.2.1 none s → s.performed s.core.num p.2.2 (f.md.toNat % 8) = true → exec p.1 s = .next (retired s s none))))

/-- R282, R298, R305, R310: a held instruction goes on holding until its verdict has come; an accepting verdict lets it retire, and a
refusal makes it trap with its cause, the location and the time. How verdicts travel is the model's own (log entry 61). -/
def Obligations.VerdictEndsTheHold : Prop :=
  ∀ (s : State) (u : Nat) (m : VerdictMsg),
    let f := s.core.q.ir
    let taken : State := { s with pe := { s.pe with verdicts := s.pe.verdicts.filter fun x => x.uid != u } }
    let status (w : Word) (t : State) : Prop := ∃ x : Fill, t.core.q.fills = s.core.q.fills ++ [x] ∧ x.reg = .s f.dst ∧ x.src = .value (.word w) ∧
      s.cyc + 3 ≤ x.due ∧ x.due ≤ s.cyc + 7
    s.core.q.verdict = some u → Straight s →
    ∀ p ∈ [(Instr.pcinc, shPcinc f), (.pcdec, shPcdec f), (.tjoin, shTjoin f), (.tspawn, shTspawn f), (.tenq, shTenq f),
           (.collReduce, shColl 0 f), (.collAllreduce, shColl 1 f), (.collAllgather, shColl 2 f), (.collBcast, shColl 3 f)],
      gate p.2 none s = .pass →
      (s.verdictHere u = none → exec p.1 s = .next s.heldOwn) ∧
      (s.verdictHere u = some m →
        (∀ d, m.what = .loc d → exec p.1 s = .next (s.takeTrap (trapOf PROGRESS_LOC d m.loc m.time) s.core.q.pc)) ∧
        (∀ x, m.what = .regress x → exec p.1 s = .next (s.takeTrap (trapOf FRONTIER_REGRESSION 0 m.loc m.time x) s.core.q.pc)) ∧
        (∀ d, m.what = .full d → exec p.1 s = .next (s.takeTrap (trapOf PROGRESS_FULL d m.loc m.time) s.core.q.pc)) ∧
        (∀ d, m.what = .join d → exec p.1 s = .next (s.takeTrap (trapOf JOIN_UNDERFLOW d m.loc m.time) s.core.q.pc)) ∧
        (m.what = .ok → p.1 ∈ [Instr.pcinc, .pcdec, .tjoin] → exec p.1 s = .next (retired s taken none)) ∧
        (m.what = .ok → p.1 ∈ [Instr.tspawn, .tenq] → ∃ t, exec p.1 s = .next t ∧ status 0 t ∧ t.mem = s.mem ∧ t.core.q.s = s.core.q.s) ∧
        (∀ w, m.what = .status w → p.1 ∈ [Instr.tspawn, .tenq] → ∃ t, exec p.1 s = .next t ∧
          status (BitVec.ofNat 64 w.toNat) t ∧ t.mem = s.mem) ∧
        (m.what = .ok → p.1 ∈ [Instr.collReduce, .collAllreduce, .collAllgather, .collBcast] →
          ∃ (t : State) (x : Fill), exec p.1 s = .next t ∧ t.core.q.fills = s.core.q.fills ++ [x] ∧ x.reg = .s f.dst ∧ x.src = .value (.word 0) ∧
            (∃ e ∈ t.agenda, e.op = .collectiveDone ∧ e.arg.n0 = m.uid) ∧ (∀ k ∈ t.pe.colls, k.uid = m.uid → k.stage = 0) ∧ t.mem = s.mem))

/-- R283 to R285, R271: waits, polls, registrations and barriers fill their destination. The barrier of a thread without a gang is read
as log entry 68 says. -/
def Obligations.ProgressWaitResult : Prop :=
  ∀ s : State,
    let f := s.core.q.ir
    let loc := s.srcA
    let bar := f.imm.toNat % 4
    let filled (t : State) (v : FillSrc → Prop) (lo hi : Nat) : Prop := (f.dst ≠ 0 → t.core.q.fullS f.dst.toNat = false) ∧
      (∃ x ∈ t.core.q.fills, x.reg = .s f.dst ∧ v x.src ∧ s.cyc + lo ≤ x.due ∧ x.due ≤ s.cyc + hi) ∧ t.core.q.s = s.core.q.s ∧ t.mem = s.mem
    let word (w : Word) (x : FillSrc) : Prop := x = .value (.word w)
    (gate (shFwait f) none s = .pass → 16 ≤ s.core.q.pgWait → exec .fwait s = .next s.heldOwn) ∧
    (Ready (shFwait f) none s → s.core.q.pgWait < 16 →
      (∀ d, s.findLoc loc = .error d → ∃ t, exec .fwait s = .next t ∧ filled t (word 0xC000000000000000) 2 2) ∧
      (∀ g tp j d, s.findLoc loc = .ok (g, tp, j, d) → badTime s.srcB d = true →
        ∃ t, exec .fwait s = .next t ∧ filled t (word 0x9000000000000000) 2 2) ∧
      (∀ g tp j d, s.findLoc loc = .ok (g, tp, j, d) → badTime s.srcB d = false → ∃ t, exec .fwait s = .next t ∧
        (f.dst ≠ 0 → t.core.q.fullS f.dst.toNat = false) ∧ (∃ x ∈ t.core.q.fills, x.reg = .s f.dst) ∧ t.core.q.s = s.core.q.s ∧ t.mem = s.mem)) ∧
    (Ready (shFpoll f) none s →
      (∀ d, s.findLoc loc = .error d → ∃ t, exec .fpoll s = .next t ∧
        filled t (word (if f.md.getLsbD 0 then 0xC000000000000000 else 0xFFFFFF0000000000)) 21 61) ∧
      (∀ g tp j d, s.findLoc loc = .ok (g, tp, j, d) → ∃ t, exec .fpoll s = .next t ∧ (f.dst ≠ 0 → t.core.q.fullS f.dst.toNat = false) ∧
        (∃ x ∈ t.core.q.fills, x.reg = .s f.dst) ∧ t.core.q.s = s.core.q.s ∧ t.mem = s.mem)) ∧
    (Ready (shPsreg f) none s → ∃ t, exec .psreg s = .next t ∧ (f.dst ≠ 0 → t.core.q.fullS f.dst.toNat = false) ∧
      (∃ x ∈ t.core.q.fills, x.reg = .s f.dst ∧ x.src = .request 0 loc.toNat 0 ∧ s.cyc + 2001 ≤ x.due ∧ x.due ≤ s.cyc + 40001) ∧
      t.core.q.s = s.core.q.s ∧ Departs s t .post) ∧
    (Ready (shGbar f) none s →
      (s.gangOf s.core = none → s.performed s.core.num (fun _ => true) 1 = true →
        ∃ t, exec .gbar s = .next t ∧ filled t (word ((vat s.core.task.soloBar bar + 1).setWidth 64)) 2 2 ∧
          vat t.core.task.soloBar bar = vat s.core.task.soloBar bar + 1) ∧
      (∀ g, s.gangOf s.core = some g → (vat g.bars bar).passing.contains s.core.num = true → (vat g.bars bar).release ≤ s.cyc →
        ∃ t, exec .gbar s = .next t ∧
          filled t (word (BitVec.ofNat 64 ((if g.dead.isEmpty then 0 else 2 ^ 63) + (vat g.bars bar).gen.toNat))) 2 2) ∧
      (∀ g, s.gangOf s.core = some g → (vat g.bars bar).passing.contains s.core.num = true → s.cyc < (vat g.bars bar).release →
        s.holdPassed = false → exec .gbar s = .next s.heldOwn))

/-- R286, R287, R289: an atomic on this module leaves for its home with its operands, and a returning form marks its destination empty;
on another module the forms without a result of the operations ADD to MAX leave as a reduction, and every other traps; the checks come
before. An atomic executes where its address is aligned and below 2^51 and the L1 TLB has its page with the permissions. R289: RED sends
one update of 4 bytes for each of the 64 lanes of SA, lane i at the effective address plus 4·i; those of a page of another module travel
together. The permission an atomic needs is read as log entry 28 says. -/
def Obligations.AtomicsLeaveForTheirHome : Prop :=
  (∀ (s : State) (p : PagePiece) (ps : List PagePiece),
    let f := s.core.q.ir
    let w := if f.ty = 1 ∨ f.ty = 0xA ∨ f.ty = 0xE then 4 else 8
    let space := f.md.toNat % 8
    let ea := s.srcB + f.imm.signExtend 64
    let trap (c d : Nat) : State := s.takeTrap (trapOf c d ea (BitVec.ofNat 64 space)) s.core.q.pc
    let p' := s.atomicPiece p
    let sent (t : State) (what : StoreWhat) : Prop := ∃ x : InFlight, t.mem.flying = s.mem.flying ++ [x] ∧ x.what = what ∧ x.path = 6 ∧ x.core = s.core.num ∧
      t.mem.views = s.mem.views ∧ t.core.q.s = s.core.q.s
    ∀ i ∈ [(Instr.aadd, 0, false), (.aand, 1, false), (.aor, 2, false), (.axor, 3, false), (.amin, 4, false), (.amax, 5, false), (.axchg, 6, false),
           (.acas, 7, false), (.aaddNr, 0, true), (.aandNr, 1, true), (.aorNr, 2, true), (.axorNr, 3, true), (.aminNr, 4, true),
           (.amaxNr, 5, true), (.axchgNr, 6, true), (.acasNr, 7, true)],
      let cmp : Word := if i.2.1 = 7 then s.core.q.getS (f.sa.toNat + 1) else 0
      Ready (shAtomic i.2.1 i.2.2 f) none s →
      (2 ^ 51 ≤ ea.toNat → exec i.1 s = .next (trap ADDR_RANGE 0)) ∧
      (ea.toNat < 2 ^ 51 → ea.toNat % w ≠ 0 → exec i.1 s = .next (trap MISALIGNED 0)) ∧
      (s.atomicPlace ea w w space = .pieces (p :: ps) ∨ (ea.toNat % w = 0 ∧ Granted s ea.toNat w (decide (space = 7)) p) →
        (p.node = s.fab.node.toNat → i.2.2 = true →
          ∃ t, exec i.1 s = .next t ∧ sent t (.atomic p' i.2.1 f.ty s.srcA cmp none) ∧ t.core.q.fills = s.core.q.fills) ∧
        (p.node = s.fab.node.toNat → i.2.2 = false → ∃ (t : State) (x : Fill), exec i.1 s = .next t ∧ t.core.q.fills = s.core.q.fills ++ [x] ∧
          x.reg = .s f.dst ∧ (f.dst ≠ 0 → t.core.q.fullS f.dst.toNat = false) ∧ sent t (.atomic p' i.2.1 f.ty s.srcA cmp (some x.uid))) ∧
        (p.node ≠ s.fab.node.toNat → i.2.2 = true → i.2.1 < 6 →
          ∃ t, exec i.1 s = .next t ∧ sent t (.red p' i.2.1 f.ty (leBytes w s.srcA.toNat))) ∧
        (p.node ≠ s.fab.node.toNat → i.2.2 = false ∨ 6 ≤ i.2.1 → exec i.1 s = .next (trap REMOTE_ATOMIC 0)))) ∧
  (∀ (s : State) (p : PagePiece),
    let f := s.core.q.ir
    let op := f.md.toNat % 8
    let ea := s.srcB + f.imm.signExtend 64
    let v := s.core.q.getV f.sa.toNat
    let p' := s.atomicPiece p
    Ready (shRed f) none s →
    (s.atomicPlace ea 4 256 0 = .pieces [p] ∧ p.va = ea.toNat ∧ p.len = 256) ∨ (ea.toNat % 4 = 0 ∧ Granted s ea.toNat 256 false p) →
    ∃ t, exec .red s = .next t ∧ t.mem.views = s.mem.views ∧ t.core.q.s = s.core.q.s ∧ t.core.q.v = s.core.q.v ∧
      (p.node ≠ s.fab.node.toNat → ∃ x, t.mem.flying = s.mem.flying ++ [x] ∧
        x.what = .red p' op f.ty ((List.range 64).flatMap fun i => leBytes 4 (vat v i).toNat)) ∧
      (p.node = s.fab.node.toNat → t.mem.flying.map (·.what) = s.mem.flying.map (·.what) ++ (List.range 64).map fun i =>
        .atomic { p' with va := ea.toNat + 4 * i, len := 4, pa := p.pa + 4 * i } op f.ty ((vat v i).setWidth 64) 0 none))

/-! Traps, threads, phases and the other control instructions (17, 18, 24, 25, 26). -/

/-- R317, R325: taking a trap records cause, detail, PC and the time, sets THM, and goes to TVEC 3 cyc later; without a handler or
inside one the thread stops and its task is killed with code 1 or 2. Registers, tiles and memory stay as the writes under way leave
them. R319: what stands in TCAUSE. -/
def Obligations.TrapEntryRecordsAndRedirects : Prop :=
  (∀ (s : State) (x : TrapInfo) (pc : PC),
    let t := s.takeTrap x pc
    let r := t.core.trap
    r.tpc = pc ∧ r.tcause = tcauseWord x ∧ vat r.taux 0 = x.a0 ∧ vat r.taux 1 = x.a1 ∧ vat r.taux 2 = x.a2 ∧
    vat r.taux 3 = BitVec.ofNat 64 s.stamp ∧ (∀ i < 8, vat r.tstall i = x.stall.getD i 0) ∧ r.tvec = s.core.trap.tvec ∧
    (s.core.trap.thm = false → s.core.trap.tvec ≠ 0 →
      r.thm = true ∧ t.core.q.pc = s.core.trap.tvec ∧ t.core.q.entering = true ∧ t.core.q.nextIssue = s.cyc + 3 ∧ t.core.status = s.core.status ∧
      t.agenda = s.agenda) ∧
    (s.core.trap.thm = true → r.thm = true ∧ t.core.status = .stopped ∧
      ∃ e ∈ t.agenda, e.op = .taskKill ∧ e.arg.n0 = s.core.num ∧ e.arg.n1 = 2) ∧
    (s.core.trap.thm = false → s.core.trap.tvec = 0 → r.thm = false ∧ t.core.status = .stopped ∧
      ∃ e ∈ t.agenda, e.op = .taskKill ∧ e.arg.n0 = s.core.num ∧ e.arg.n1 = 1) ∧
    t.core.q.lat = [] ∧ t.core.q.hist = [] ∧ (s.core.q.lat = [] → t.core.q.s = s.core.q.s ∧ t.core.q.v = s.core.q.v ∧ t.core.q.m = s.core.q.m) ∧
    t.core.q.loops = s.core.q.loops ∧ t.core.q.fills = s.core.q.fills ∧ t.core.tile = s.core.tile ∧ t.core.eng = s.core.eng ∧ t.core.cnt = s.core.cnt ∧
    t.core.ph = s.core.ph ∧ t.mem = s.mem ∧ t.peers = s.peers ∧ t.cyc = s.cyc) ∧
  (∀ x : TrapInfo, x.cause < 2 ^ 8 → x.detail < 2 ^ 16 →
    (tcauseWord x).toNat % 2 ^ 8 = x.cause ∧ (tcauseWord x).toNat / 2 ^ 8 % 2 ^ 16 = x.detail ∧ (tcauseWord x).toNat / 2 ^ 24 % 2 ^ 8 = 0 ∧
    (tcauseWord x).getLsbD 32 = x.async ∧ (tcauseWord x).toNat / 2 ^ 33 = 0)

/-- R321, R325, R399: TRAP takes SWTRAP with its code; TRET leaves the handler for TPC, or for the instruction after it; BKPT asks for a
BREAK outside a handler. Where BKPT takes its BREAK, and TRET with SKIP at an unreadable line, are read as log entries 36 and 38 say; a
line of another module is waited for (log entry 108). -/
def Obligations.TrapInstructionResult : Prop :=
  ∀ s : State,
    let f := s.core.q.ir
    let tpc := s.core.trap.tpc
    let target := if f.md.getLsbD 0 then s.afterEnd tpc else tpc
    (Issues (shTrap f) none s → exec .trap s = .next (s.takeTrap (trapOf SWTRAP (f.imm.toNat % 2 ^ 16)) s.core.q.pc)) ∧
    (Issues (shTret f s.core.trap.thm) none s → (f.md.getLsbD 0 = true → s.endAway tpc = none) →
      s.badTarget s.core target true = false → s.lineAway s.core target = none →
      ∃ t, exec .tret s = .next t ∧ t.core.q.pc = target ∧ t.core.trap.thm = false ∧ t.core.q.nextIssue = s.cyc + 3 ∧
        t.core.q.loops = s.core.q.loops ∧ t.core.q.s = s.core.q.s ∧ t.core.trap.tpc = tpc ∧ t.core.trap.tcause = s.core.trap.tcause ∧ t.mem = s.mem) ∧
    (Issues (shTret f s.core.trap.thm) none s → (f.md.getLsbD 0 = true → s.endAway tpc = none) →
      s.badTarget s.core target true = true →
      exec .tret s = .next (s.takeTrap (trapOf BAD_TARGET 0) s.core.q.pc)) ∧
    (∀ p : Place, Issues (shTret f s.core.trap.thm) none s → f.md.getLsbD 0 = true → s.endAway tpc = some p →
      exec .tret s = .next ((s.askLine tpc p).heldOwn)) ∧
    (∀ p : Place, Issues (shTret f s.core.trap.thm) none s → (f.md.getLsbD 0 = true → s.endAway tpc = none) →
      s.badTarget s.core target true = false → s.lineAway s.core target = some p →
      exec .tret s = .next ((s.askLine target p).heldOwn)) ∧
    (s.core.trap.thm = false → ∃ d, d ≤ 4 ∧ exec .tret s = .next (s.takeTrap (trapOf ILLEGAL d) s.core.q.pc)) ∧
    (Ready (shTrap f) none s → s.core.trap.thm = true → exec .bkpt s = .next (retired s s none)) ∧
    (Ready (shTrap f) none s → s.core.trap.thm = false → s.core.dbg.brk = none → s.core.q.innermost s.core.q.pc = none →
      ∃ (t : State) (b : BreakSt), exec .bkpt s = .next t ∧ t.core.dbg.brk = some b ∧ b.source = 0 ∧ b.pc = s.core.q.pc ∧
        b.detail = some (f.imm.toNat % 2 ^ 16) ∧ b.ready = true ∧ t.core.q.pc = s.core.q.line.nextPc s.core.q.pc ∧ t.core.q.s = s.core.q.s ∧ t.mem = s.mem)

/-- R305, R309, R310, R330, R308: the instructions of tasks: YIELD goes on without a request and stops with one; TINFO reads the running
task; TEXIT ends the thread; TEXIT.DROP counts its member once; TSPAWN and TENQ refuse a malformed request with a status. A thread
without a task is read as log entries 3 and 67 say; a record on another module is waited for, as log entry 109 says. -/
def Obligations.TaskInstructionResult : Prop :=
  ∀ s : State,
    let f := s.core.q.ir
    let n := s.core.num
    let status (w : Word) (i : Instr) : Prop := ∃ (t : State) (x : Fill), exec i s = .next t ∧ t.core.q.fills = s.core.q.fills ++ [x] ∧ x.reg = .s f.dst ∧
      x.src = .value (.word w) ∧ s.cyc + 3 ≤ x.due ∧ x.due ≤ s.cyc + 7 ∧ t.mem = s.mem
    (gate (shYield f) none s = .pass → predOn s.core.q f = true → Straight s →
      ∀ i ∈ [Instr.yield, .yieldShort],
        (s.core.trap.yreq = false → exec i s = .next (retired s s none)) ∧
        (s.core.trap.yreq = true → ∃ t, exec i s = .next t ∧ t.core.status = .stopped ∧ t.core.trap.vdead = f.imm.getLsbD 0 ∧
          t.core.trap.yielded = bump32 s.core.trap.yielded ∧ t.core.q.s = s.core.q.s ∧ t.mem = s.mem)) ∧
    (Ready (shTinfo f) (some 2) s → exec .tinfo s = .next (retired s (s.writeS 2 f.dst (s.taskInfo (f.imm.toNat % 16))) (some 2))) ∧
    (Ready (shTexit f) none s → s.core.ph.en = false → ∃ t, exec .texit s = .next t ∧ t.core.status = .exiting ∧ t.core.q.fills = [] ∧
      t.core.trap.due = [] ∧ (∃ e ∈ t.agenda, e.op = .memberRelease ∧ e.arg.n0 = n) ∧ t.core.q.s = s.core.q.s ∧ t.mem = s.mem) ∧
    (Ready (shTexit f) none s →
      (s.gangOf s.core = none → exec .texitDrop s = .next (retired s s none)) ∧
      (∀ g, s.gangOf s.core = some g → s.memberDropped g n = true → exec .texitDrop s = .next (retired s s none)) ∧
      (∀ g, s.gangOf s.core = some g → s.memberDropped g n = false → s.performed n (fun _ => true) g.img.scope = true →
        ∃ t, exec .texitDrop s = .next t ∧ t.core.task.posted = true ∧ t.core.q.s = s.core.q.s ∧ Departs s t (.drop g.id))) ∧
    (Ready (shTspawn f) none s → s.core.q.verdict = none → s.performed n (fun _ => true) 3 = true →
      s.srcB.toNat < 1 ∨ 64 < s.srcB.toNat → (∀ g, s.gangOf s.core = some g → g.dropDone = false ∧ g.members.all (s.memberDropped g) = false) → status 0xFF03 .tspawn) ∧
    (Ready (shTenq f) none s → s.core.q.verdict = none → s.performed n (fun _ => true) 3 = true →
      ∀ ps, s.recordPlace s.srcA 1 = .pieces ps → s.farHold (fun ok => s.recordsWants ok s.srcA.toNat 1) = none →
        s.recordImage s.core s.core.task.tpl { (s.recordsAt s.core s.srcA.toNat 1).headD {} with depth := 0 } = none → status 3 .tenq)

/-- R398, R403, R404: trace marks and classes, captures and the clock lock. R385, R389: PHCOMMIT does nothing without EN; with it, it
holds until registers are full, the phase's commands are done and the Taster has passed, and then opens the next phase with a snapshot.
R410, R411: a coolant request goes on its way, marks its destination empty and is applied before its fill. The cyc of a commit, of a
coolant request and of a clock lock's answer are the model's choices (log entries 78, 80 and 84). -/
def Obligations.DebugPhaseAndCoolantResult : Prop :=
  (∀ s : State,
    let f := s.core.q.ir
    let d := s.core.dbg
    let k := f.imm.toNat % 4
    let c := vat d.caps k
    let cls (i : Instr) (v : BitVec 16) : Prop := ∃ t, exec i s = .next t ∧ t.core.dbg.cls = v ∧ t.core.q.s = s.core.q.s ∧ t.mem = s.mem
    (Ready (shTrmask f) none s →
      cls .trstart (d.cls ||| BitVec.ofNat 16 f.imm.toNat) ∧ cls .trstop (d.cls &&& ~~~ BitVec.ofNat 16 f.imm.toNat)) ∧
    (Ready (shTrmark f) none s →
      exec .trmark s = .next (s.retireSeq (s.trace s.core.num 1 (leBytes 8 (f.imm.toNat % 2 ^ 16) ++ leBytes 8 s.srcA.toNat)) none)) ∧
    (Ready (shTrmark f) none s → d.cls.getLsbD 1 = false → exec .trmark s = .next (retired s s none)) ∧
    (Ready (shCapstart f) none s → ∃ t, exec .capstart s = .next t ∧ (vat t.core.dbg.caps k).opened = true ∧ (vat t.core.dbg.caps k).start = s.stamp ∧
      (vat t.core.dbg.caps k).inCyc = 0 ∧ (∀ j < 4, j ≠ k → vat t.core.dbg.caps j = vat d.caps j) ∧ t.mem = s.mem) ∧
    (Ready (shCapstop f) (some 2) s → c.opened = false → exec .capstop s = .next (retired s (s.writeS 2 f.dst 0) (some 2))) ∧
    (Ready (shCapstop f) (some 2) s → c.opened = true → d.cls.getLsbD 5 = false → ∃ t, exec .capstop s = .next t ∧ (vat t.core.dbg.caps k) = {} ∧
      t.core.q.lat = s.core.q.lat ++ [{ reg := .s f.dst, val := .word (BitVec.ofNat 64 c.inCyc), due := s.cyc + 2 }] ∧ t.mem = s.mem) ∧
    (Ready (shClklock f) none s → ∃ (t : State) (x : Fill), exec .clklock s = .next t ∧ t.core.q.fills = s.core.q.fills ++ [x] ∧ x.reg = .s f.dst ∧
      x.src = .request 4 (f.imm.toNat % 8) 0 ∧ s.cyc + 2001 ≤ x.due ∧ x.due ≤ s.cyc + 20001 ∧ t.mem = s.mem) ∧
    (Ready (shClkfree f) none s → d.held = false → exec .clkfree s = .next (retired s s none)) ∧
    (Ready (shClkfree f) none s → d.held = true → d.cls.getLsbD 10 = false →
      ∃ t, exec .clkfree s = .next t ∧ t.core.dbg.held = false ∧ t.core.dbg.broken = false ∧ t.core.q.s = s.core.q.s ∧ t.mem = s.mem)) ∧
  (∀ s : State,
    let f := s.core.q.ir
    let p := s.core.ph
    gate (shPhcommit f) none s = .pass → Straight s →
    ∀ i ∈ [Instr.phcommit, .phcommitShort],
      (p.en = false → exec i s = .next (retired s s none)) ∧
      (p.en = true → commitHold s = none → predOn s.core.q f = true → ∃ t, exec i s = .next t ∧ t.core.ph.phase = p.phase + 1 ∧ t.core.ph.rolls = 0 ∧
        t.core.ph.live = false ∧ t.core.ph.irrev = false ∧ t.core.ph.snap = some s.snapshot ∧ t.core.ph.record = p.copies.take 16 ∧
        (∀ k ∈ t.core.eng.cmds, k.held = false) ∧ t.core.q.s = s.core.q.s ∧ t.mem = s.mem) ∧
      (p.en = true → s.commitReady = false → exec i s = .next s.heldOwn)) ∧
  (∀ s : State,
    let f := s.core.q.ir
    ∀ p ∈ [(Instr.coolreq, shCool f, 1, 300, 3000, s.srcB.toNat), (.coolrel, shCool f, 2, 300, 3000, s.srcB.toNat),
           (.coolstat, shCoolstat f, 3, 100, 1000, 0)],
      Ready p.2.1 none s →
      ∃ (t : State) (x : Fill), exec p.1 s = .next t ∧ t.core.q.fills = s.core.q.fills ++ [x] ∧ x.reg = .s f.dst ∧
        x.src = .request p.2.2.1 s.srcA.toNat p.2.2.2.2.2 ∧ s.cyc + p.2.2.2.1 + 1 ≤ x.due ∧ x.due ≤ s.cyc + p.2.2.2.2.1 + 1 ∧
        (f.dst ≠ 0 → t.core.q.fullS f.dst.toNat = false) ∧
        (∃ e ∈ t.agenda, e.op = .longLatencyFill ∧ e.arg.n1 = x.uid ∧ e.arg.n2 = 2 ∧ s.cyc < e.due ∧ e.due ≤ x.due) ∧ t.cool = s.cool ∧ t.mem = s.mem)

/-! Steps of devices. -/

/-- R167, R207, R208, R221, R255, R286, R288, R383: an access passes its compare or is discarded with an error; a write that reaches its
home changes the bytes it names in the view of the home die, a window store and a multicast those of the buffers they name; a die takes
another's write into its view in the order of the clocks; an atomic replaces its element at its home. Views and clocks are the model's
own form of the order of writes (log entry 21); the move of an atomic is read as log entries 27 and 119 say. -/
def Obligations.AccessStepsReachMemory : Prop :=
  (∀ (s : State) (f : InFlight), s.flight s.ev.n1 = some f →
    (s.ev.n2 = 0 → (s.coreAt f.core).task.thread = f.thread → ∃ t, exec .tasterCompare s = .next t ∧
      t.mem = { s.mem with flying := s.mem.flying.filter fun g => g.uid != f.uid } ∧ Awaits t .rollback f.core 1 s.cyc s.cyc) ∧
    (s.ev.n2 = 4 → exec .tasterCompare s = .next { s with mem := { s.mem with badLines := s.ev.n1 :: s.mem.badLines } }) ∧
    (∀ b c bs, s.ev.n2 = 1 → f.what = .window b c bs →
      (∀ g ∈ s.mem.flying, g.core = f.core → g.path = f.path → g.uid < f.uid → g.compared = true) →
      ∃ t, exec .tasterCompare s = .next t ∧ Awaits t .storeArriveHome f.uid 0 (s.cyc + 6) (s.cyc + 28) ∧
        t.mem = { s.mem with flying := s.mem.flying.map fun g => if g.uid = f.uid then { g with compared := true } else g })) ∧
  (∀ (s : State) (f : InFlight), s.flight s.ev.n0 = some f →
    ((s.before f).any s.tooYoung = true → exec .storeArriveHome s = .next (s.schedule 1 .storeArriveHome { n0 := s.ev.n0 })) ∧
    (∀ b bs, s.mustFollow f = false → f.what = .window b s.core.num bs → ∃ t, exec .storeArriveHome s = .next t ∧
      t.core.tile = (s.core.writeBuf b bs).tile ∧ t.core.q.s = s.core.q.s ∧ t.core.q.v = s.core.q.v ∧ t.mem.views = s.mem.views ∧
      ∀ x ∈ t.mem.flying, x.uid ≠ s.ev.n0) ∧
    (∀ p a l, s.mustFollow f = false → f.what = .plain p (spanAt a l) → f.cmd = none → pteTm p.pte = false → l ≠ [] →
      ∃ t, exec .storeArriveHome s = .next t ∧ OtherViews s t p.die ∧ t.core.q.s = s.core.q.s ∧ t.core.q.v = s.core.q.v ∧
        t.core.tile.t = s.core.tile.t ∧ t.core.tile.bufA = s.core.tile.bufA ∧ t.core.tile.bufW = s.core.tile.bufW ∧
        t.core.tile.bufC = s.core.tile.bufC ∧ (∀ x ∈ t.mem.flying, x.uid ≠ s.ev.n0) ∧
        vat t.mem.views p.die = Mem.writeAll (vat s.mem.views p.die) (spanAt (paKey p.die (p.pa + (a - p.va))) l)) ∧
    (∀ mask bs, s.mustFollow f = false → f.what = .multicast mask bs → ∃ t, exec .multicastLand s = .next t ∧ t.mem.views = s.mem.views ∧
      ∀ i < 128, let k := f.core / 128 * 128 + i
        (∀ w ∈ (s.coreAt k).q.pad, ¬ (w.due = s.cyc ∧ w.buf = 1)) →
        (t.coreAt k).tile.bufA = if mask.getLsbD i then Mem.writeAll (s.coreAt k).tile.bufA bs else (s.coreAt k).tile.bufA) ∧
    (∀ d pa e bs tid ix, f.what = .commit d pa e bs tid ix → ∃ t, exec .tileCommit s = .next t ∧ OtherViews s t d ∧
      (∀ x ∈ t.mem.flying, x.uid ≠ s.ev.n0) ∧
      vat t.mem.views d = Mem.writeAll (vat s.mem.views d) (bs ++ entrySpan { node := 0, die := d, pa := pa, pte := 0 } e)) ∧
    (∀ p op ty d e reg, f.what = .atomic p op ty d e reg →
      (s.mustFollow f = false → s.movedTo f p = none → s.badPiece p = false → pteTm p.pte = false →
        let o := s.readLE p.die (paKey p.die p.pa) (atomicBytes ty)
        ∃ t, exec .atomicApply s = .next t ∧ OtherViews s t p.die ∧ (∀ x ∈ t.mem.flying, x.uid ≠ s.ev.n0) ∧
          vat t.mem.views p.die = Mem.writeAll (vat s.mem.views p.die)
            (spanAt (paKey p.die p.pa) (leBytes (atomicBytes ty) (atomicNew op ty o d.toNat e.toNat)))) ∧
      (s.mustFollow f = true → exec .atomicApply s = .next (s.schedule 1 .atomicApply { n0 := s.ev.n0 })) ∧
      (∀ p', s.movedTo f p = some p' →
        (s.mustFollow f = false → ∃ (t : State) (h : Nat), exec .atomicApply s = .next t ∧ Awaits t .atomicMoved s.ev.n0 0 (s.cyc + 1) h ∧ t.mem = s.mem) ∧
        (p'.node = s.fab.node.toNat → ∃ (t : State) (h : Nat), exec .atomicMoved s = .next t ∧ Awaits t .atomicApply s.ev.n0 0 (s.cyc + 1) h ∧
          t.mem.views = s.mem.views ∧ ∀ x ∈ t.mem.flying, x.uid = s.ev.n0 → x.what = .atomic p' op ty d e reg) ∧
        (p'.node ≠ s.fab.node.toNat → reg = none → op < 6 → ∃ (t : State) (h : Nat), exec .atomicMoved s = .next t ∧
          Awaits t .tasterCompare f.core s.ev.n0 (s.cyc + 1) h ∧ t.mem.views = s.mem.views ∧
          ∀ x ∈ t.mem.flying, x.uid = s.ev.n0 → x.what = .red p' op ty (leBytes (atomicBytes ty) d.toNat)) ∧
        (p'.node ≠ s.fab.node.toNat → reg ≠ none ∨ 6 ≤ op → ∃ t, exec .atomicMoved s = .next t ∧ t.mem.views = s.mem.views ∧
          ∀ x ∈ t.mem.flying, x.uid ≠ s.ev.n0)))) ∧
  (∀ (s : State) (w : Emitted),
    let d := s.ev.n0 % 4
    let clock := vat s.mem.vc d
    s.mem.emitted.find? (fun x => x.uid == s.ev.n1) = some w → d ∈ w.todo → vat w.vc w.src = vat clock w.src + 1 →
    (∀ k < 4, k ≠ w.src → vat w.vc k ≤ vat clock k) →
    ∃ t, exec .dieViewApply s = .next t ∧ vat t.mem.views d = Mem.writeAll (vat s.mem.views d) w.bytes ∧ OtherViews s t d ∧
      vat (vat t.mem.vc d) w.src = vat w.vc w.src ∧ (∀ x ∈ t.mem.emitted, x.uid = s.ev.n1 → d ∉ x.todo)) ∧
  (∀ (t : BitVec 4) (o d e : Nat), t = 0xA ∨ t = 0xB ∨ t = 0xE ∨ t = 0xF →
    let w := if t = 0xA ∨ t = 0xE then 32 else 64
    let val (x : Nat) : Int := if t = 0xA ∨ t = 0xB then (BitVec.ofNat w x).toInt else ((x % 2 ^ w : Nat) : Int)
    atomicNew 0 t o d e = (o + d) % 2 ^ w ∧ atomicNew 1 t o d e = (o % 2 ^ w) &&& (d % 2 ^ w) ∧
    atomicNew 2 t o d e = (o % 2 ^ w) ||| (d % 2 ^ w) ∧ atomicNew 3 t o d e = (o % 2 ^ w) ^^^ (d % 2 ^ w) ∧
    atomicNew 4 t o d e = (if val o ≤ val d then o else d) % 2 ^ w ∧ atomicNew 5 t o d e = (if val o ≤ val d then d else o) % 2 ^ w ∧
    atomicNew 6 t o d e = d % 2 ^ w ∧ atomicNew 7 t o d e = (if o % 2 ^ w = d % 2 ^ w then e else o) % 2 ^ w)

/-- R48, R66, R216, R222, R224, R225, R237, R239: a fill writes its register and sets its full bit; a walk enters its page in the TLBs
or reports its failure; a watchdog's trap waits for the thread; a command pops its tokens and starts, or waits for them, and on its
completion leaves its channel, whose identifier counter moves; operands are fetched; a walker reads its entry and goes on from it. The
TLB's replacement and the time of an engine's effect are the model's choices (log entries 7 and 52). -/
def Obligations.FillsAndEnginesProgress : Prop :=
  ∀ s : State,
    let c := s.core
    let q := c.q
    let u := s.ev.n1
    s.ev.n0 = c.num →
    (∀ (f : Fill) (d : BitVec 6) (w : Word), s.ev.n2 = 0 → q.fillOf u = some f → f.src = .value (.word w) → f.bad = false →
      f.reg = .s d → s.loadHeld c.num u = false → ∃ t, exec .longLatencyFill s = .next t ∧ t.core.q.getS d.toNat = (if d = 0 then 0 else w) ∧ t.core.q.fullS d.toNat = true ∧
        (∀ n < 64, n ≠ d.toNat → t.core.q.getS n = q.getS n ∧ t.core.q.fullS n = q.fullS n) ∧ t.core.q.v = q.v ∧ t.core.q.m = q.m ∧
        t.core.q.fills = q.fills.filter (fun x => x.uid != u) ∧ t.mem = s.mem ∧ t.peers = s.peers ∧ t.agenda = s.agenda) ∧
    (let d := dieOf c.num
     let asn := s.ev.w.toNat
     let waits (x : CoreSt) : Bool := dieOf x.num == d && x.task.asn.toNat == asn && (x.task.walking.contains (u / 32768) || x.eng.walking.contains (u / 32768))
     let found := (vat s.mem.dieTlb d).find? (tlbHit asn u)
     (s.cores.find? waits = none → exec .tlbWalkComplete s = .next s) ∧
     (∀ w, s.cores.find? waits = some w →
       let walked := s.walkBy d asn w.task.rootDie.toNat w.task.rootPfn.toNat u
       ∃ t, exec .tlbWalkComplete s = .next t ∧ t.mem.views = s.mem.views ∧ t.core.q = q ∧ (∀ x ∈ t.cores, waits x = false) ∧
         (waits c = false → t.core = c) ∧
         (∀ e, found = some e ∨ (found = none ∧ walked = .ok e) → vat t.mem.dieTlb d = keepTlb 6144 e (vat s.mem.dieTlb d) ∧
           (waits c = true → t.core.task.tlb = keepTlb 512 e c.task.tlb ∧ t.core.task.walkFault = c.task.walkFault)) ∧
         (∀ k, found = none → walked = .error k → t.mem = s.mem ∧
           (waits c = true → t.core.task.tlb = c.task.tlb) ∧
           (waits c = true → c.task.walking.contains (u / 32768) = true → t.core.task.walkFault = (u / 32768, k) :: c.task.walkFault)))) ∧
    (∀ k, c.cmdOf u = some k → k.stalled = false → s.ev.n2 % 4 = 1 →
      let o := fifoPusher (s.ev.n2 / 4)
      ∃ t, exec .stall s = .next t ∧ t.core.trap = { c.trap with due := c.trap.due ++
          [(k.uid, stallWord (s.ev.n2 / 4) o k.ch k.slot k.pos 1, k.posl, k.posh s.cyc, c.tstall s.cyc o)] } ∧
        (∀ x ∈ t.core.eng.cmds, x.uid = u → x.stalled = true) ∧ t.mem = s.mem ∧ t.core.q = q) ∧
    (∀ (f : Fill) loc time, s.ev.n2 = 16 → q.fillOf u = some f → f.waits = some (loc, time) →
      ∃ t, exec .stall s = .next t ∧ t.core.trap = { c.trap with due := c.trap.due ++
        [(u, stallWord 0 3 0 0 15 5, loc, time, [f.pc.setWidth 64])] } ∧ t.mem = s.mem ∧ ∀ x ∈ t.core.q.fills, x.uid = u → x.stalled = true) ∧
    (∀ k, c.cmdOf u = some k → c.headOf k.q k.ch = some k → k.compared = true → k.held = false → k.fol = none → c.eng.halt = false →
      k.popped = false → k.st = .popWait →
      ((∃ i ∈ k.pops, c.eng.poppable i s.cyc = 0) → ∃ t, exec .engineCommandBegin s = .next t ∧ Awaits t .engineCommandBegin c.num u (s.cyc + 1) (s.cyc + 1) ∧
        (∀ i < 4, t.core.eng.fifo i = c.eng.fifo i) ∧ t.core.tile = c.tile ∧ t.mem = s.mem) ∧
      ((∀ i ∈ k.pops, c.eng.poppable i s.cyc ≠ 0) →
        let taken := c.modEng fun e => k.pops.foldl (fun (e : EngSt) i => e.setFifo i (e.fifo i - 1)) e
        let k' := { k with popped := true, st := .fetching, wait := none, stalled := false }
        let r : State := (State.roomFor { s with core := taken } c.num k.pops).modCmd c.num u fun _ => k'
        (k.handles ≠ [] → k.fetched = false → exec .engineCommandBegin s = .next r) ∧
        (k.handles = [] → r.descWaits c.num k' = false → k.packets = 0 → k.q ≠ 1 → exec .engineCommandBegin s = .next (r.startCmd c.num k')))) ∧
    (∀ k, c.cmdOf u = some k → k.st = .completing → k.packets = 0 → k.early = true → k.lands = [] → k.pushes = [] → k.q ≠ 1 → k.chain = false →
      k.rerun = false → c.eng.halt = false → q.rerun = false → ∃ t, exec .engineCommandComplete s = .next t ∧ (∀ x ∈ t.core.eng.cmds, x.uid ≠ u) ∧
        vat t.core.eng.xdone k.chan = k.xid + 1 ∧ (∀ j < 8, j ≠ k.chan % 8 → vat t.core.eng.xdone j = vat c.eng.xdone j) ∧
        (k.posts = false → t.core.eng.events = c.eng.events) ∧ (k.det = 0 → t.core.eng.xerr = c.eng.xerr) ∧ t.mem = s.mem ∧ t.core.q = q) ∧
    (∀ k, c.cmdOf u = some k → k.fetched = false → ((c.queue 1 0).takeWhile fun x => x.uid != u).length ≤ 4 →
      s.pagesFor c.num k.walks (k.handles.flatMap fun h => s.handlePages c h) = none →
      s.farAnswered (c.num, 16 + u) 0 (k.handles.flatMap fun h => s.handleWants c (s.farAnswered (c.num, 16 + u) 0) 2 h) = true →
      ∃ t, exec .operandFetch s = .next t ∧ Awaits t .engineCommandBegin c.num u s.cyc s.cyc ∧ t.mem.views = s.mem.views ∧
        ∀ x ∈ t.core.eng.cmds, x.uid = u → x.fetched = true ∧ x.opnds.length = k.handles.length) ∧
    (let w := s.ev.n1 % 2
     let k := vat c.eng.walkers w
     let r := s.engRead c.num k.got [] k.addr 32
     let e := BitVec.ofNat 256 (leNat r.bytes)
     (c.eng.halt = false → k.st = .run → k.kick = s.ev.n2 → k.cmd = none → k.packets = 0 → k.waiting = none → r.fail = none → r.need = [] →
       s.pagesFor c.num (if k.asked then some [] else none) [k.addr] = none → ∃ t, exec .chainEntryRead s = .next t ∧ t.mem.views = s.mem.views ∧
         (badEntry (2 * w) e = true → (vat t.core.eng.walkers w).st = .idle ∧ (vat t.core.eng.walkers w).cherr = true ∧
           (vat t.core.eng.walkers w).seqNo = k.seqNo + 1) ∧
         (badEntry (2 * w) e = false → (vat t.core.eng.walkers w).entry = e ∧ (vat t.core.eng.walkers w).waiting = some (s.cyc + 1) ∧
           Awaits t .chainEntryRead c.num w (s.cyc + 1) (s.cyc + 1))) ∧
     (k.cmd ≠ none →
       let link := if entryLink k.entry = 0 then k.linked else entryLink k.entry
       ∃ t, exec .chainEntryDone s = .next t ∧ t.mem = s.mem ∧ (vat t.core.eng.walkers w).cmd = none ∧
         (vat t.core.eng.walkers w).seqNo = k.seqNo + 1 ∧ (vat t.core.eng.walkers w).cherr = (k.cherr || decide (s.ev.n2 = 1)) ∧
         (link = 0 → (vat t.core.eng.walkers w).st = .park ∧ (vat t.core.eng.walkers w).addr = k.addr) ∧
         (link ≠ 0 → (vat t.core.eng.walkers w).st = .run ∧ (vat t.core.eng.walkers w).addr = link) ∧
         t.core.eng.rsc = (maskCounters k.entry 232).foldl (fun (r : Vector (BitVec 16) 64) j => vput r j (vat r j + 1)) c.eng.rsc))

/-- R277, R278, R282, R290, R298: a verdict reaches its core; an accepted update changes its count by its delta, a refused one changes
no count, and the sender hears which; a Progress Engine keeps the newest notice of a location; a rank that has ended leaves; a join
decrement counts its record down, which becomes ready at zero. The form of updates, notices and verdicts is the model's own (log entries
60 and 61). -/
def Obligations.ProgressStepsApply : Prop :=
  ∀ s : State,
    (∃ t, exec .progressVerdict s = .next t ∧ t.pe.verdicts.map (·.uid) = s.pe.verdicts.map (·.uid) ∧
      (∀ m ∈ t.pe.verdicts, m.uid = s.ev.n1 → m.here = true) ∧ t.core = s.core ∧ t.mem = s.mem ∧ t.pe.insts = s.pe.insts) ∧
    (∀ (u : Update) (g : GraphInst) (tp : Template) (it : BitVec 64 × BitVec 64 × Int),
      s.pe.updates.find? (fun x => x.uid == s.ev.n0) = some u → s.pe.instOf u.inst = some g → s.pe.tmplOf g.tmpl = some tp → u.items = [it] →
      u.entry = none → u.records = [] → u.away = none → u.orphan = false →
      (s.inOrder u.home u.sender u.batch = false → exec .countUpdateApply s = .next (s.schedule 1 .countUpdateApply { n0 := u.uid })) ∧
      (∀ g', s.inOrder u.home u.sender u.batch = true → s.applyItem tp (u.poison || u.marks.getD 0 false) false g it = .ok g' → g'.cnt it.1 it.2.1 ≠ 0 →
        ∃ (t : State) (h : GraphInst), exec .countUpdateApply s = .next t ∧ t.pe.instOf u.inst = some h ∧
          h.cnt it.1 it.2.1 = g.cnt it.1 it.2.1 + it.2.2 ∧ (u.batch ≠ 0 → vat (vat t.pe.applied u.home) u.sender = u.batch) ∧
          (∀ n, u.core = some n → ∃ v ∈ t.pe.verdicts, v.uid = u.uid ∧ v.core = n ∧ v.what = .ok) ∧ (∀ x ∈ t.pe.updates, x.uid ≠ u.uid)) ∧
      (∀ e, s.inOrder u.home u.sender u.batch = true → s.applyItem tp (u.poison || u.marks.getD 0 false) false g it = .error e →
        ∃ (t : State) (h : GraphInst), exec .countUpdateApply s = .next t ∧ t.pe.instOf u.inst = some h ∧ h.cells = g.cells ∧
          (∀ n, u.core = some n → ∃ v ∈ t.pe.verdicts, v.uid = u.uid ∧ v.core = n ∧ v.what = e.1) ∧ (∀ x ∈ t.pe.updates, x.uid ≠ u.uid))) ∧
    (let n := noticeOf s.ev
     (s.pe.instOf (locInst n.loc)).isSome = true →
     ((∀ o ∈ s.pe.notices, o.die = n.die → o.loc = n.loc → o.serial < n.serial) → ∃ t, exec .frontierNotice s = .next t ∧
       t.pe.notices = n :: s.pe.notices.filter (fun o => !(o.die == n.die && o.loc == n.loc)) ∧ t.pe.insts = s.pe.insts) ∧
     ((∃ o ∈ s.pe.notices, o.die = n.die ∧ o.loc = n.loc ∧ n.serial ≤ o.serial) → ∃ t, exec .frontierNotice s = .next t ∧
       t.pe.notices = s.pe.notices ∧ t.pe.insts = s.pe.insts)) ∧
    (∀ k, s.pe.colls.find? (fun x => x.uid == s.ev.n0) = some k →
      (k.stage = 3 → ∃ t, exec .collectiveDone s = .next t ∧ (∀ x ∈ t.pe.colls, x.uid ≠ k.uid) ∧ t.core.q = s.core.q ∧ t.mem = s.mem) ∧
      (k.stage = 2 → s.collAborted k = false → 0 < k.packets →
        exec .collectiveDone s = .next (s.schedule 1 .collectiveDone { n0 := k.uid }))) ∧
    (∀ (j : JoinMsg) (g : GraphInst) (r : Placed),
      s.pe.joins.find? (fun x => x.uid == s.ev.n0) = some j → s.pe.instOf j.inst = some g → s.inOrder j.home j.sender j.batch = true →
      (j.inst, j.node, j.time) ∉ s.sched.drops →
      s.sched.placed.find? (fun x => !x.admitted && x.task.inst == j.inst && x.task.node == j.node && x.task.time == j.time) = some r → r.task.join ≠ 0 →
      ∃ t, exec .joinDecrement s = .next t ∧ (∀ x ∈ t.pe.joins, x.uid ≠ j.uid) ∧
        ∃ x ∈ t.sched.placed, x.uid = r.uid ∧ x.task = { r.task with join := r.task.join - 1 } ∧ (r.task.join = 1 → x.ready.isSome = true))

/-- R301, R302, R308, R297, R312, R313, R326, R329, R331, R332, R409, R315, R390, R393: what each step of the scheduler and of the
recovery of a phase does. The step-by-step form is the model's own (log entries 4, 59, 74 and 77). -/
def Obligations.SchedulerStepsComplete : Prop :=
  ∀ s : State,
    let n := s.ev.n0
    let c := s.coreAt n
    let cl := s.ev.n0 % 8
    let d := s.ev.n0 % 4
    ((∀ e ∈ s.agenda, s.cyc < e.due) →
      let u := s.dropClaims
      (u.headOf cl = none → ∃ t, exec .gangAdmit s = .next t ∧ vat t.sched.admWait cl = 0 ∧ t.sched.placed = s.sched.placed ∧
        t.sched.gangs = s.sched.gangs) ∧
      (∀ r, u.headOf cl = some r → r.resume = none → (u.admitTest r []).pass = true → ∃ t, exec .gangAdmit s = .next t ∧
        (∀ x ∈ t.sched.placed, x.uid ≠ r.uid) ∧ (∃ g ∈ t.sched.gangs, g.task = r.task ∧ g.members = (u.admitTest r []).gang ∧ g.cluster = r.cluster) ∧
        Awaits t .gangAdmit cl 0 (s.cyc + 1) (s.cyc + 1)) ∧
      (∀ r, u.headOf cl = some r → (u.admitTest r []).pass = false → ∃ t, exec .gangAdmit s = .next t ∧
        t.sched.placed = s.sched.placed ∧ t.sched.gangs = s.sched.gangs ∧ (vat t.sched.admWait cl).getLsbD 63 = true)) ∧
    (c.status = .exiting → c.eng.cmds = [] → s.ev.n1 ≠ 0 → ∃ t, exec .memberRelease s = .next t ∧ (t.coreAt n).status = .idle ∧
      ∀ g, s.gangOf c = some g → ∃ x ∈ t.sched.gangs, x.id = g.id ∧ n ∈ x.exited) ∧
    (c.status = .exiting → c.eng.cmds ≠ [] → exec .memberRelease s = .next (s.schedule 1 .memberRelease { n0 := n })) ∧
    (∀ g, s.sched.gangs.find? (fun g => g.id == n) = some g →
      (s.ev.n1 = 1 → (g.dropped.contains s.ev.n2 = true → exec .taskComplete s = .next s) ∧
        (g.dropped.contains s.ev.n2 = false → (∃ m ∈ g.members, m ∉ g.dropped ++ [s.ev.n2]) → ∃ t, exec .taskComplete s = .next t ∧ t.mem = s.mem ∧
          (∃ x ∈ t.sched.gangs, x.id = g.id ∧ x.dropped = g.dropped ++ [s.ev.n2] ∧ x.dropDone = false) ∧ t.pe = s.pe)) ∧
      (s.ev.n1 ≠ 1 → let again : Prop := exec .taskComplete s = .next (s.schedule 1 .taskComplete { n0 := g.id })
       (g.statsDone = false → (∃ m ∈ g.marks, s.landedSince m.1 m.2 = false) → again) ∧
       (g.statsDone = false → (∀ m ∈ g.marks, s.landedSince m.1 m.2 = true) → ∃ t, exec .taskComplete s = .next t ∧
         (∃ x ∈ t.sched.gangs, x.id = g.id ∧ x.statsDone = true) ∧ Awaits t .taskComplete g.id 0 (s.cyc + 1) (s.cyc + 1)) ∧
       (g.statsDone = true → (∃ m ∈ g.marks, s.quietSince g m.1 m.2 g.img.scope = false) → again) ∧
       (g.statsDone = true → (∀ m ∈ g.marks, s.quietSince g m.1 m.2 g.img.scope = true) → ∃ t, exec .taskComplete s = .next t ∧
         (∀ x ∈ t.sched.gangs, x.id ≠ g.id))) ∧
      (g.policy = 3 → (∃ m ∈ g.live, (s.coreAt m).status ≠ .stopped) → ∃ t, exec .checkpoint s = .next t ∧
        Awaits t .checkpoint n 0 (s.cyc + 1) (s.cyc + 1) ∧ t.sched.gangs = s.sched.gangs) ∧
      (let u := g.live.foldl (fun (s : State) m => if s.memberQuiet m then s.modCore m fun c => c.modEng fun e => { e with halt := true } else s) s
       g.policy = 3 → g.live ≠ [] → (∀ m ∈ g.live, u.memberQuiet m = true ∧ (u.coreAt m).enginesStill = true) → ∃ t, exec .checkpoint s = .next t ∧
         (∃ x ∈ t.sched.gangs, x.id = g.id ∧ x.policy = 4) ∧ ∃ r ∈ t.sched.placed, r.resume = some g.id) ∧
      (g.policy = 2 → g.live ≠ [] → (∀ m ∈ g.live, (s.coreAt m).status = .stopped) → ∃ t, exec .killRequeue s = .next t ∧
        (∀ x ∈ t.sched.gangs, x.id ≠ g.id) ∧ ∃ r ∈ t.sched.placed, r.task = g.task) ∧
      (g.policy = 2 → (∃ m ∈ g.live, (s.coreAt m).status ≠ .stopped) → exec .killRequeue s = .next (s.schedule 1 .killRequeue { n0 := n }))) ∧
    (s.ev.n1 = 1 → ∃ t, exec .frameTick s = .next t ∧ t.sched.frameCnt = s.sched.frameCnt ∧ ∀ r ∈ s.sched.placed, r.cluster / 2 = d →
      r.task.tt = true → r.task.rem.toNat = s.frameNow d → r.admitted = false → (∃ k, r.ready = some k ∧ k ≤ s.ev.n2) →
      (∃ x ∈ s.sched.failing, x.1 = r.cluster ∧ ∃ h ∈ s.sched.placed, h.uid = x.2.1 ∧ h.cluster = r.cluster ∧ h.timedIn (s.frameNow d) = true) →
      r.uid ∈ t.sched.ttFailed) ∧
    (s.ev.n1 ≠ 1 → s.slipCauses d = [] → ∃ t, exec .frameTick s = .next t ∧ vat t.sched.frameCnt d = vat s.sched.frameCnt d + 1 ∧
      vat t.sched.frameLen d = vat s.sched.frameNew d ∧
      Awaits t .frameTick d 0 (s.cyc + vat s.sched.frameNew d) (s.cyc + vat s.sched.frameNew d)) ∧
    (s.ev.n1 ≠ 1 → s.slipCauses d ≠ [] → ∃ t, exec .frameTick s = .next t ∧ t.sched.frameCnt = s.sched.frameCnt ∧
      Awaits t .frameTick d 0 (s.cyc + 1) (s.cyc + 1)) ∧
    (∀ r g, s.headOf cl = some r → s.sched.gangs.filter (fun g => g.cluster == cl && g.policy == 0 && decide (g.task.level < r.task.level)) = [g] →
      (s.admitTest r []).pass = false → (s.admitTest r [g]).pass = true → ∃ t, exec .preemptSelect s = .next t ∧
        ∃ x ∈ t.sched.gangs, x.id = g.id ∧ x.policy = s.policyFor g (r.task.prio.toNat % 32) ∧ x.head = some r.uid) ∧
    (s.headOf cl = none → exec .preemptSelect s = .next s ∧
      ((∀ e ∈ s.agenda, ¬ (e.due ≤ s.cyc ∧ e.op = .longLatencyFill ∧ e.arg.n2 = 2)) → exec .creqSched s = .next s)) ∧
    (∀ e ∈ s.agenda, e.due ≤ s.cyc → e.op = .longLatencyFill → e.arg.n2 = 2 → exec .creqSched s = .next (s.schedule 0 .creqSched { n0 := n })) ∧
    (∃ t, exec .creqSched s = .next t ∧ t.sched = s.sched ∧ t.mem = s.mem ∧ ∀ z < 100, (t.zone z).floor = (s.zone z).floor ∧
      (t.zone z).prog = (s.zone z).prog ∧ (t.zone z).commit = (s.zone z).commit ∧ (s.zone z).sched ≤ (t.zone z).sched) ∧
    (n = s.core.num → c.status = .running → c.trap.yreq = true → c.q.verdict = none → ∃ t, exec .yieldDeadline s = .next t ∧
      t.core.status = .stopped ∧ t.core.trap.missed = bump32 c.trap.missed ∧ t.core.q = c.q ∧ t.mem = s.mem) ∧
    (c.status ≠ .idle → c.q.verdict = none → ∃ t, exec .taskKill s = .next t ∧ (t.coreAt n).status = .idle ∧
      ∀ g, s.gangOf c = some g → ∃ q ∈ t.sched.quar, q.core = n % 1024 ∧ q.code = s.ev.n1 ∧ q.task = g.task) ∧
    (c.status = .idle → exec .taskKill s = .next s ∧ exec .rollback s = .next s) ∧
    (s.ev.n2 = 1 → ∃ t, exec .drawStart s = .next t ∧ t.sched.draws = s.sched.draws.filter (fun w => !(w.1 == n && w.2.1 == tileDraw))) ∧
    (∀ w, s.ev.n2 ≠ 1 → s.sched.waiting = [w] → w.2.2.1 ≤ s.powerLeft (dieOf w.1) → ∃ t, exec .drawStart s = .next t ∧ t.sched.waiting = [] ∧
      t.sched.draws = s.sched.draws ++ [(w.1, w.2.1, w.2.2.1)] ∧ Awaits t .engineCommandBegin w.1 w.2.1 s.cyc s.cyc) ∧
    (∀ x, n = s.core.num → c.status ≠ .idle → c.ph.snap = some x → c.ph.en = true → c.ph.live = false → c.ph.irrev = false → c.ph.ovf = false →
      c.ph.rolls ≠ c.ph.retry → ∃ t, exec .rollback s = .next t ∧ t.core.q.s = x.s ∧ t.core.q.m = x.m ∧ t.core.q.pc = x.pc ∧
        t.core.q.loops = x.loops ∧ t.core.q.lfsr = x.lfsr ∧ t.core.q.fills = [] ∧ t.core.q.sFull = BitVec.allOnes 64 ∧ t.core.q.v = c.q.v ∧
        t.core.ph.rolls = c.ph.rolls + 1 ∧ t.core.trap.thm = x.thm ∧ t.core.tile.bufA = c.tile.bufA) ∧
    (c.status ≠ .idle → c.ph.snap = none ∨ c.ph.en = false ∨ c.ph.live = true ∨ c.ph.irrev = true ∨ c.ph.ovf = true ∨ c.ph.rolls = c.ph.retry →
      ∃ t, exec .rollback s = .next t ∧ (t.coreAt n).status = .stopped ∧ Awaits t .taskKill n 3 s.cyc s.cyc) ∧
    (∃ t, exec .dieFailure s = .next t ∧ t.host.diefail.getLsbD d = true ∧
      (dieOf s.core.num = d → s.core.status ≠ .idle → t.core.status = .stopped) ∧
      (dieOf s.core.num ≠ d → t.core.status = s.core.status ∧ t.core.q.pc = s.core.q.pc))

/-- R370 to R377, R381, R421: what each packet of a flow does at its destination and is answered with, how flows open, close, are
acknowledged and time out, and what links do with packets, control flits, lanes and retraining. Corners of flows and links are read as
log entries 90 to 93 say. -/
def Obligations.FabricStepsComplete : Prop :=
  ∀ s : State,
    let p := s.ev.p
    let i := s.ev.n0 % 16
    let lane := s.ev.n1 % 16
    let l := vat s.fab.links i
    let bit (b : Bool) : BitVec 16 := setBit l.failedLanes lane b
    let link (t : State) : Link := vat t.fab.links i
    let others (t : State) : Prop := ∀ j < 16, j ≠ i → vat t.fab.links j = vat s.fab.links j
    (∀ x ∈ [(Instr.write, kWRITE, s.applyWrite), (.read, kREAD, s.applyRead), (.redPacket, kRED, s.applyRed), (.pbatch, kPBATCH, s.applyBatch),
            (.colld, kCOLLD, s.applyColl)],
      let q := { p with kind := x.2.1 }
      (s.dstOf q = none → exec x.1 s = .next s) ∧
      (∀ f, s.dstOf q = some f → p.fseq = f.applied ∨ 16 < (p.fseq - f.applied).toNat → exec x.1 s = .next (s.sendFack q f.applied)) ∧
      (∀ f, s.dstOf q = some f → f.ord = false → p.fseq ∉ f.early → p.fseq ≠ f.applied → (p.fseq - f.applied).toNat ≤ 16 →
        ∃ t, exec x.1 s = .next t ∧ t.mem = (x.2.2 q).mem ∧ t.pe = (x.2.2 q).pe ∧ t.core = (x.2.2 q).core)) ∧
    (∀ x y f, s.srcOf p = some x → s.srcAt x.slot = some x →
      x.unacked.find? (fun it => it.p.kind == kREAD && it.p.fseq == p.fseq) = some y → y.use = .fill s.core.num f → p.aux.getLsbD 0 = false →
      ∃ t, exec .resp s = .next t ∧ Awaits t .longLatencyFill s.core.num f (s.cyc + 1) (s.cyc + 1) ∧ t.mem = s.mem ∧
        ∀ g form ps path got left, g ∈ s.core.q.fills → g.uid = f → g.src = .remote form ps path got left →
          { g with src := .remote form ps path (got ++ spanAt y.va p.payload) (left - 1) } ∈ t.core.q.fills) ∧
    ((∀ f ∈ s.fab.dsts, f.after p = false) → s.dstOf p = none → ∃ t, exec .fopen s = .next t ∧ t.dstOf p = some { snode := p.snode, flow := p.flow, ord := p.ord } ∧ t.mem = s.mem) ∧
    exec .fclose s = .next { s with fab := { s.fab with dsts := s.fab.dsts.filter fun d => !(d.snode == p.snode && d.flow == p.flow) } } ∧
    (∀ x, s.srcOf p = some x → s.srcAt x.slot = some x → x.queue = [] → ∃ (t : State) (y : FlowSrc), exec .fack s = .next t ∧
      t.srcAt x.slot = some y ∧ y.opened = true ∧
      y.unacked = x.unacked.filter fun it => it.p.kind == kREAD || decide (2 ^ 31 ≤ (p.aux.setWidth 32 - it.p.fseq).toNat)) ∧
    (l.txq = [] →
      (∃ t, exec .ack s = .next t ∧ (link t).replay = (releaseTo (s.ev.w.setWidth 16) l).replay ∧ (link t).wire = l.wire ∧ others t) ∧
      (∃ t, exec .nak s = .next t ∧ (link t).replay = (releaseTo (s.ev.w.setWidth 16) l).replay ∧
        (link t).wire = l.wire ++ (releaseTo (s.ev.w.setWidth 16) l).replay ∧ others t)) ∧
    (l.usable = true → l.retraining = false → l.noLock = 0 → packetOk p = true → p.kind ≠ kLCTL → p.lseq = l.rxLast + 1 → p.dnode = s.fab.node →
      ∀ op, arrivalOf p.kind = some op → ∃ t, exec .linkPacketReceive s = .next t ∧ (link t).rxLast = p.lseq ∧ others t ∧
        ∃ e ∈ t.agenda, e.op = op ∧ e.arg.p = p ∧ e.due = s.cyc) ∧
    (l.usable = true → l.retraining = false → l.noLock = 0 → packetOk p = false → l.discarded = false → s.ev.n2 = 0 →
      ∃ t, exec .linkPacketReceive s = .next t ∧ (link t).rxLast = l.rxLast ∧ (link t).discarded = true ∧
        (link t).crcFails = (if p.crc = packetCrc p then l.crcFails else bumpField l.crcFails) ∧ (link t).wire = l.wire ++ [lctl 1 l.rxLast.toNat] ∧ t.agenda = s.agenda) ∧
    (l.usable = true → l.retraining = false → ∃ t, exec .linkAckTimer s = .next t ∧
      (link t).wire = l.wire ++ [lctl 0 l.rxLast.toNat] ∧ others t ∧ Awaits t .linkAckTimer i 0 (s.cyc + 1) (s.cyc + 69)) ∧
    (l.replay ≠ [] → l.usable = true → l.retraining = false → nsCyc s.fab.ltimeout ≤ s.cyc - l.since → ∃ t, exec .ltimeout s = .next t ∧
      (link t).wire = l.wire ++ l.replay ∧ (link t).replay = l.replay ∧ (link t).replays = l.replay.foldl (fun n _ => bumpField n) l.replays ∧ others t ∧
      Awaits t .ltimeout i 0 (s.cyc + nsCyc s.fab.ltimeout) (s.cyc + nsCyc s.fab.ltimeout)) ∧
    (l.failedLanes.getLsbD lane = false → ∃ t, exec .laneFailed s = .next t ∧ (link t).failedLanes = bit true ∧ (link t).retraining = true ∧
      (l.usable = true → (link t).wire = l.wire ++ [lctl 2 lane]) ∧ others t) ∧
    (∃ t, exec .degrade s = .next t ∧ (link t).failedLanes = bit true ∧ (link t).retraining = true ∧ others t) ∧
    (∃ t, exec .laneRequalify s = .next t ∧ (link t).failedLanes = bit false ∧ (link t).retraining = true ∧ others t) ∧
    (∃ t, exec .linkRetrain s = .next t ∧ (link t).retraining = true ∧ others t ∧
      (l.retraining = false → Awaits t .retrainDone i 0 (s.cyc + 1) (s.cyc + 1520))) ∧
    (∃ t, exec .linkDown s = .next t ∧ (link t).up = false ∧ (link t).retraining = false ∧ (link t).replay = [] ∧ (link t).txq = [] ∧ t.mem.views = s.mem.views) ∧
    (l.retraining = true → l.failedLanes.toNat % 256 = 0 ∨ l.failedLanes.toNat / 256 = 0 → ∃ t, exec .retrainDone s = .next t ∧
      (link t).up = true ∧ (link t).retraining = false ∧ (link t).noLock = 0 ∧ others t ∧
      (link t).half = if l.failedLanes = 0 then none else some (if l.failedLanes.toNat % 256 = 0 then 0 else 1)) ∧
    (∃ t, exec .symbolLockLost s = .next t ∧ (link t).noLock = setBit l.noLock lane true ∧ others t ∧
      Awaits t .laneFailed i lane (s.cyc + 190) (s.cyc + 190)) ∧
    (∃ t, exec .symbolLockRegained s = .next t ∧ (link t).noLock = setBit l.noLock lane false ∧ others t ∧
      ∀ e ∈ t.agenda, ¬ (e.op = .laneFailed ∧ e.arg.n0 = i ∧ e.arg.n1 = lane)) ∧
    (∀ x, s.srcAt s.ev.n0 = some x → x.opened = true → x.unacked ≠ [] → (s.route x.node).isSome = true →
      nsCyc s.fab.ftimeout ≤ s.cyc - x.since →
      (x.timeouts < s.fab.fretry → ∃ (t : State) (y : FlowSrc), exec .ftimeout s = .next t ∧ t.srcAt s.ev.n0 = some y ∧ y.timeouts = x.timeouts + 1 ∧
        y.unacked = x.unacked) ∧
      (s.fab.fretry ≤ x.timeouts → ∃ t, exec .ftimeout s = .next t ∧ (∀ y ∈ t.fab.srcs, y.slot ≠ s.ev.n0) ∧ t.fab.failed = bumpField s.fab.failed)) ∧
    (∀ x, s.srcAt s.ev.n0 = some x → x.unacked = [] → x.queue = [] → nsCyc 1000000 ≤ s.cyc - x.since → x.ctx < 2 ^ 32 →
      ∃ t, exec .flowIdleClose s = .next t ∧ (∀ y ∈ t.fab.srcs, y.slot ≠ s.ev.n0) ∧ t.mem = s.mem)

/-- R339 to R344: a request ends with the status the table gives the state of its block; a fetch or spill ends with 0 or 4, an evicted
or freed block gives its frame back, an allocated one takes one; a completed request leaves; a drive's timeout marks the drive; a command
waits for an entry of a queue pair of its drive. The states a block passes through are read as log entries 95 and 96 say. -/
def Obligations.RackingStepsComplete : Prop :=
  ∀ (s : State) (p : Pool) (r : RackReq),
    let i := s.ev.n0
    let k := s.ev.n1
    let w := s.descWord p r.block
    let ended (st : Nat) (t : State) : Prop := ∃ p', t.poolAt i = some p' ∧ ∃ x ∈ p'.reqs, x.k = k ∧ x.status = some st
    let owns (t : State) (b f : Nat) : Prop := ∃ p', t.poolAt i = some p' ∧ (b, f) ∈ p'.owner
    let left (t : State) (b : Nat) : Prop := ∃ p', t.poolAt i = some p' ∧ ∀ x ∈ p'.owner, x.1 ≠ b
    s.poolAt i = some p → p.req k = some r → r.status = none →
    (s.ev.n2 = 0 → r.joins = false →
      (r.op = 1 → (descState w = 1 → ∃ t, exec .fetch s = .next t ∧ ended 0 t) ∧ (descState w = 0 → ∃ t, exec .fetch s = .next t ∧ ended 3 t)) ∧
      (r.op = 2 → (descState w = 2 → ∃ t, exec .spill s = .next t ∧ ended 0 t) ∧ (descState w = 0 → ∃ t, exec .spill s = .next t ∧ ended 3 t)) ∧
      (r.op = 3 → (descState w = 2 → ∃ t, exec .evict s = .next t ∧ ended 0 t) ∧ (descState w = 0 → ∃ t, exec .evict s = .next t ∧ ended 3 t) ∧
        (descState w = 1 → descPin w ≠ 0 → ∃ t, exec .evict s = .next t ∧ ended 2 t)) ∧
      (r.op = 4 → (descState w = 0 → ∃ t, exec .free s = .next t ∧ ended 0 t) ∧
        (descState w = 1 → descPin w ≠ 0 → ∃ t, exec .free s = .next t ∧ ended 2 t)) ∧
      (r.op = 5 → descState w = 1 ∨ descState w = 2 ∨ descState w = 3 → ∃ t, exec .alloc s = .next t ∧ ended 3 t)) ∧
    (s.ev.n2 = 24 → r.joins = false →
      (∀ f, r.op = 1 → r.frame = some f → ∃ t, exec .fetch s = .next t ∧ (ended 0 t ∧ owns t r.block f ∨ ended 4 t)) ∧
      (r.op = 2 → ∃ t, exec .spill s = .next t ∧ (ended 0 t ∨ ended 4 t))) ∧
    (s.ev.n2 = 3 → s.blockQuiet p r.block = true → descPin w = 0 →
      (r.op = 3 → ∃ t, exec .evict s = .next t ∧ ended 0 t ∧ left t r.block) ∧
      (r.op = 4 → ∃ t, exec .free s = .next t ∧ left t r.block ∧ (descValid w = false → ended 0 t))) ∧
    (s.ev.n2 = 7 → s.rack.freePair (p.driveOf r.block) = false → exec .fetch s = .next (s.rackNext i k 1 7)) ∧
    (∀ f l, s.ev.n2 = 1 → r.op = 5 → p.free = f :: l → descState w = 0 → ∃ t, exec .alloc s = .next t ∧ ended 0 t ∧ owns t r.block f) ∧
    (∃ t, exec .rackDriveTimeout s = .next t ∧ ended 4 t ∧ t.rack.driveFault.getLsbD (p.drv.getD (r.block % max 1 p.drv.length) 0 % 8) =
      (decide (p.drv.getD (r.block % max 1 p.drv.length) 0 < 8) || s.rack.driveFault.getLsbD (p.drv.getD (r.block % max 1 p.drv.length) 0 % 8))) ∧
    (s.ev.n2 = 2 → s.blockDone i p r = true → r.victim = none → s.unitFar (s.ctxSpace p.ctx) p.cons .write = none →
      ∃ (t : State) (p' : Pool), exec .rackRequestComplete s = .next t ∧ t.poolAt i = some p' ∧
      (∀ x ∈ p'.reqs, x.k ≠ k) ∧ p.consK ≤ p'.consK)

/-- R352 to R362: a descriptor that the doorbell announces enters the chain, refused with reason 9; each engine does its unit of work on
the message it holds, or faults it; a stalled queue resumes; a batch that has landed becomes ready; a completed message leaves. The unit
of work of a step is the model's choice (log entry 100), and so is that an input on another module is read whole first (log entry 109). -/
def Obligations.TextStepsComplete : Prop :=
  ∀ (s : State) (x : Stream),
    let q := s.ev.n0
    s.streamAt q = some x →
    (s.textPaused = true ∨ x.full = true → ∀ i ∈ [Instr.messageDescriptor, .inflate, .charsetConvert, .tokenise, .batchReady],
      ∃ t, exec i s = .next t ∧ t.streamAt q = some x) ∧
    (s.textPaused = false → x.full = false →
    (x.closing = true → exec .messageDescriptor s = .next s) ∧
    (∀ p, x.closing = false → s.tfe.enable = true → s.tfe.drain = false → x.read < s.doorbell x.ctx x.db → x.read < x.done + x.nent →
      s.unitPlace (s.ctxSpace x.ctx) (x.ringva + 64 * (x.read % max 1 x.nent)) .read = some p →
      s.badPiece { va := x.ringva, len := 64, node := p.node, die := p.die, pa := p.pa, pte := p.pte } = false →
      ∃ (t : State) (m : Message), exec .messageDescriptor s = .next t ∧ t.streamAt q = some { x with read := x.read + 1, msgs := x.msgs ++ [m] } ∧
        m.desc = BitVec.ofNat 512 (s.homeLE p 64) ∧ m.fault = if m.refused then some (9, 0, 0) else none) ∧
    (∀ m, x.msgs.find? (atEngine 0) = some m → m.out = none →
      let who : Nat × Nat := (2048 + q, 2 * (x.read - x.msgs.length + x.msgs.findIdx (atEngine 0)) + 1)
      let away := s.inputWants x.ctx (m.field 0 51) m.len
      (s.farAnswered who 0 away = false → ∃ t, exec .inflate s = .next t ∧ t.streamAt q = some x) ∧
      (∀ bs, s.farAnswered who 0 away = true → s.inputOf who x.ctx (m.field 0 51) m.len = .ok bs → ∃ t, exec .inflate s = .next t ∧
        t.streamAt q = some (x.modMsg (atEngine 0) fun m => { m with out := some (inflateAs m.enc x.maxout bs) })) ∧
      (∀ o, s.farAnswered who 0 away = true → s.inputOf who x.ctx (m.field 0 51) m.len = .error o → ∃ t, exec .inflate s = .next t ∧
        t.streamAt q = some (x.modMsg (atEngine 0) fun m => { m with fault := some (8, 1, o) }))) ∧
    (∀ m out bad, x.msgs.find? (atEngine 0) = some m → m.out = some (out, bad) → m.made < out.length → x.occupancy 0 < s.hiMark 0 →
      ∃ t, exec .inflate s = .next t ∧
        t.streamAt q = some (x.modMsg (atEngine 0) fun m => { m with made := min (m.made + 64) out.length })) ∧
    (∀ m, x.msgs.find? (atEngine 1) = some m →
      (charsetKnown m.mib = false → ∃ t, exec .charsetConvert s = .next t ∧
        t.streamAt q = some (x.modMsg (atEngine 1) fun m => { m with fault := some (7, 2, 0) })) ∧
      (charsetKnown m.mib = true → m.charsReady = [] → m.inflated = true → ∃ t, exec .charsetConvert s = .next t ∧
        t.streamAt q = some (x.modMsg (atEngine 1) fun m => { m with used := m.made, converted := true })) ∧
      (charsetKnown m.mib = true → m.charsReady ≠ [] → s.hiMark 1 ≤ x.occupancy 1 → ∃ t, exec .charsetConvert s = .next t ∧
        t.streamAt q = some { x with stalled := setBit x.stalled 1 true })) ∧
    (∀ m, x.msgs.find? (atEngine 2) = some m →
      let all := tokensOf (vat s.tfe.tables x.mtab) x.bos x.eos m.text m.converted
      (m.tokens.length < all.length → x.occupancy 2 < s.hiMark 2 → ∃ t, exec .tokenise s = .next t ∧
        let k := min (m.tokens.length + 16) all.length
        t.streamAt q = some (x.modMsg (atEngine 2) fun y => { y with taken := s.textTaken x m k all.length, tokens := all.take k })) ∧
      (all.length ≤ m.tokens.length → m.converted = true → ∃ t, exec .tokenise s = .next t ∧
        t.streamAt q = some (x.modMsg (atEngine 2) fun y => { y with taken := y.text.length, tokenised := true }))) ∧
    (∃ t, exec .tfeQueueResume s = .next t ∧ t.streamAt q = some { x with stalled := setBit x.stalled (s.ev.n1 % 3) false }) ∧
    (∀ n w b, x.bound = some (n, w) → x.writing = some b → x.landed = true → s.usePending (.unit (logOrg n)) = false →
      (∀ e ∈ s.mem.emitted, e.org = some (logOrg n) → dieOf n ∉ e.todo) → ∃ t, exec .batchReady s = .next t ∧
        t.streamAt q = some { x with ready := x.ready ++ [{ b with ready := s.cyc, once := true }], writing := none, landed := false }) ∧
    (∀ m l, x.msgs = m :: l → m.done = true → m.counted = true → m.recorded = true ∨ x.unready (x.read - x.msgs.length) = false → x.closing = false → s.textQuiet q = true →
      (∀ y ∈ x.msgs, y.fault = none ∨ y.recorded = true) → ∃ t, exec .quarantineRecord s = .next t ∧ t.streamAt q = some { x with msgs := l }))

/-- R406, R413 to R416: the valve controller, the sensor traps and their effect on a zone, and the steps of an evacuation. The
controller's numbers are free, and samples come with their traps (log entries 85 to 88). -/
def Obligations.ZoneStepsComplete : Prop :=
  ∀ s : State,
    let z := s.ev.n0
    let v := s.zone z
    let w := s.ev.w.toNat
    let flow := w % 2 ^ 8
    let hottest := max (w / 2 ^ 8 % 2 ^ 8) (w / 2 ^ 16 % 2 ^ 8)
    let zoneIs (i : Instr) (p : Zone → State → Prop) : Prop := ∃ t, exec i s = .next t ∧ p (t.zone z) t
    let mine (c : CoreSt) : Prop := zoneOfCore c.num = z ∧ c.status ≠ .idle
    let reported (t : State) : Prop := s.host.vector1 < t.host.vector1 ∧ (s.cool.ringReg = 0 → t.cool.ring.length = s.cool.ring.length + 1)
    (11600 < s.ev.n0 → ∃ t, exec .powerOverlimit s = .next t ∧ t.cool.average = s.ev.n0 ∧ t.cool.throttled = s.cool.throttled ∧ t.core = s.core ∧
      ∀ d < 5, 0 < vat s.cool.limits d → vat t.cool.limits d < vat s.cool.limits d) ∧
    (12800 < s.ev.n0 → ∃ t, exec .powerHardThrottle s = .next t ∧ t.cool.throttled = true ∧ t.cool.average = s.ev.n0 ∧ t.cool.zones = s.cool.zones) ∧
    (s.ev.n0 < 12000 → ∃ t, exec .powerThrottleEnd s = .next t ∧ t.cool.throttled = false ∧ t.cool.average = s.ev.n0 ∧ t.cool.zones = s.cool.zones) ∧
    (256 ≤ s.ev.n1 → s.ev.n1 ≤ 65536 → ∃ t, exec .framelenWrite s = .next t ∧ vat t.sched.frameNew s.ev.n0 = s.ev.n1 ∧
      t.sched.frameLen = s.sched.frameLen ∧ t.cool = s.cool) ∧
    (z = 100 → ∃ t, exec .valveControlStep s = .next t ∧ t.core = s.core ∧ t.mem = s.mem ∧
      Awaits t .valveControlStep 100 0 (s.cyc + nsCyc 10000) (s.cyc + nsCyc 10000)) ∧
    (z < 100 →
    zoneIs .valveControlStep (fun y t => y.flow = min s.ev.n1 255 ∧ y.alloc = v.alloc ∧ y.st = v.st ∧ (∀ k < 100, k ≠ z → t.zone k = s.zone k) ∧
      (v.st = 1 ∨ v.low = true → y.opening = v.opening) ∧ (v.st ≠ 1 → v.low = false → s.cool.enable = true → v.alloc = 0 → y.opening = 0) ∧
      (v.st ≠ 1 → v.low = false → s.cool.enable = true → s.ev.n1 < v.alloc → y.opening ≤ v.opening + 8 ∧ min v.opening 255 ≤ y.opening) ∧
      (v.st ≠ 1 → v.low = false → s.cool.enable = true → 0 < v.alloc → v.alloc < s.ev.n1 → y.opening ≤ v.opening ∧ v.opening ≤ y.opening + 8)) ∧
    (s.cool.ttrip ≤ hottest → s.cool.overFor ≤ s.ev.n1 → zoneIs .overtemp fun y t => y.flow = flow ∧ max y.temp0 y.temp1 = hottest ∧ reported t ∧
      (v.st = 0 → y.hot = true ∧ (mine s.core → t.core.task.throttle = 4)) ∧ (v.st ≠ 0 → y.hot = v.hot ∧ t.core = s.core)) ∧
    (hottest < s.cool.ttrip → zoneIs .overtemp fun y t => y.flow = flow ∧ y.hot = v.hot ∧ t.cool.ring = s.cool.ring ∧ t.core = s.core) ∧
    (hottest < s.cool.twarn → v.hot = true → zoneIs .overtempClear fun y t => y.hot = false ∧
      (v.st = 0 → mine s.core → t.core.task.throttle = 0)) ∧
    (s.cool.tcrit ≤ hottest → v.st = 0 → zoneIs .tcrit fun y t => y.st = 1 ∧ y.step = 2 ∧ y.retries = 0 ∧
      Awaits t .evacDrainExpire z 0 (s.cyc + nsCyc s.cool.evDrain) (s.cyc + nsCyc s.cool.evDrain) ∧ Awaits t .evacGangsStopped z 0 (s.cyc + 1) (s.cyc + 1)) ∧
    (100 * flow < s.cool.lowPct * v.alloc → v.st = 0 → s.cool.lowFor ≤ s.ev.n1 → zoneIs .lowflow fun y t => y.low = true ∧ y.opening = 255 ∧ reported t) ∧
    (s.cool.clearPct * v.alloc ≤ 100 * flow → zoneIs .lowflowClear fun y _ => y.low = false ∧ y.flow = flow) ∧
    (v.low = true → v.st = 0 → s.cool.persistFor ≤ s.ev.n1 → zoneIs .lowflowPersist fun y _ => y.st = 1 ∧ y.step = 2) ∧
    (100 * flow < s.cool.dryPct * v.alloc → v.st = 0 → s.cool.dryFor ≤ s.ev.n1 → s.ev.n2 + s.cool.dryRise ≤ hottest →
      zoneIs .dry fun y t => y.st = 1 ∧ y.step = 2 ∧ reported t) ∧
    (({ v with flow := flow } : Zone).disagrees s.cool.valveRange = true → s.cool.valveFor ≤ s.ev.n1 →
      zoneIs .valve fun y t => y.st = 2 ∧ y.step = 0 ∧ reported t) ∧
    (v.st = 1 → v.step = 2 → s.gangsIn z = [] → zoneIs .evacGangsStopped fun y t => y.st = 1 ∧ y.step = 3 ∧ y.opening = 0 ∧
      Awaits t .evacValveSettled z 0 (s.cyc + nsCyc s.cool.valveSettle) (s.cyc + nsCyc s.cool.valveSettle)) ∧
    (v.st = 1 → v.step = 2 → (∀ g ∈ s.gangsIn z, ¬ (g.evac = true ∧ g.policy = 1)) → exec .evacDrainExpire s = .next s) ∧
    (∀ g ∈ s.gangsIn z, v.st = 1 → v.step = 2 → g.evac = true → g.policy = 1 → g.task.nockpt = true →
      zoneIs .evacDrainExpire fun _ t => ∀ n ∈ g.live, Awaits t .taskKill n 5 s.cyc s.cyc) ∧
    (v.st = 1 → v.step = 3 → zoneIs .evacValveSettled fun y t => y.st = 1 ∧ y.step = 4 ∧ y.opening = v.opening ∧
      Awaits t .evacPurgeEnd z 0 (s.cyc + nsCyc s.cool.evAct) (s.cyc + nsCyc s.cool.evAct)) ∧
    (v.st = 1 → v.step = 4 → zoneIs .evacPurgeEnd fun y t => y.opening = 0 ∧ y.target = openingFor v.alloc ∧
      (v.alloc = 0 → y.step = 6 ∧ Awaits t .evacVerifyEnd z 0 (s.cyc + nsCyc s.cool.verifyT) (s.cyc + nsCyc s.cool.verifyT)) ∧
      (v.alloc ≠ 0 → y.step = 5 ∧ Awaits t .evacRampStep z 0 (s.cyc + nsCyc s.cool.rampStep) (s.cyc + nsCyc s.cool.rampStep))) ∧
    (v.st = 1 → v.step = 5 → zoneIs .evacRampStep fun y t => y.opening = min v.target (v.opening + 1) ∧
      (v.target ≤ v.opening + 1 → y.step = 6 ∧ Awaits t .evacVerifyEnd z 0 (s.cyc + nsCyc s.cool.verifyT) (s.cyc + nsCyc s.cool.verifyT)) ∧
      (v.opening + 1 < v.target → y.step = 5 ∧ Awaits t .evacRampStep z 0 (s.cyc + nsCyc s.cool.rampStep) (s.cyc + nsCyc s.cool.rampStep))) ∧
    (v.st = 1 → v.step = 6 → zoneIs .evacVerifyEnd fun y _ => ((v.verified && v.inRange) = true → y.st = 0 ∧ y.step = 0) ∧
      ((v.verified && v.inRange) = false → v.retries < s.cool.evRetry → y.st = 1 ∧ y.step = 4 ∧ y.retries = v.retries + 1) ∧
      ((v.verified && v.inRange) = false → s.cool.evRetry ≤ v.retries → y.st = 2)) ∧
    (s.ev.n1 ≤ 64 → s.ev.n1 + v.sched + v.prog ≤ 64 → s.ev.n1 ≤ s.poolFree + v.floor → zoneIs .vatFloorWrite fun y t =>
      y.floor = s.ev.n1 ∧ y.sched = v.sched ∧ y.prog = v.prog ∧ ∀ k < 100, k ≠ z → t.zone k = s.zone k) ∧
    (64 < s.ev.n1 ∨ 64 < s.ev.n1 + v.sched + v.prog ∨ s.poolFree + v.floor < s.ev.n1 → exec .vatFloorWrite s = .next s))

/-- R407, R418, R419, R405, R411: module power, and what the coolant table makes of a request: a grant moves units from the pool to the
zone and to the task's holding, a release moves at most what the task holds, every refusal leaves the table; the answer waits in the
fill. The corners of a held table are read as log entry 89 says. -/
def Obligations.PowerAndCoolantTable : Prop :=
  ∀ (s : State) (core z n : Nat),
    (s.ev.n0 ≤ 11600 → exec .powerOverlimit s = .next s) ∧
    (11600 < s.ev.n0 → ∃ t, exec .powerOverlimit s = .next t ∧ t.cool.average = s.ev.n0 ∧ t.cool.throttled = s.cool.throttled ∧
      ∀ d < 5, vat t.cool.limits d ≤ vat s.cool.limits d ∧ (0 < vat s.cool.limits d → vat t.cool.limits d < vat s.cool.limits d)) ∧
    (s.ev.n0 ≤ 12800 → exec .powerHardThrottle s = .next s) ∧
    (12800 < s.ev.n0 → exec .powerHardThrottle s = .next { s with cool := { s.cool with average := s.ev.n0, throttled := true } }) ∧
    (12000 ≤ s.ev.n0 → exec .powerThrottleEnd s = .next s) ∧
    (s.ev.n0 < 12000 → exec .powerThrottleEnd s = .next { s with cool := { s.cool with average := s.ev.n0, throttled := false } }) ∧
    (256 ≤ s.ev.n1 → s.ev.n1 ≤ 65536 → ∃ t, exec .framelenWrite s = .next t ∧ vat t.sched.frameNew s.ev.n0 = s.ev.n1 ∧
      t.sched.frameLen = s.sched.frameLen) ∧
    (s.ev.n1 < 256 ∨ 65536 < s.ev.n1 → exec .framelenWrite s = .next s) ∧
    (let v := s.zone z
     let held := heldIn (s.heldOf core) z
     let r (rel : Bool) := s.coolApply core rel z n
     (99 < z → ∀ rel, r rel = (coolWord 4 0 0, s)) ∧
     (z < 100 →
       (∀ rel, n = 0 ∨ 64 < n → r rel = (coolWord 5 0 v.alloc, s)) ∧
       (1 ≤ n → n ≤ 64 → v.st ≠ 0 → r false = (coolWord 3 0 v.alloc, s)) ∧
       (1 ≤ n → n ≤ 64 → v.st = 0 → 64 < v.alloc + n → r false = (coolWord 2 0 v.alloc, s)) ∧
       (1 ≤ n → n ≤ 64 → v.st = 0 → v.alloc + n ≤ 64 → s.poolFree < n → r false = (coolWord 1 0 v.alloc, s)) ∧
       (1 ≤ n → n ≤ 64 → v.st = 0 → v.alloc + n ≤ 64 → n ≤ s.poolFree → held ≠ 0 ∨ (s.heldOf core).length < 8 →
         (r false).1 = coolWord 0 n (v.alloc + n) ∧ ((r false).2.zone z).prog = v.prog + n ∧ (∀ y < 100, y ≠ z → (r false).2.zone y = s.zone y)) ∧
       (1 ≤ n → n ≤ 64 → held = 0 → r true = (coolWord 6 0 v.alloc, s)) ∧
       (1 ≤ n → n ≤ 64 → held ≠ 0 → ((r true).2.zone z).prog = v.prog - min n held ∧ (∀ y < 100, y ≠ z → (r true).2.zone y = s.zone y)))) ∧
    (∀ f, s.ev.n0 = s.core.num → s.ev.n2 = 2 → s.core.q.fillOf s.ev.n1 = some f → f.src = .request 1 z n →
      ∃ t, exec .longLatencyFill s = .next t ∧ t.cool = (s.coolApply s.core.num false z n).2.cool ∧
        (∀ x ∈ t.core.q.fills, x.uid = s.ev.n1 → x.src = .value (.word (s.coolApply s.core.num false z n).1)) ∧
        t.core.q.s = s.core.q.s ∧ t.core.q.sFull = s.core.q.sFull)

/-- R423, R424, R426, R431 to R434: the host's reads and writes of the BAR2 window, the steps of the reset and boot, and what each
mailbox command does: NOT_READY before the module is ready, MALFORMED for a command with other bytes, and its own effect. Statuses that
the command list does not spell out are the model's readings (log entries 102 to 104). -/
def Obligations.HostStepsComplete : Prop :=
  ∀ s : State,
    let h := s.host
    let c := s.ev.bytes
    let f := cmdField c
    let o := s.ev.n0
    let idle : Prop := h.fencing = false ∧ s.hostHeld = false
    let fine (code sub : Nat) (named : List (Nat × Nat)) : Prop := idle ∧ h.ready = true ∧ cmdOk c code sub named = true
    let answers (i : Instr) (status res : Nat) (p : State → Prop) : Prop :=
      ∃ t, exec i s = .next t ∧ t.host.mbstat = BitVec.ofNat 64 (status + f 4 4 * 2 ^ 32) ∧ t.host.mbres = BitVec.ofNat 64 res ∧
        t.host.vector0 = h.vector0 + 1 ∧ p t
    let gave (status : Nat) (t : State) : Prop := t.host.mbstat = BitVec.ofNat 64 (status + f 4 4 * 2 ^ 32)
    (∀ x ∈ ([(.status, 0x01, 0, [], true), (.mailboxFence, 0x02, 0, [], false), (.ctxload, 0x10, 0, [(8, 8), (16, 8), (24, 1)], false),
             (.ctxdestroy, 0x10, 1, [(8, 2)], false), (.ptinv, 0x11, 0, [(8, 2), (10, 1), (16, 8)], false), (.taskkill, 0x12, 0, [(8, 2)], false),
             (.qread, 0x13, 0, [(8, 1), (16, 8), (24, 4)], false), (.poolreg, 0x20, 0, [(8, 8), (16, 1)], false),
             (.streamopen, 0x21, 0, [(8, 8), (16, 1)], false), (.streamclose, 0x21, 1, [(8, 2)], false),
             (.mtabload, 0x21, 2, [(8, 1), (12, 4), (16, 8), (24, 1)], false), (.route, 0x22, 0, [(8, 1), (12, 4), (16, 4), (24, 8), (32, 1)], false),
             (.group, 0x22, 1, [(8, 4), (12, 4), (16, 8), (24, 1)], false), (.fwload, 0x30, 0, [(8, 8), (16, 4), (20, 1)], true),
             (.fwcommit, 0x30, 1, [], false), (.cert, 0x31, 0, [(8, 8), (16, 4)], true), (.quote, 0x31, 1, [(8, 32), (40, 8)], false)] :
            List (Instr × Nat × Nat × List (Nat × Nat) × Bool)),
      idle → (x.2.2.2.2 = false → h.ready = false → answers x.1 1 0 fun t => t.mem = s.mem ∧ t.core = s.core ∧ t.host.meas = h.meas) ∧
        (h.ready = true → cmdOk c x.2.1 x.2.2.1 x.2.2.2.1 = false → answers x.1 2 0 fun t => t.mem = s.mem ∧ t.core = s.core ∧ t.host.meas = h.meas)) ∧
    (fine 0x01 0 [] → answers .status 0 h.bootstat fun t => t.core = s.core) ∧
    (fine 0x02 0 [] →
      ((∀ e ∈ s.mem.emitted, e.org ≠ some barOrg) → answers .mailboxFence 0 0 fun t => t.mem = s.mem) ∧
      ((∃ e ∈ s.mem.emitted, e.org = some barOrg) → ∃ t, exec .mailboxFence s = .next t ∧ t.host.fencing = true ∧
        Awaits t .mailboxFence 1 s.ev.n1 (s.cyc + 1) (s.cyc + 1))) ∧
    (∀ a, fine 0x10 0 [(8, 8), (16, 8), (24, 1)] → f 8 8 / 2 ^ 43 % 2 ^ 21 = 0 → f 8 8 % 2 ^ 14 = 0 → f 16 8 / 2 ^ 51 % 2 ^ 13 = 0 →
      f 16 8 % 2 ^ 17 = 0 → s.freeAsn = some a → answers .ctxload 0 (h.nextCtx + a * 2 ^ 16) fun t => t.host.contexts = h.contexts ++
        [{ num := h.nextCtx, asn := a, ptroot := BitVec.ofNat 64 (f 8 8), csave := BitVec.ofNat 64 (f 16 8), profile := BitVec.ofNat 8 (f 24 1) }]) ∧
    (∀ x, fine 0x10 1 [(8, 2)] → h.contexts.find? (fun x => x.num == f 8 2) = some x → answers .ctxdestroy 0 0 fun t =>
      (∀ y ∈ t.host.contexts, y.num ≠ x.num) ∧ ∀ e ∈ t.core.task.tlb, e.asn ≠ x.asn) ∧
    (fine 0x11 0 [(8, 2), (10, 1), (16, 8)] → f 8 2 ≤ 4095 → f 10 1 ≤ 1 → f 16 8 < 2 ^ 51 → answers .ptinv 0 0 fun t =>
      ∀ e ∈ t.core.task.tlb, e ∈ s.core.task.tlb ∧ ¬ (e.asn = f 8 2 ∧ (f 10 1 = 1 ∨ (e.va ≤ f 16 8 ∧ f 16 8 < e.va + e.size)))) ∧
    (fine 0x12 0 [(8, 2)] → f 8 2 ≤ 1023 →
      ((s.coreAt (f 8 2)).status = .idle → answers .taskkill 3 0 fun t => t.core = s.core) ∧
      ((s.coreAt (f 8 2)).status ≠ .idle → answers .taskkill 0 0 fun t => Awaits t .taskKill (f 8 2) 4 s.cyc s.cyc)) ∧
    (fine 0x13 0 [(8, 1), (16, 8), (24, 4)] → f 8 1 ≤ 3 → f 16 8 + 128 * f 24 4 ≤ 2 ^ 36 →
      let mine := s.sched.quar.filter fun q => q.die == f 8 1
      answers .qread 0 (min (f 24 4) mine.length) fun t =>
        t.sched.quar.filter (fun q => q.die == f 8 1) = mine.drop (f 24 4) ∧
        t.sched.quar.filter (fun q => q.die != f 8 1) = s.sched.quar.filter (fun q => q.die != f 8 1)) ∧
    (fine 0x20 0 [(8, 8), (16, 1)] → ∃ t, exec .poolreg s = .next t ∧
      ((∃ p, gave 0 t ∧ t.rack.pools = s.rack.pools ++ [p] ∧ t.host.mbres = BitVec.ofNat 64 s.rack.pools.length ∧ (∀ y ∈ s.rack.pools, y.ctx ≠ p.ctx) ∧
          1 ≤ p.nblk ∧ p.poolva % 2 ^ 15 = 0 ∧ p.free = List.range p.frames ∧ p.reqs = [] ∧
          ∃ e, Awaits t .rackRequestComplete s.rack.pools.length 0 (s.cyc + 1) e) ∨
        (t.rack.pools = s.rack.pools ∧ (gave 2 t ∨ gave 3 t)))) ∧
    (∀ b, fine 0x20 0 [(8, 8), (16, 1)] → s.localBytes (f 16 1) (f 8 8) 128 = some b → s.poolBad b = false →
      (∀ y ∈ s.rack.pools, y.ctx ≠ (poolOf b).ctx) → answers .poolreg 0 s.rack.pools.length fun t =>
        t.rack.pools = s.rack.pools ++ [poolOf b] ∧ t.core = s.core ∧ t.mem = s.mem) ∧
    (∀ b, fine 0x21 0 [(8, 8), (16, 1)] → s.localBytes (f 16 1) (f 8 8) 64 = some b → s.streamBad b = false → s.streamAt (streamOf b).id = none →
      answers .streamopen 0 0 fun t => t.tfe.streams = s.tfe.streams ++ [streamOf b] ∧ t.core = s.core ∧ t.mem = s.mem) ∧
    (fine 0x21 0 [(8, 8), (16, 1)] → ∃ t, exec .streamopen s = .next t ∧
      ((∃ (x : Stream) (e : Nat), gave 0 t ∧ t.tfe.streams = s.tfe.streams ++ [x] ∧ s.streamAt x.id = none ∧ x.id ≤ 1023 ∧ 1024 ≤ x.maxout ∧ x.maxout ≤ 2 ^ 26 ∧
          x.msgs = [] ∧ x.read = 0 ∧ Awaits t .messageDescriptor x.id 0 (s.cyc + 1) e) ∨
        (t.tfe.streams = s.tfe.streams ∧ (gave 2 t ∨ gave 3 t)))) ∧
    (∀ x, fine 0x21 1 [(8, 2)] → f 8 2 ≤ 1023 → s.streamAt (f 8 2) = some x → (∀ y ∈ s.tfe.streams, y.id = f 8 2 → y = x) → answers .streamclose 0 0 fun t =>
      t.streamAt (f 8 2) = some x.closed ∨ t.tfe.streams = s.tfe.streams.filter fun y => y.id != f 8 2) ∧
    (∀ b, fine 0x21 2 [(8, 1), (12, 4), (16, 8), (24, 1)] → f 8 1 ≤ 3 → f 12 4 ≤ 2 ^ 18 → s.localBytes (f 24 1) (f 16 8) (8 * f 12 4) = some b →
      let es := (List.range (f 12 4)).map fun m => let e := cmdField b (8 * m) 8; (nbits e 0 19, nbits e 19 19, nbits e 38 26)
      (∀ m < f 12 4, (es.getD m (0, 0, 0)).1 < 256 + m ∧ (es.getD m (0, 0, 0)).2.1 < 256 + m ∧ (es.getD m (0, 0, 0)).2.2 = 0) →
      (List.range 4).foldl (fun (k : Nat) i => if i = f 8 1 then k else k + (vat s.tfe.tables i).length) 0 + f 12 4 ≤ 2 ^ 18 →
      (∀ y ∈ s.tfe.streams, y.mtab ≠ f 8 1) → answers .mtabload 0 0 fun t => vat t.tfe.tables (f 8 1) = es.map fun e => (e.1, e.2.1)) ∧
    (∀ b, fine 0x22 0 [(8, 1), (12, 4), (16, 4), (24, 8), (32, 1)] → f 8 1 ≤ 1 → f 12 4 + f 16 4 ≤ (if f 8 1 = 0 then 8192 else 256) →
      s.localBytes (f 32 1) (f 24 8) (2 * f 16 4) = some b → (∀ i < f 16 4, cmdField b (2 * i) 1 ≤ 15 ∧ cmdField b (2 * i + 1) 1 ≤ 15) →
      answers .route 0 0 fun t => ∀ i < f 16 4, (f 12 4 + i, cmdField b (2 * i) 1, cmdField b (2 * i + 1) 1) ∈
        (if f 8 1 = 0 then t.fab.groupTab else t.fab.memberTab)) ∧
    (∀ b, fine 0x22 1 [(8, 4), (12, 4), (16, 8), (24, 1)] → 1 ≤ f 12 4 → f 12 4 ≤ 65535 → s.localBytes (f 24 1) (f 16 8) (4 * f 12 4) = some b →
      (∀ i < f 12 4, cmdField b (4 * i) 4 < 2 ^ 23) → answers .group 0 0 fun t =>
        t.pe.groups.find? (fun x => x.1 == f 8 4) = some (f 8 4, (List.range (f 12 4)).map fun i => BitVec.ofNat 32 (cmdField b (4 * i) 4))) ∧
    (fine 0x30 0 [(8, 8), (16, 4), (20, 1)] → f 20 1 ≤ 1 → 256 < f 16 4 → f 16 4 ≤ 256 + 2 ^ 28 → f 8 8 + f 16 4 ≤ 2 ^ 36 →
      answers .fwload 0 0 fun t => t.host.minEpoch = h.minEpoch ∧ (if f 20 1 = 0 then t.host.flashA = s.winRead (f 8 8) (f 16 4) ∧ t.host.flashB = h.flashB
        else t.host.flashB = s.winRead (f 8 8) (f 16 4) ∧ t.host.flashA = h.flashA)) ∧
    (fine 0x30 1 [] → answers .fwcommit 0 (max h.minEpoch h.epoch.toNat) fun t => t.host.minEpoch = max h.minEpoch h.epoch.toNat) ∧
    (let bs := ed25519Public Config.identitySeed ++ Config.certificate
     fine 0x31 0 [(8, 8), (16, 4)] → f 8 8 + f 16 4 ≤ 2 ^ 36 →
     (f 16 4 < bs.length → answers .cert 3 0 fun t => t.mem = s.mem) ∧
     (bs.length ≤ f 16 4 → answers .cert 0 bs.length fun t => t.mem = (s.winWrite (f 8 8) bs).mem)) ∧
    (fine 0x31 1 [(8, 32), (40, 8)] → f 40 8 + 376 ≤ 2 ^ 36 →
      let q := s.quoteBody ((c.drop 8).take 32)
      answers .quote 0 376 fun t => t.mem = (s.winWrite (f 40 8) (q ++ ed25519Sign Config.identitySeed q)).mem) ∧
    (s.hostHeld = false → s.mem.badLines = [] →
      (o + s.ev.n1 ≤ 2 ^ 36 → exec .bar2Read s = .next { s with host := { h with bar2 := some (s.winRead o s.ev.n1) } }) ∧
      (c ≠ [] → o + c.length ≤ 2 ^ 36 → ∃ t, exec .bar2Write s = .next t ∧ OtherViews s t (winDie h.winbase) ∧
        vat t.mem.views (winDie h.winbase) = Mem.writeAll (vat s.mem.views (winDie h.winbase)) (spanAt (s.winKey o) c))) ∧
    (s.hostHeld = false →
      let w := s.ev.w
      (w.toNat % 2 ^ 4 ≤ 11 → w.toNat / 2 ^ 4 % 2 ^ 4 = 0 → w.toNat / 2 ^ 10 = 0 →
        exec .winbaseWrite s = .next { s with host := { h with winbase := w } }) ∧
      (11 < w.toNat % 2 ^ 4 ∨ w.toNat / 2 ^ 4 % 2 ^ 4 ≠ 0 ∨ w.toNat / 2 ^ 10 ≠ 0 → exec .winbaseWrite s = .next s)) ∧
    (o = 0 → ∃ t, exec .moduleReset s = .next t ∧ t.core = State.reset.core ∧ t.peers = [] ∧ t.mem = State.reset.mem ∧ t.pe = State.reset.pe ∧
      t.tfe = State.reset.tfe ∧ { t.cool with zones := State.reset.cool.zones } = State.reset.cool ∧
      (∀ z < 100, t.zone z = if (s.zone z).st = 2 then { State.reset.zone z with st := 2 } else State.reset.zone z) ∧
      t.host.diefail = h.diefail ∧ t.rack.cellar = s.rack.cellar ∧ t.rack.pools = [] ∧ t.host.flashA = h.flashA ∧
      t.host.flashB = h.flashB ∧ t.host.minEpoch = h.minEpoch ∧ t.host.boots = h.boots + 1 ∧ t.host.ready = false ∧ t.fab.node = s.fab.node) ∧
    (o ≠ 0 → h.recov = false → h.ready = false → ∃ t, exec .moduleReset s = .next t ∧ t.host.bootStep = BitVec.ofNat 4 (min o 9) ∧ (o ≠ 6 → t.core = s.core) ∧
      (9 ≤ o → t.host.ready = true) ∧ (o < 9 → t.host.ready = false)) ∧
    (let v := s.ev.w
     (h.ready = true → exec .registerWrite s = .next (s.putRegister s.ev.t v)) ∧
     (∀ i : Nat, s.ev.t = .sched i → ∃ t, exec .registerWrite s = .next t ∧ (i = 0 → t.sched.prewait = v.toNat) ∧ (i = 1 → t.sched.predrain = v.toNat) ∧
       (i = 2 → t.sched.ydl = v.toNat) ∧ (h.ready = false → vat t.host.meas 2 =
         sha512 (vat h.meas 2 ++ sha512 (Config.settingBytes (18 * 4096 + i) v)))) ∧
     (∀ i : Nat, s.ev.t = .pe i 0x010 → ∃ t, exec .registerWrite s = .next t ∧
       vat t.pe.ovfBase i = if v.toNat % 2 ^ 20 = 0 then v else vat s.pe.ovfBase i) ∧
     (∀ i < 5, s.ev.t = .cool (0x040 + 8 * i) → ∃ t, exec .registerWrite s = .next t ∧
       let ls := vput s.cool.setLimits i v.toNat
       t.cool = if ls.toList.foldl (· + ·) 0 ≤ 12800 then ({ s.cool with setLimits := ls }).scaled else s.cool))

/-! The whole machine. -/

/-- R6, R56, R59, R61, R82: a due device step is taken first, the earliest listed, a grant of power only once every core has had its turn
(R315), and every device step answers a next state; else,
when the core in focus may issue and the line of the PC is entered or is read and accepted, step runs the instruction that the bytes at
the PC decode to, with its fields in the instruction register, and the turn ends. R216: a fetch whose page the L1 TLB does not hold
waits for a walk. A line of another module is asked for and waited for. That due steps come before issue, and the turns of the cores,
are the model's choices (log entries 4 and 6), and so is the READ for a line of another module (log entry 108). -/
def Obligations.StepRunsDecodedInstruction : Prop :=
  ∀ s : State,
    let c := s.core
    let q := c.q
    let enters := q.entering || decide (pcLine q.pc ≠ q.line.num)
    (∀ i, opcodeOf i = none → ∃ t, exec i s = .next t) ∧
    (∀ e, s.agenda.find? (fun e => decide (e.due ≤ s.cyc) && (s.sched.late || !e.isLate)) = some e →
      step s = exec e.op { s with agenda := s.agenda.erase e, ev := e.arg }) ∧
    ((∀ e ∈ s.agenda, s.cyc < e.due ∨ (e.isLate = true ∧ s.sched.late = false)) → (s.sched.late = true → q.asked = true) →
      c.status = .running → q.nextIssue ≤ s.cyc → q.rerun = false →
      (q.verdict.isSome = true ∨ ((c.trap.thm = true ∨ c.trap.due = []) ∧ (c.trap.thm = true ∨ ∀ b, c.dbg.brk = some b → b.ready = false) ∧
        (c.trap.thm = true ∨ (q.innermost q.pc).isSome = true ∨ c.dbg.matched q.pc = none))) →
      s.throttledNow = false →
      (enters = true → s.fetchMisses (128 * (pcLine q.pc).toNat) = true → step s = .next (s.startWalk (128 * (pcLine q.pc).toNat)).endTurn) ∧
      (∀ p : Place, enters = true → s.fetchMisses (128 * (pcLine q.pc).toNat) = false → s.lineAway c q.pc = some p →
        step s = .next (s.askLine q.pc p).endTurn) ∧
      ∀ (l : Line) (i : Instr) (x : Operands) (rest : List Byte),
      ((enters = false ∧ l = q.line) ∨
        (enters = true ∧ s.fetchMisses (128 * (pcLine q.pc).toNat) = false ∧ s.readLine c q.pc = .line l ∧ l.fault = none ∧ q.badEnd l = none ∧
          (q.unchecked = true → s.badTarget c q.pc false = false))) →
      pcMid q.pc = 0 → l.start (pcSlot q.pc) = true →
      decode (leBytes 5 (l.slot (pcSlot q.pc)).toNat ++ leBytes 5 (l.slot (pcSlot q.pc + 1)).toNat) = .ok ((i, x), rest) →
      step s = match exec i { s with core := { c with q := { q with
          line := l, entering := false, ir := issueFields i x, far := if enters then none else q.far,
          unchecked := if enters then false else q.unchecked } } } with
        | .next t => .next t.endTurn
        | .fault r => .fault r
        | .refused r => .refused r)

/-- R81, R82: words that the spec writes out, of the scalar, control, vector, tile, progress, transfer, task and matrix families, decode
to the instructions it writes them for. -/
def Obligations.KnownWordsDecode : Prop :=
  decodeWord 0x00804083F2 = .ok (.vaddF32Short, .short { dst := 3, sa := 2, sb := 4, pd := 1 }) ∧
  decodeWord 0x002A0100000001000061 = .ok (.loopi, .long { sb := 4, imm := 0x002A01 }) ∧
  decodeWord 0x0000031000003F430052 = .ok (.brci, .long { sa := 3, sb := 61, sc := 3, md := 1, imm := 3 }) ∧
  decodeWord 0x00000000020000C20A10 = .ok (.twrow, .long { dst := 2, sa := 2, sb := 3, pd := 1 }) ∧
  decodeWord 0x0FA0000001000CF41B02 = .ok (.fwait, .long { dst := 6, sa := 52, sb := 51, emp := 1, imm := 0x0FA000 }) ∧
  decodeWord 0x000000200101E00426C0 = .ok (.cpy, .long { dst := 9, sa := 4, sc := 30, emp := 1, md := 2 }) ∧
  decodeWord 0x00000000010009479F40 = .ok (.tspawn, .long { dst := 39, sa := 7, sb := 37, emp := 1 }) ∧
  decodeWord 0x00000011000006CE0283 = .ok (.mstream, .long { sa := 14, sb := 27, ty := 1, md := 1 })

/-- The memories keep their canonical form at reset (a property of the model's own memory form). The memory form is the model's choice
(log entry 1). -/
def Obligations.ResetMeetsInvariant : Prop :=
  MemoryCanonical State.reset

/-- Every step keeps the canonical form of every die's view of main memory and of the Cellar, so that equal memories are equal data. The
memory form is the model's choice (log entry 1). -/
def Obligations.StepKeepsInvariant : Prop :=
  ∀ s t : State, MemoryCanonical s → step s = .next t → MemoryCanonical t

/-- R4, R81, R82, R99: decoding the encoding of a well-formed instruction gives it back, with every operand at every value its field
admits, and leaves the bytes after it; and every word the decoder accepts is the encoding of a well-formed instruction. -/
def Obligations.EncodingRoundTrips : Prop :=
  (∀ (i : Instr) (x : Operands) (rest : List Byte), WellFormed.check i x = true → decode (encode i x ++ rest) = .ok ((i, x), rest)) ∧
  (∀ (w : Nat) (i : Instr) (x : Operands), w < (if isShort w then 2 ^ 40 else 2 ^ 80) → decodeWord w = .ok (i, x) →
    WellFormed.check i x = true ∧ encodeWord i x = some (if isShort w then 1 else 2, w))

/-- R248, R383, R396, R186: no instruction changes a byte of main memory in its issue cyc but the ones that write trace records, TRMARK,
CAPSTOP and CLKFREE, and the ones that write tile registers to their save slots, TSPILL_SAVE, and TCFG and CSRWR_TSHP of a register that is
lazily marked: what it stores leaves as an access under way. For an instruction that ends no loop's body. That a store leaves as
an access under way is the model's form (log entries 13 and 21). -/
def Obligations.NoIssueWritesMemory : Prop :=
  ∀ (i : Instr) (s t : State), opcodeOf i ≠ none → i ∉ [Instr.trmark, .capstop, .clkfree, .tspillSave] →
    (i ∈ [Instr.tcfg, .csrwrTshp] → ∀ n < 16, (s.reg n).lazyMark = false) → Straight s → exec i s = .next t →
    t.mem.views = s.mem.views ∧ ∀ d key n, t.readView d key n = s.readView d key n

/-- R248, R255: a write at its home is read there at once, byte for byte, and is listed for the views of the three other dies, which
keep what they had; every other byte, and the canonical form, is kept. Views and clocks are the model's own form (log entry 21). -/
def Obligations.EmittedWriteIsReadAtHome : Prop :=
  ∀ (s : State) (home : Nat) (bs : List (Nat × Byte)) (org : Option (Nat × Nat)),
    let t := s.emitWrite home bs org
    let m := vat t.mem.views home
    Mem.wf (vat s.mem.views home) = true →
    Mem.wf m = true ∧ OtherViews s t home ∧
    (∀ a, (∀ p ∈ bs, p.1 ≠ a) → Mem.read m a = Mem.read (vat s.mem.views home) a) ∧
    (∀ a b, bs.reverse.find? (fun p => p.1 == a) = some (a, b) → Mem.read m a = b) ∧
    (∃ w ∈ t.mem.emitted, w.bytes = bs ∧ w.src = home % 4 ∧ w.todo = [0, 1, 2, 3].filter (fun d => d != home % 4) ∧
      ∀ d ∈ w.todo, ∃ e, Awaits t .dieViewApply d w.uid (s.cyc + 1) e)

end
end

