-- ==== Sys2Proof/Laws/Issue.lean ====
section
/-! SUPPORT. What issuing an instruction comes to: the gate's outcomes, a taken effect, and retiring in sequential flow. -/

namespace Sys2Proof.Laws

open Sys2Proof Machine Safety

/-! The four outcomes of the gate (R68). -/

theorem issueWith_trap {sh : Shape} {lat : Option Nat} {own : State → Option State} {lanes : Bool} {body : State → Res} {s : State}
    {t : TrapInfo} (h : gate sh lat s = .trap t) : issueWith sh lat own lanes body s = .next (s.takeTrap t s.core.q.pc) := by
  simp [issueWith, h]

theorem issueWith_wait {sh : Shape} {lat : Option Nat} {own : State → Option State} {lanes : Bool} {body : State → Res} {s : State}
    (h : gate sh lat s = .wait) : issueWith sh lat own lanes body s = .next (s.held true) := by
  simp [issueWith, h]

theorem issueWith_hold {sh : Shape} {lat : Option Nat} {own : State → Option State} {lanes : Bool} {body : State → Res} {s : State}
    (h : gate sh lat s = .hold) : issueWith sh lat own lanes body s = .next s.held := by
  simp [issueWith, h]

theorem issueWith_own {sh : Shape} {lat : Option Nat} {own : State → Option State} {lanes : Bool} {body : State → Res} {s t : State}
    (h : gate sh lat s = .pass) (ho : own s = some t) : issueWith sh lat own lanes body s = .next t.heldOwn := by
  simp [issueWith, h, ho]

theorem issueWith_off {sh : Shape} {lat : Option Nat} {own : State → Option State} {body : State → Res} {s : State}
    (h : gate sh lat s = .pass) (ho : own s = none) (hp : predOn s.core.q s.core.q.ir = false) :
    issueWith sh lat own false body s = .next (s.retireSeq s lat) := by
  simp [issueWith, h, ho, hp]

theorem issueWith_pass {sh : Shape} {lat : Option Nat} {own : State → Option State} {lanes : Bool} {body : State → Res} {s : State}
    (h : gate sh lat s = .pass) (ho : own s = none) (hp : lanes = true ∨ predOn s.core.q s.core.q.ir = true) :
    issueWith sh lat own lanes body s = s.conclude lat (body (s.noteReads sh)) := by
  rcases hp with hp | hp <;> simp [issueWith, h, ho, hp]

/-! Noting reads (R387). -/

theorem noteReads_of_no_vector {sh : Shape} (s : State) (ha : sh.sa ≠ .v) (hb : sh.sb ≠ .v) (hc : sh.sc ≠ .v) :
    s.noteReads sh = s := by
  simp [State.noteReads, ha, hb, hc]

@[simp] theorem noteReads_q (s : State) (sh : Shape) : (s.noteReads sh).core.q = s.core.q := by
  unfold State.noteReads; dsimp only; split <;> rfl

@[simp] theorem noteReads_cyc (s : State) (sh : Shape) : (s.noteReads sh).cyc = s.cyc := by
  unfold State.noteReads; dsimp only; split <;> rfl

/-! Retiring (R119). -/

theorem endingAt_loops {q r : SeqSt} (h : r.loops = q.loops) (pc : PC) : r.endingAt pc = q.endingAt pc := by
  simp [SeqSt.endingAt, h]

theorem retireSeq_straight {s t : State} {lat : Option Nat} (hs : Straight s) (hl : t.core.q.loops = s.core.q.loops) :
    s.retireSeq t lat = retired s t lat := by
  have he : t.core.q.endingAt s.core.q.pc = [] := by rw [endingAt_loops hl]; exact hs
  simp [State.retireSeq, he, State.backEdge, retired]

/-- A taken effect that leaves the loops alone retires in sequential flow. -/
theorem conclude_done {s t : State} {lat : Option Nat} (hs : Straight s) (hl : t.core.q.loops = s.core.q.loops) :
    s.conclude lat (.done t) = .next (retired s t lat) := by
  simp [State.conclude, retireSeq_straight hs hl]

/-! Writing a register leaves the loops alone. -/

@[simp] theorem put_loops (q : SeqSt) (r : RegRef) (v : RegVal) : (q.put r v).loops = q.loops := by
  cases r <;> cases v <;> simp [SeqSt.put, SeqSt.setS, SeqSt.setV, SeqSt.setM] <;> split <;> rfl

@[simp] theorem writeReg_loops (s : State) (l : Nat) (r : RegRef) (v : RegVal) : (s.writeReg l r v).core.q.loops = s.core.q.loops := by
  unfold State.writeReg; split <;> simp [State.modQ]

@[simp] theorem writeS_loops (s : State) (l : Nat) (n : BitVec 6) (x : Word) : (s.writeS l n x).core.q.loops = s.core.q.loops := by
  simp [State.writeS]

@[simp] theorem writeM_loops (s : State) (l : Nat) (n : BitVec 6) (en x : BitVec 64) :
    (s.writeM l n en x).core.q.loops = s.core.q.loops := by
  simp [State.writeM]

@[simp] theorem writeV_loops (s : State) (l : Nat) (n : BitVec 6) (en : BitVec 64) (x : LaneVec) :
    (s.writeV l n en x).core.q.loops = s.core.q.loops := by
  unfold State.writeV; dsimp only; split <;> simp [CoreSt.modPh]

@[simp] theorem fitTo_loops (s : State) (l : Nat) (v : Int) : (s.fitTo l v).core.q.loops = s.core.q.loops := by
  unfold State.fitTo; dsimp only; split <;> simp [CoreSt.charge, CoreSt.modCnt]

/-- A scalar or control instruction whose effect leaves the loops alone. -/
theorem issue_done {sh : Shape} {lat : Option Nat} {body : State → Res} {s t : State} (h : Ready sh lat s)
    (hn : s.noteReads sh = s) (hb : body s = .done t) (hl : t.core.q.loops = s.core.q.loops) :
    issue sh lat body s = .next (retired s t lat) := by
  rw [issue, issueWith_pass h.1 rfl (.inr h.2.1), hn, hb, conclude_done h.2.2 hl]

end Sys2Proof.Laws
end

