-- ==== Sys2Proof/Laws/State.lean ====
section
/-! SUPPORT. One lemma per field per update of the state and of a core, true by definition. -/

namespace Sys2Proof.Laws

open Sys2Proof Machine

/-! A change of the sequencer of the core in focus. -/

@[simp] theorem modQ_cyc (s : State) (f : SeqSt → SeqSt) : (s.modQ f).cyc = s.cyc := rfl
@[simp] theorem modQ_fresh (s : State) (f : SeqSt → SeqSt) : (s.modQ f).fresh = s.fresh := rfl
@[simp] theorem modQ_uid (s : State) (f : SeqSt → SeqSt) : (s.modQ f).uid = s.uid := rfl
@[simp] theorem modQ_agenda (s : State) (f : SeqSt → SeqSt) : (s.modQ f).agenda = s.agenda := rfl
@[simp] theorem modQ_ev (s : State) (f : SeqSt → SeqSt) : (s.modQ f).ev = s.ev := rfl
@[simp] theorem modQ_core (s : State) (f : SeqSt → SeqSt) : (s.modQ f).core = { s.core with q := f s.core.q } := rfl
@[simp] theorem modQ_peers (s : State) (f : SeqSt → SeqSt) : (s.modQ f).peers = s.peers := rfl
@[simp] theorem modQ_mem (s : State) (f : SeqSt → SeqSt) : (s.modQ f).mem = s.mem := rfl
@[simp] theorem modQ_pe (s : State) (f : SeqSt → SeqSt) : (s.modQ f).pe = s.pe := rfl
@[simp] theorem modQ_sched (s : State) (f : SeqSt → SeqSt) : (s.modQ f).sched = s.sched := rfl
@[simp] theorem modQ_fab (s : State) (f : SeqSt → SeqSt) : (s.modQ f).fab = s.fab := rfl
@[simp] theorem modQ_rack (s : State) (f : SeqSt → SeqSt) : (s.modQ f).rack = s.rack := rfl
@[simp] theorem modQ_tfe (s : State) (f : SeqSt → SeqSt) : (s.modQ f).tfe = s.tfe := rfl
@[simp] theorem modQ_cool (s : State) (f : SeqSt → SeqSt) : (s.modQ f).cool = s.cool := rfl
@[simp] theorem modQ_host (s : State) (f : SeqSt → SeqSt) : (s.modQ f).host = s.host := rfl

/-! The agenda and the counters of the model. -/

@[simp] theorem schedule_cyc (s : State) (d : Nat) (op : Instr) (a : EvArg) : (s.schedule d op a).cyc = s.cyc := rfl
@[simp] theorem schedule_fresh (s : State) (d : Nat) (op : Instr) (a : EvArg) : (s.schedule d op a).fresh = s.fresh := rfl
@[simp] theorem schedule_uid (s : State) (d : Nat) (op : Instr) (a : EvArg) : (s.schedule d op a).uid = s.uid := rfl
@[simp] theorem schedule_agenda (s : State) (d : Nat) (op : Instr) (a : EvArg) :
    (s.schedule d op a).agenda = s.agenda ++ [{ due := s.cyc + d, op := op, arg := a }] := rfl
@[simp] theorem schedule_ev (s : State) (d : Nat) (op : Instr) (a : EvArg) : (s.schedule d op a).ev = s.ev := rfl
@[simp] theorem schedule_core (s : State) (d : Nat) (op : Instr) (a : EvArg) : (s.schedule d op a).core = s.core := rfl
@[simp] theorem schedule_peers (s : State) (d : Nat) (op : Instr) (a : EvArg) : (s.schedule d op a).peers = s.peers := rfl
@[simp] theorem schedule_mem (s : State) (d : Nat) (op : Instr) (a : EvArg) : (s.schedule d op a).mem = s.mem := rfl
@[simp] theorem schedule_pe (s : State) (d : Nat) (op : Instr) (a : EvArg) : (s.schedule d op a).pe = s.pe := rfl
@[simp] theorem schedule_sched (s : State) (d : Nat) (op : Instr) (a : EvArg) : (s.schedule d op a).sched = s.sched := rfl
@[simp] theorem schedule_fab (s : State) (d : Nat) (op : Instr) (a : EvArg) : (s.schedule d op a).fab = s.fab := rfl
@[simp] theorem schedule_rack (s : State) (d : Nat) (op : Instr) (a : EvArg) : (s.schedule d op a).rack = s.rack := rfl
@[simp] theorem schedule_tfe (s : State) (d : Nat) (op : Instr) (a : EvArg) : (s.schedule d op a).tfe = s.tfe := rfl
@[simp] theorem schedule_cool (s : State) (d : Nat) (op : Instr) (a : EvArg) : (s.schedule d op a).cool = s.cool := rfl
@[simp] theorem schedule_host (s : State) (d : Nat) (op : Instr) (a : EvArg) : (s.schedule d op a).host = s.host := rfl
@[simp] theorem takeUid_cyc (s : State) : (s.takeUid.2).cyc = s.cyc := rfl
@[simp] theorem takeUid_fresh (s : State) : (s.takeUid.2).fresh = s.fresh := rfl
@[simp] theorem takeUid_uid (s : State) : (s.takeUid.2).uid = s.uid + 1 := rfl
@[simp] theorem takeUid_agenda (s : State) : (s.takeUid.2).agenda = s.agenda := rfl
@[simp] theorem takeUid_ev (s : State) : (s.takeUid.2).ev = s.ev := rfl
@[simp] theorem takeUid_core (s : State) : (s.takeUid.2).core = s.core := rfl
@[simp] theorem takeUid_peers (s : State) : (s.takeUid.2).peers = s.peers := rfl
@[simp] theorem takeUid_mem (s : State) : (s.takeUid.2).mem = s.mem := rfl
@[simp] theorem takeUid_pe (s : State) : (s.takeUid.2).pe = s.pe := rfl
@[simp] theorem takeUid_sched (s : State) : (s.takeUid.2).sched = s.sched := rfl
@[simp] theorem takeUid_fab (s : State) : (s.takeUid.2).fab = s.fab := rfl
@[simp] theorem takeUid_rack (s : State) : (s.takeUid.2).rack = s.rack := rfl
@[simp] theorem takeUid_tfe (s : State) : (s.takeUid.2).tfe = s.tfe := rfl
@[simp] theorem takeUid_cool (s : State) : (s.takeUid.2).cool = s.cool := rfl
@[simp] theorem takeUid_host (s : State) : (s.takeUid.2).host = s.host := rfl
@[simp] theorem takeUid_fst (s : State) : s.takeUid.1 = s.uid := rfl
@[simp] theorem freeCyc_cyc (s : State) (lo hi : Nat) : ((s.freeCyc lo hi).2).cyc = s.cyc := rfl
@[simp] theorem freeCyc_fresh (s : State) (lo hi : Nat) : ((s.freeCyc lo hi).2).fresh = s.fresh + 1 := rfl
@[simp] theorem freeCyc_uid (s : State) (lo hi : Nat) : ((s.freeCyc lo hi).2).uid = s.uid := rfl
@[simp] theorem freeCyc_agenda (s : State) (lo hi : Nat) : ((s.freeCyc lo hi).2).agenda = s.agenda := rfl
@[simp] theorem freeCyc_ev (s : State) (lo hi : Nat) : ((s.freeCyc lo hi).2).ev = s.ev := rfl
@[simp] theorem freeCyc_core (s : State) (lo hi : Nat) : ((s.freeCyc lo hi).2).core = s.core := rfl
@[simp] theorem freeCyc_peers (s : State) (lo hi : Nat) : ((s.freeCyc lo hi).2).peers = s.peers := rfl
@[simp] theorem freeCyc_mem (s : State) (lo hi : Nat) : ((s.freeCyc lo hi).2).mem = s.mem := rfl
@[simp] theorem freeCyc_pe (s : State) (lo hi : Nat) : ((s.freeCyc lo hi).2).pe = s.pe := rfl
@[simp] theorem freeCyc_sched (s : State) (lo hi : Nat) : ((s.freeCyc lo hi).2).sched = s.sched := rfl
@[simp] theorem freeCyc_fab (s : State) (lo hi : Nat) : ((s.freeCyc lo hi).2).fab = s.fab := rfl
@[simp] theorem freeCyc_rack (s : State) (lo hi : Nat) : ((s.freeCyc lo hi).2).rack = s.rack := rfl
@[simp] theorem freeCyc_tfe (s : State) (lo hi : Nat) : ((s.freeCyc lo hi).2).tfe = s.tfe := rfl
@[simp] theorem freeCyc_cool (s : State) (lo hi : Nat) : ((s.freeCyc lo hi).2).cool = s.cool := rfl
@[simp] theorem freeCyc_host (s : State) (lo hi : Nat) : ((s.freeCyc lo hi).2).host = s.host := rfl
@[simp] theorem freeFrom_cyc (s : State) (lo : Nat) : ((s.freeFrom lo).2).cyc = s.cyc := rfl
@[simp] theorem freeFrom_fresh (s : State) (lo : Nat) : ((s.freeFrom lo).2).fresh = s.fresh + 1 := rfl
@[simp] theorem freeFrom_uid (s : State) (lo : Nat) : ((s.freeFrom lo).2).uid = s.uid := rfl
@[simp] theorem freeFrom_agenda (s : State) (lo : Nat) : ((s.freeFrom lo).2).agenda = s.agenda := rfl
@[simp] theorem freeFrom_ev (s : State) (lo : Nat) : ((s.freeFrom lo).2).ev = s.ev := rfl
@[simp] theorem freeFrom_core (s : State) (lo : Nat) : ((s.freeFrom lo).2).core = s.core := rfl
@[simp] theorem freeFrom_peers (s : State) (lo : Nat) : ((s.freeFrom lo).2).peers = s.peers := rfl
@[simp] theorem freeFrom_mem (s : State) (lo : Nat) : ((s.freeFrom lo).2).mem = s.mem := rfl
@[simp] theorem freeFrom_pe (s : State) (lo : Nat) : ((s.freeFrom lo).2).pe = s.pe := rfl
@[simp] theorem freeFrom_sched (s : State) (lo : Nat) : ((s.freeFrom lo).2).sched = s.sched := rfl
@[simp] theorem freeFrom_fab (s : State) (lo : Nat) : ((s.freeFrom lo).2).fab = s.fab := rfl
@[simp] theorem freeFrom_rack (s : State) (lo : Nat) : ((s.freeFrom lo).2).rack = s.rack := rfl
@[simp] theorem freeFrom_tfe (s : State) (lo : Nat) : ((s.freeFrom lo).2).tfe = s.tfe := rfl
@[simp] theorem freeFrom_cool (s : State) (lo : Nat) : ((s.freeFrom lo).2).cool = s.cool := rfl
@[simp] theorem freeFrom_host (s : State) (lo : Nat) : ((s.freeFrom lo).2).host = s.host := rfl
@[simp] theorem freeBool_cyc (s : State) : (s.freeBool.2).cyc = s.cyc := rfl
@[simp] theorem freeBool_fresh (s : State) : (s.freeBool.2).fresh = s.fresh + 1 := rfl
@[simp] theorem freeBool_uid (s : State) : (s.freeBool.2).uid = s.uid := rfl
@[simp] theorem freeBool_agenda (s : State) : (s.freeBool.2).agenda = s.agenda := rfl
@[simp] theorem freeBool_ev (s : State) : (s.freeBool.2).ev = s.ev := rfl
@[simp] theorem freeBool_core (s : State) : (s.freeBool.2).core = s.core := rfl
@[simp] theorem freeBool_peers (s : State) : (s.freeBool.2).peers = s.peers := rfl
@[simp] theorem freeBool_mem (s : State) : (s.freeBool.2).mem = s.mem := rfl
@[simp] theorem freeBool_pe (s : State) : (s.freeBool.2).pe = s.pe := rfl
@[simp] theorem freeBool_sched (s : State) : (s.freeBool.2).sched = s.sched := rfl
@[simp] theorem freeBool_fab (s : State) : (s.freeBool.2).fab = s.fab := rfl
@[simp] theorem freeBool_rack (s : State) : (s.freeBool.2).rack = s.rack := rfl
@[simp] theorem freeBool_tfe (s : State) : (s.freeBool.2).tfe = s.tfe := rfl
@[simp] theorem freeBool_cool (s : State) : (s.freeBool.2).cool = s.cool := rfl
@[simp] theorem freeBool_host (s : State) : (s.freeBool.2).host = s.host := rfl
@[simp] theorem freeByte_cyc (s : State) : (s.freeByte.2).cyc = s.cyc := rfl
@[simp] theorem freeByte_fresh (s : State) : (s.freeByte.2).fresh = s.fresh + 1 := rfl
@[simp] theorem freeByte_uid (s : State) : (s.freeByte.2).uid = s.uid := rfl
@[simp] theorem freeByte_agenda (s : State) : (s.freeByte.2).agenda = s.agenda := rfl
@[simp] theorem freeByte_ev (s : State) : (s.freeByte.2).ev = s.ev := rfl
@[simp] theorem freeByte_core (s : State) : (s.freeByte.2).core = s.core := rfl
@[simp] theorem freeByte_peers (s : State) : (s.freeByte.2).peers = s.peers := rfl
@[simp] theorem freeByte_mem (s : State) : (s.freeByte.2).mem = s.mem := rfl
@[simp] theorem freeByte_pe (s : State) : (s.freeByte.2).pe = s.pe := rfl
@[simp] theorem freeByte_sched (s : State) : (s.freeByte.2).sched = s.sched := rfl
@[simp] theorem freeByte_fab (s : State) : (s.freeByte.2).fab = s.fab := rfl
@[simp] theorem freeByte_rack (s : State) : (s.freeByte.2).rack = s.rack := rfl
@[simp] theorem freeByte_tfe (s : State) : (s.freeByte.2).tfe = s.tfe := rfl
@[simp] theorem freeByte_cool (s : State) : (s.freeByte.2).cool = s.cool := rfl
@[simp] theorem freeByte_host (s : State) : (s.freeByte.2).host = s.host := rfl
@[simp] theorem cancel_cyc (s : State) (p : Event → Bool) : (s.cancel p).cyc = s.cyc := rfl
@[simp] theorem cancel_fresh (s : State) (p : Event → Bool) : (s.cancel p).fresh = s.fresh := rfl
@[simp] theorem cancel_uid (s : State) (p : Event → Bool) : (s.cancel p).uid = s.uid := rfl
@[simp] theorem cancel_agenda (s : State) (p : Event → Bool) : (s.cancel p).agenda = s.agenda.filter fun e => !p e := rfl
@[simp] theorem cancel_ev (s : State) (p : Event → Bool) : (s.cancel p).ev = s.ev := rfl
@[simp] theorem cancel_core (s : State) (p : Event → Bool) : (s.cancel p).core = s.core := rfl
@[simp] theorem cancel_peers (s : State) (p : Event → Bool) : (s.cancel p).peers = s.peers := rfl
@[simp] theorem cancel_mem (s : State) (p : Event → Bool) : (s.cancel p).mem = s.mem := rfl
@[simp] theorem cancel_pe (s : State) (p : Event → Bool) : (s.cancel p).pe = s.pe := rfl
@[simp] theorem cancel_sched (s : State) (p : Event → Bool) : (s.cancel p).sched = s.sched := rfl
@[simp] theorem cancel_fab (s : State) (p : Event → Bool) : (s.cancel p).fab = s.fab := rfl
@[simp] theorem cancel_rack (s : State) (p : Event → Bool) : (s.cancel p).rack = s.rack := rfl
@[simp] theorem cancel_tfe (s : State) (p : Event → Bool) : (s.cancel p).tfe = s.tfe := rfl
@[simp] theorem cancel_cool (s : State) (p : Event → Bool) : (s.cancel p).cool = s.cool := rfl
@[simp] theorem cancel_host (s : State) (p : Event → Bool) : (s.cancel p).host = s.host := rfl
@[simp] theorem scheduleIn_cyc (s : State) (lo hi : Nat) (op : Instr) (a : EvArg) :
    (s.scheduleIn lo hi op a).cyc = s.cyc := rfl
@[simp] theorem scheduleIn_fresh (s : State) (lo hi : Nat) (op : Instr) (a : EvArg) :
    (s.scheduleIn lo hi op a).fresh = s.fresh + 1 := rfl
@[simp] theorem scheduleIn_uid (s : State) (lo hi : Nat) (op : Instr) (a : EvArg) :
    (s.scheduleIn lo hi op a).uid = s.uid := rfl
@[simp] theorem scheduleIn_ev (s : State) (lo hi : Nat) (op : Instr) (a : EvArg) : (s.scheduleIn lo hi op a).ev = s.ev := rfl
@[simp] theorem scheduleIn_core (s : State) (lo hi : Nat) (op : Instr) (a : EvArg) :
    (s.scheduleIn lo hi op a).core = s.core := rfl
@[simp] theorem scheduleIn_peers (s : State) (lo hi : Nat) (op : Instr) (a : EvArg) :
    (s.scheduleIn lo hi op a).peers = s.peers := rfl
@[simp] theorem scheduleIn_mem (s : State) (lo hi : Nat) (op : Instr) (a : EvArg) :
    (s.scheduleIn lo hi op a).mem = s.mem := rfl
@[simp] theorem scheduleIn_pe (s : State) (lo hi : Nat) (op : Instr) (a : EvArg) : (s.scheduleIn lo hi op a).pe = s.pe := rfl
@[simp] theorem scheduleIn_sched (s : State) (lo hi : Nat) (op : Instr) (a : EvArg) :
    (s.scheduleIn lo hi op a).sched = s.sched := rfl
@[simp] theorem scheduleIn_fab (s : State) (lo hi : Nat) (op : Instr) (a : EvArg) :
    (s.scheduleIn lo hi op a).fab = s.fab := rfl
@[simp] theorem scheduleIn_rack (s : State) (lo hi : Nat) (op : Instr) (a : EvArg) :
    (s.scheduleIn lo hi op a).rack = s.rack := rfl
@[simp] theorem scheduleIn_tfe (s : State) (lo hi : Nat) (op : Instr) (a : EvArg) :
    (s.scheduleIn lo hi op a).tfe = s.tfe := rfl
@[simp] theorem scheduleIn_cool (s : State) (lo hi : Nat) (op : Instr) (a : EvArg) :
    (s.scheduleIn lo hi op a).cool = s.cool := rfl
@[simp] theorem scheduleIn_host (s : State) (lo hi : Nat) (op : Instr) (a : EvArg) :
    (s.scheduleIn lo hi op a).host = s.host := rfl
@[simp] theorem scheduleFrom_cyc (s : State) (lo : Nat) (op : Instr) (a : EvArg) :
    (s.scheduleFrom lo op a).cyc = s.cyc := rfl
@[simp] theorem scheduleFrom_fresh (s : State) (lo : Nat) (op : Instr) (a : EvArg) :
    (s.scheduleFrom lo op a).fresh = s.fresh + 1 := rfl
@[simp] theorem scheduleFrom_uid (s : State) (lo : Nat) (op : Instr) (a : EvArg) :
    (s.scheduleFrom lo op a).uid = s.uid := rfl
@[simp] theorem scheduleFrom_ev (s : State) (lo : Nat) (op : Instr) (a : EvArg) : (s.scheduleFrom lo op a).ev = s.ev := rfl
@[simp] theorem scheduleFrom_core (s : State) (lo : Nat) (op : Instr) (a : EvArg) :
    (s.scheduleFrom lo op a).core = s.core := rfl
@[simp] theorem scheduleFrom_peers (s : State) (lo : Nat) (op : Instr) (a : EvArg) :
    (s.scheduleFrom lo op a).peers = s.peers := rfl
@[simp] theorem scheduleFrom_mem (s : State) (lo : Nat) (op : Instr) (a : EvArg) :
    (s.scheduleFrom lo op a).mem = s.mem := rfl
@[simp] theorem scheduleFrom_pe (s : State) (lo : Nat) (op : Instr) (a : EvArg) : (s.scheduleFrom lo op a).pe = s.pe := rfl
@[simp] theorem scheduleFrom_sched (s : State) (lo : Nat) (op : Instr) (a : EvArg) :
    (s.scheduleFrom lo op a).sched = s.sched := rfl
@[simp] theorem scheduleFrom_fab (s : State) (lo : Nat) (op : Instr) (a : EvArg) :
    (s.scheduleFrom lo op a).fab = s.fab := rfl
@[simp] theorem scheduleFrom_rack (s : State) (lo : Nat) (op : Instr) (a : EvArg) :
    (s.scheduleFrom lo op a).rack = s.rack := rfl
@[simp] theorem scheduleFrom_tfe (s : State) (lo : Nat) (op : Instr) (a : EvArg) :
    (s.scheduleFrom lo op a).tfe = s.tfe := rfl
@[simp] theorem scheduleFrom_cool (s : State) (lo : Nat) (op : Instr) (a : EvArg) :
    (s.scheduleFrom lo op a).cool = s.cool := rfl
@[simp] theorem scheduleFrom_host (s : State) (lo : Nat) (op : Instr) (a : EvArg) :
    (s.scheduleFrom lo op a).host = s.host := rfl

/-! A write that every view takes. -/

@[simp] theorem dropChanged_cyc (s : State) (bs : List (Nat × Byte)) : (s.dropChanged bs).cyc = s.cyc := rfl
@[simp] theorem dropChanged_fresh (s : State) (bs : List (Nat × Byte)) : (s.dropChanged bs).fresh = s.fresh := rfl
@[simp] theorem dropChanged_uid (s : State) (bs : List (Nat × Byte)) : (s.dropChanged bs).uid = s.uid := rfl
@[simp] theorem dropChanged_agenda (s : State) (bs : List (Nat × Byte)) : (s.dropChanged bs).agenda = s.agenda := rfl
@[simp] theorem dropChanged_ev (s : State) (bs : List (Nat × Byte)) : (s.dropChanged bs).ev = s.ev := rfl
@[simp] theorem dropChanged_core (s : State) (bs : List (Nat × Byte)) :
    (s.dropChanged bs).core = s.core.dropChanged bs := rfl
@[simp] theorem dropChanged_peers (s : State) (bs : List (Nat × Byte)) :
    (s.dropChanged bs).peers = s.peers.map fun c => c.dropChanged bs := rfl
@[simp] theorem dropChanged_mem (s : State) (bs : List (Nat × Byte)) : (s.dropChanged bs).mem = s.mem := rfl
@[simp] theorem dropChanged_pe (s : State) (bs : List (Nat × Byte)) : (s.dropChanged bs).pe = s.pe := rfl
@[simp] theorem dropChanged_sched (s : State) (bs : List (Nat × Byte)) : (s.dropChanged bs).sched = s.sched := rfl
@[simp] theorem dropChanged_fab (s : State) (bs : List (Nat × Byte)) : (s.dropChanged bs).fab = s.fab := rfl
@[simp] theorem dropChanged_rack (s : State) (bs : List (Nat × Byte)) : (s.dropChanged bs).rack = s.rack := rfl
@[simp] theorem dropChanged_tfe (s : State) (bs : List (Nat × Byte)) : (s.dropChanged bs).tfe = s.tfe := rfl
@[simp] theorem dropChanged_cool (s : State) (bs : List (Nat × Byte)) : (s.dropChanged bs).cool = s.cool := rfl
@[simp] theorem dropChanged_host (s : State) (bs : List (Nat × Byte)) : (s.dropChanged bs).host = s.host := rfl
@[simp] theorem writeEverywhere_cyc (s : State) (bs : List (Nat × Byte)) : (s.writeEverywhere bs).cyc = s.cyc := rfl
@[simp] theorem writeEverywhere_fresh (s : State) (bs : List (Nat × Byte)) : (s.writeEverywhere bs).fresh = s.fresh := rfl
@[simp] theorem writeEverywhere_uid (s : State) (bs : List (Nat × Byte)) : (s.writeEverywhere bs).uid = s.uid := rfl
@[simp] theorem writeEverywhere_agenda (s : State) (bs : List (Nat × Byte)) : (s.writeEverywhere bs).agenda = s.agenda := rfl
@[simp] theorem writeEverywhere_ev (s : State) (bs : List (Nat × Byte)) : (s.writeEverywhere bs).ev = s.ev := rfl
@[simp] theorem writeEverywhere_core (s : State) (bs : List (Nat × Byte)) :
    (s.writeEverywhere bs).core = s.core.dropChanged bs := rfl
@[simp] theorem writeEverywhere_peers (s : State) (bs : List (Nat × Byte)) :
    (s.writeEverywhere bs).peers = s.peers.map fun c => c.dropChanged bs := rfl
@[simp] theorem writeEverywhere_pe (s : State) (bs : List (Nat × Byte)) : (s.writeEverywhere bs).pe = s.pe := rfl
@[simp] theorem writeEverywhere_sched (s : State) (bs : List (Nat × Byte)) : (s.writeEverywhere bs).sched = s.sched := rfl
@[simp] theorem writeEverywhere_fab (s : State) (bs : List (Nat × Byte)) : (s.writeEverywhere bs).fab = s.fab := rfl
@[simp] theorem writeEverywhere_rack (s : State) (bs : List (Nat × Byte)) : (s.writeEverywhere bs).rack = s.rack := rfl
@[simp] theorem writeEverywhere_tfe (s : State) (bs : List (Nat × Byte)) : (s.writeEverywhere bs).tfe = s.tfe := rfl
@[simp] theorem writeEverywhere_cool (s : State) (bs : List (Nat × Byte)) : (s.writeEverywhere bs).cool = s.cool := rfl
@[simp] theorem writeEverywhere_host (s : State) (bs : List (Nat × Byte)) : (s.writeEverywhere bs).host = s.host := rfl
@[simp] theorem writeEverywhere_views (s : State) (bs : List (Nat × Byte)) :
    (s.writeEverywhere bs).mem.views = tab 4 fun d => Mem.writeAll (vat s.settledViews d) bs := rfl

/-! A change of one part of a core. -/

@[simp] theorem core_dropChanged_num (c : CoreSt) (bs : List (Nat × Byte)) : (c.dropChanged bs).num = c.num := rfl
@[simp] theorem core_dropChanged_status (c : CoreSt) (bs : List (Nat × Byte)) : (c.dropChanged bs).status = c.status := rfl
@[simp] theorem core_dropChanged_q (c : CoreSt) (bs : List (Nat × Byte)) : (c.dropChanged bs).q = c.q := rfl
@[simp] theorem core_dropChanged_cnt (c : CoreSt) (bs : List (Nat × Byte)) : (c.dropChanged bs).cnt = c.cnt := rfl
@[simp] theorem core_dropChanged_tile (c : CoreSt) (bs : List (Nat × Byte)) :
    (c.dropChanged bs).tile = c.tile.dropChanged bs := rfl
@[simp] theorem core_dropChanged_eng (c : CoreSt) (bs : List (Nat × Byte)) : (c.dropChanged bs).eng = c.eng := rfl
@[simp] theorem core_dropChanged_trap (c : CoreSt) (bs : List (Nat × Byte)) : (c.dropChanged bs).trap = c.trap := rfl
@[simp] theorem core_dropChanged_ph (c : CoreSt) (bs : List (Nat × Byte)) : (c.dropChanged bs).ph = c.ph := rfl
@[simp] theorem core_dropChanged_dbg (c : CoreSt) (bs : List (Nat × Byte)) : (c.dropChanged bs).dbg = c.dbg := rfl
@[simp] theorem core_dropChanged_task (c : CoreSt) (bs : List (Nat × Byte)) : (c.dropChanged bs).task = c.task := rfl
@[simp] theorem core_modQ_num (c : CoreSt) (f : SeqSt → SeqSt) : (c.modQ f).num = c.num := rfl
@[simp] theorem core_modQ_status (c : CoreSt) (f : SeqSt → SeqSt) : (c.modQ f).status = c.status := rfl
@[simp] theorem core_modQ_q (c : CoreSt) (f : SeqSt → SeqSt) : (c.modQ f).q = f c.q := rfl
@[simp] theorem core_modQ_cnt (c : CoreSt) (f : SeqSt → SeqSt) : (c.modQ f).cnt = c.cnt := rfl
@[simp] theorem core_modQ_tile (c : CoreSt) (f : SeqSt → SeqSt) : (c.modQ f).tile = c.tile := rfl
@[simp] theorem core_modQ_eng (c : CoreSt) (f : SeqSt → SeqSt) : (c.modQ f).eng = c.eng := rfl
@[simp] theorem core_modQ_trap (c : CoreSt) (f : SeqSt → SeqSt) : (c.modQ f).trap = c.trap := rfl
@[simp] theorem core_modQ_ph (c : CoreSt) (f : SeqSt → SeqSt) : (c.modQ f).ph = c.ph := rfl
@[simp] theorem core_modQ_dbg (c : CoreSt) (f : SeqSt → SeqSt) : (c.modQ f).dbg = c.dbg := rfl
@[simp] theorem core_modQ_task (c : CoreSt) (f : SeqSt → SeqSt) : (c.modQ f).task = c.task := rfl
@[simp] theorem core_modTile_num (c : CoreSt) (f : TileSt → TileSt) : (c.modTile f).num = c.num := rfl
@[simp] theorem core_modTile_status (c : CoreSt) (f : TileSt → TileSt) : (c.modTile f).status = c.status := rfl
@[simp] theorem core_modTile_q (c : CoreSt) (f : TileSt → TileSt) : (c.modTile f).q = c.q := rfl
@[simp] theorem core_modTile_cnt (c : CoreSt) (f : TileSt → TileSt) : (c.modTile f).cnt = c.cnt := rfl
@[simp] theorem core_modTile_tile (c : CoreSt) (f : TileSt → TileSt) : (c.modTile f).tile = f c.tile := rfl
@[simp] theorem core_modTile_eng (c : CoreSt) (f : TileSt → TileSt) : (c.modTile f).eng = c.eng := rfl
@[simp] theorem core_modTile_trap (c : CoreSt) (f : TileSt → TileSt) : (c.modTile f).trap = c.trap := rfl
@[simp] theorem core_modTile_ph (c : CoreSt) (f : TileSt → TileSt) : (c.modTile f).ph = c.ph := rfl
@[simp] theorem core_modTile_dbg (c : CoreSt) (f : TileSt → TileSt) : (c.modTile f).dbg = c.dbg := rfl
@[simp] theorem core_modTile_task (c : CoreSt) (f : TileSt → TileSt) : (c.modTile f).task = c.task := rfl
@[simp] theorem core_modEng_num (c : CoreSt) (f : EngSt → EngSt) : (c.modEng f).num = c.num := rfl
@[simp] theorem core_modEng_status (c : CoreSt) (f : EngSt → EngSt) : (c.modEng f).status = c.status := rfl
@[simp] theorem core_modEng_q (c : CoreSt) (f : EngSt → EngSt) : (c.modEng f).q = c.q := rfl
@[simp] theorem core_modEng_cnt (c : CoreSt) (f : EngSt → EngSt) : (c.modEng f).cnt = c.cnt := rfl
@[simp] theorem core_modEng_tile (c : CoreSt) (f : EngSt → EngSt) : (c.modEng f).tile = c.tile := rfl
@[simp] theorem core_modEng_eng (c : CoreSt) (f : EngSt → EngSt) : (c.modEng f).eng = f c.eng := rfl
@[simp] theorem core_modEng_trap (c : CoreSt) (f : EngSt → EngSt) : (c.modEng f).trap = c.trap := rfl
@[simp] theorem core_modEng_ph (c : CoreSt) (f : EngSt → EngSt) : (c.modEng f).ph = c.ph := rfl
@[simp] theorem core_modEng_dbg (c : CoreSt) (f : EngSt → EngSt) : (c.modEng f).dbg = c.dbg := rfl
@[simp] theorem core_modEng_task (c : CoreSt) (f : EngSt → EngSt) : (c.modEng f).task = c.task := rfl
@[simp] theorem core_modTrap_num (c : CoreSt) (f : TrapSt → TrapSt) : (c.modTrap f).num = c.num := rfl
@[simp] theorem core_modTrap_status (c : CoreSt) (f : TrapSt → TrapSt) : (c.modTrap f).status = c.status := rfl
@[simp] theorem core_modTrap_q (c : CoreSt) (f : TrapSt → TrapSt) : (c.modTrap f).q = c.q := rfl
@[simp] theorem core_modTrap_cnt (c : CoreSt) (f : TrapSt → TrapSt) : (c.modTrap f).cnt = c.cnt := rfl
@[simp] theorem core_modTrap_tile (c : CoreSt) (f : TrapSt → TrapSt) : (c.modTrap f).tile = c.tile := rfl
@[simp] theorem core_modTrap_eng (c : CoreSt) (f : TrapSt → TrapSt) : (c.modTrap f).eng = c.eng := rfl
@[simp] theorem core_modTrap_trap (c : CoreSt) (f : TrapSt → TrapSt) : (c.modTrap f).trap = f c.trap := rfl
@[simp] theorem core_modTrap_ph (c : CoreSt) (f : TrapSt → TrapSt) : (c.modTrap f).ph = c.ph := rfl
@[simp] theorem core_modTrap_dbg (c : CoreSt) (f : TrapSt → TrapSt) : (c.modTrap f).dbg = c.dbg := rfl
@[simp] theorem core_modTrap_task (c : CoreSt) (f : TrapSt → TrapSt) : (c.modTrap f).task = c.task := rfl
@[simp] theorem core_modTask_num (c : CoreSt) (f : TaskSt → TaskSt) : (c.modTask f).num = c.num := rfl
@[simp] theorem core_modTask_status (c : CoreSt) (f : TaskSt → TaskSt) : (c.modTask f).status = c.status := rfl
@[simp] theorem core_modTask_q (c : CoreSt) (f : TaskSt → TaskSt) : (c.modTask f).q = c.q := rfl
@[simp] theorem core_modTask_cnt (c : CoreSt) (f : TaskSt → TaskSt) : (c.modTask f).cnt = c.cnt := rfl
@[simp] theorem core_modTask_tile (c : CoreSt) (f : TaskSt → TaskSt) : (c.modTask f).tile = c.tile := rfl
@[simp] theorem core_modTask_eng (c : CoreSt) (f : TaskSt → TaskSt) : (c.modTask f).eng = c.eng := rfl
@[simp] theorem core_modTask_trap (c : CoreSt) (f : TaskSt → TaskSt) : (c.modTask f).trap = c.trap := rfl
@[simp] theorem core_modTask_ph (c : CoreSt) (f : TaskSt → TaskSt) : (c.modTask f).ph = c.ph := rfl
@[simp] theorem core_modTask_dbg (c : CoreSt) (f : TaskSt → TaskSt) : (c.modTask f).dbg = c.dbg := rfl
@[simp] theorem core_modTask_task (c : CoreSt) (f : TaskSt → TaskSt) : (c.modTask f).task = f c.task := rfl
@[simp] theorem core_modPh_num (c : CoreSt) (f : PhaseSt → PhaseSt) : (c.modPh f).num = c.num := rfl
@[simp] theorem core_modPh_status (c : CoreSt) (f : PhaseSt → PhaseSt) : (c.modPh f).status = c.status := rfl
@[simp] theorem core_modPh_q (c : CoreSt) (f : PhaseSt → PhaseSt) : (c.modPh f).q = c.q := rfl
@[simp] theorem core_modPh_cnt (c : CoreSt) (f : PhaseSt → PhaseSt) : (c.modPh f).cnt = c.cnt := rfl
@[simp] theorem core_modPh_tile (c : CoreSt) (f : PhaseSt → PhaseSt) : (c.modPh f).tile = c.tile := rfl
@[simp] theorem core_modPh_eng (c : CoreSt) (f : PhaseSt → PhaseSt) : (c.modPh f).eng = c.eng := rfl
@[simp] theorem core_modPh_trap (c : CoreSt) (f : PhaseSt → PhaseSt) : (c.modPh f).trap = c.trap := rfl
@[simp] theorem core_modPh_ph (c : CoreSt) (f : PhaseSt → PhaseSt) : (c.modPh f).ph = f c.ph := rfl
@[simp] theorem core_modPh_dbg (c : CoreSt) (f : PhaseSt → PhaseSt) : (c.modPh f).dbg = c.dbg := rfl
@[simp] theorem core_modPh_task (c : CoreSt) (f : PhaseSt → PhaseSt) : (c.modPh f).task = c.task := rfl
@[simp] theorem core_modDbg_num (c : CoreSt) (f : DebugSt → DebugSt) : (c.modDbg f).num = c.num := rfl
@[simp] theorem core_modDbg_status (c : CoreSt) (f : DebugSt → DebugSt) : (c.modDbg f).status = c.status := rfl
@[simp] theorem core_modDbg_q (c : CoreSt) (f : DebugSt → DebugSt) : (c.modDbg f).q = c.q := rfl
@[simp] theorem core_modDbg_cnt (c : CoreSt) (f : DebugSt → DebugSt) : (c.modDbg f).cnt = c.cnt := rfl
@[simp] theorem core_modDbg_tile (c : CoreSt) (f : DebugSt → DebugSt) : (c.modDbg f).tile = c.tile := rfl
@[simp] theorem core_modDbg_eng (c : CoreSt) (f : DebugSt → DebugSt) : (c.modDbg f).eng = c.eng := rfl
@[simp] theorem core_modDbg_trap (c : CoreSt) (f : DebugSt → DebugSt) : (c.modDbg f).trap = c.trap := rfl
@[simp] theorem core_modDbg_ph (c : CoreSt) (f : DebugSt → DebugSt) : (c.modDbg f).ph = c.ph := rfl
@[simp] theorem core_modDbg_dbg (c : CoreSt) (f : DebugSt → DebugSt) : (c.modDbg f).dbg = f c.dbg := rfl
@[simp] theorem core_modDbg_task (c : CoreSt) (f : DebugSt → DebugSt) : (c.modDbg f).task = c.task := rfl
@[simp] theorem core_modCnt_num (c : CoreSt) (f : CountSt → CountSt) : (c.modCnt f).num = c.num := rfl
@[simp] theorem core_modCnt_status (c : CoreSt) (f : CountSt → CountSt) : (c.modCnt f).status = c.status := rfl
@[simp] theorem core_modCnt_q (c : CoreSt) (f : CountSt → CountSt) : (c.modCnt f).q = c.q := rfl
@[simp] theorem core_modCnt_cnt (c : CoreSt) (f : CountSt → CountSt) : (c.modCnt f).cnt = f c.cnt := rfl
@[simp] theorem core_modCnt_tile (c : CoreSt) (f : CountSt → CountSt) : (c.modCnt f).tile = c.tile := rfl
@[simp] theorem core_modCnt_eng (c : CoreSt) (f : CountSt → CountSt) : (c.modCnt f).eng = c.eng := rfl
@[simp] theorem core_modCnt_trap (c : CoreSt) (f : CountSt → CountSt) : (c.modCnt f).trap = c.trap := rfl
@[simp] theorem core_modCnt_ph (c : CoreSt) (f : CountSt → CountSt) : (c.modCnt f).ph = c.ph := rfl
@[simp] theorem core_modCnt_dbg (c : CoreSt) (f : CountSt → CountSt) : (c.modCnt f).dbg = c.dbg := rfl
@[simp] theorem core_modCnt_task (c : CoreSt) (f : CountSt → CountSt) : (c.modCnt f).task = c.task := rfl

end Sys2Proof.Laws
end

