-- ==== Sys2Proof/Laws/Memory.lean ====
section
/-! SUPPORT. Memories: a read after a write, what a write leaves alone, and that every memory operation keeps the canonical form. -/

namespace Sys2Proof.Laws

open Sys2Proof Machine

/-! Reading and writing one byte. -/

/-- Below its first address a memory reads as unlisted. -/
theorem read_below {m : Mem} {lo a : Nat} (h : Mem.wfFrom lo m = true) (ha : a < lo) : Mem.read m a = Mem.blank := by
  match m, h with
  | [], _ => rfl
  | (k, b) :: m, h =>
    simp only [Mem.wfFrom, Bool.and_eq_true, decide_eq_true_eq] at h
    simp only [Mem.read]
    rw [if_neg (by omega), if_pos (by omega)]

theorem wfFrom_mono {m : Mem} {lo lo' : Nat} (h : Mem.wfFrom lo m = true) (hl : lo' ≤ lo) : Mem.wfFrom lo' m = true := by
  match m, h with
  | [], _ => rfl
  | (k, b) :: m, h =>
    simp only [Mem.wfFrom, Bool.and_eq_true, decide_eq_true_eq] at h ⊢
    exact ⟨⟨by omega, h.1.2⟩, h.2⟩

theorem write_wfFrom {m : Mem} {lo a : Nat} (b : Byte) (h : Mem.wfFrom lo m = true) (ha : lo ≤ a) :
    Mem.wfFrom lo (Mem.write m a b) = true := by
  induction m generalizing lo with
  | nil => by_cases hb : b = Mem.blank <;> simp [Mem.write, Mem.wfFrom, hb, ha]
  | cons p m ih =>
    obtain ⟨k, c⟩ := p
    simp only [Mem.wfFrom, Bool.and_eq_true, decide_eq_true_eq] at h
    obtain ⟨⟨hk, hc⟩, hm⟩ := h
    unfold Mem.write
    split
    · next he =>
      subst he
      split
      · exact wfFrom_mono hm (by omega)
      · next hb => simp [Mem.wfFrom, ha, hb, hm]
    · split
      · split
        · simp [Mem.wfFrom, hk, hc, hm]
        · next hb =>
          have hk' : a + 1 ≤ k := by omega
          simp [Mem.wfFrom, ha, hb, hk', hc, hm]
      · have hk' : k + 1 ≤ a := by omega
        simp [Mem.wfFrom, hk, hc, ih hm hk']

/-- A write keeps the canonical form. -/
theorem write_wf {m : Mem} (a : Nat) (b : Byte) (h : Mem.wf m = true) : Mem.wf (Mem.write m a b) = true :=
  write_wfFrom b h (Nat.zero_le a)

theorem read_write_from {m : Mem} {lo : Nat} (h : Mem.wfFrom lo m = true) (a x : Nat) (b : Byte) (ha : lo ≤ a) :
    Mem.read (Mem.write m a b) x = if x = a then b else Mem.read m x := by
  induction m generalizing lo with
  | nil =>
    by_cases hb : b = Mem.blank <;> by_cases hx : x = a <;> simp [Mem.write, Mem.read, hb, hx]
    intro h; omega
  | cons p m ih =>
    obtain ⟨k, c⟩ := p
    simp only [Mem.wfFrom, Bool.and_eq_true, decide_eq_true_eq] at h
    obtain ⟨⟨hk, hc⟩, hm⟩ := h
    by_cases hka : k = a
    · subst hka
      by_cases hb : b = Mem.blank
      · subst hb
        simp only [Mem.write, if_pos, Mem.read]
        by_cases hx : x = k
        · subst hx; simp [read_below hm]
        · by_cases hxk : x < k
          · rw [if_neg hx, if_neg (by omega), if_pos hxk, read_below hm (by omega)]
          · rw [if_neg hx, if_neg (by omega), if_neg hxk]
      · simp only [Mem.write, if_pos, if_neg hb, Mem.read]
        by_cases hx : x = k
        · subst hx; simp
        · have hx' : ¬ k = x := fun e => hx e.symm
          rw [if_neg hx', if_neg hx, if_neg hx']
    · by_cases hak : a < k
      · by_cases hb : b = Mem.blank
        · subst hb
          simp only [Mem.write, if_neg hka, if_pos hak, if_pos]
          by_cases hx : x = a
          · subst hx; simp [Mem.read, hka, hak]
          · simp [hx]
        · simp only [Mem.write, if_neg hka, if_pos hak, if_neg hb]
          by_cases hx : x = a
          · subst hx; simp [Mem.read]
          · rw [if_neg hx, Mem.read, if_neg (by omega)]
            split
            · next hxa => rw [Mem.read, if_neg (by omega), if_pos (by omega)]
            · rfl
      · simp only [Mem.write, if_neg hka, if_neg hak, Mem.read]
        by_cases hkx : k = x
        · subst hkx; simp [hka]
        · rw [if_neg hkx, if_neg hkx]
          by_cases hxk : x < k
          · rw [if_pos hxk, if_pos hxk, if_neg (by omega)]
          · rw [if_neg hxk, if_neg hxk]
            exact ih hm (by omega)

/-- A read after a write to the same address gives the byte written; every other address reads as before. -/
theorem read_write {m : Mem} (h : Mem.wf m = true) (a x : Nat) (b : Byte) :
    Mem.read (Mem.write m a b) x = if x = a then b else Mem.read m x :=
  read_write_from h a x b (Nat.zero_le a)

/-! Writing several bytes. -/

theorem writeAll_wf {m : Mem} (bs : List (Nat × Byte)) (h : Mem.wf m = true) : Mem.wf (Mem.writeAll m bs) = true := by
  unfold Mem.writeAll
  induction bs generalizing m with
  | nil => exact h
  | cons p bs ih => exact ih (write_wf p.1 p.2 h)

theorem foldl_write_wf {α : Type} {m : Mem} (f : α → Nat × Byte) (bs : List α) (h : Mem.wf m = true) :
    Mem.wf (bs.foldl (fun m p => Mem.write m (f p).1 (f p).2) m) = true := by
  induction bs generalizing m with
  | nil => exact h
  | cons p bs ih => exact ih (write_wf _ _ h)

theorem writeN_wf {m : Mem} (a : Nat) (bs : List Byte) (h : Mem.wf m = true) : Mem.wf (Mem.writeN m a bs) = true :=
  foldl_write_wf (fun p : Nat × Byte => (a + p.1, p.2)) _ h

/-- A write of several bytes leaves every other address alone. -/
theorem read_writeAll_outside {m : Mem} (bs : List (Nat × Byte)) (h : Mem.wf m = true) {x : Nat} (hx : ∀ p ∈ bs, p.1 ≠ x) :
    Mem.read (Mem.writeAll m bs) x = Mem.read m x := by
  unfold Mem.writeAll
  induction bs generalizing m with
  | nil => rfl
  | cons p bs ih =>
    simp only [List.foldl_cons]
    rw [ih (write_wf p.1 p.2 h) fun q hq => hx q (List.mem_cons_of_mem _ hq), read_write h, if_neg]
    exact fun e => hx p (List.mem_cons_self ..) e.symm

/-- The part of a memory that satisfies a test keeps the canonical form. -/
theorem filter_wfFrom {m : Mem} {lo : Nat} (p : Nat × Byte → Bool) (h : Mem.wfFrom lo m = true) : Mem.wfFrom lo (m.filter p) = true := by
  induction m generalizing lo with
  | nil => rfl
  | cons q m ih =>
    obtain ⟨k, c⟩ := q
    simp only [Mem.wfFrom, Bool.and_eq_true, decide_eq_true_eq] at h
    obtain ⟨⟨hk, hc⟩, hm⟩ := h
    rw [List.filter_cons]
    split
    · simp [Mem.wfFrom, hk, hc, ih hm]
    · exact ih (wfFrom_mono hm (by omega))

theorem clear_wf {m : Mem} (k n : Nat) (h : Mem.wf m = true) : Mem.wf (Mem.clear m k n) = true := filter_wfFrom _ h

/-- A scratchpad buffer written. -/
theorem writeBuf_bufs_wf {c : CoreSt} (b : Nat) (bs : List (Nat × Byte))
    (hw : Mem.wf c.tile.bufW = true) (ha : Mem.wf c.tile.bufA = true) (hc : Mem.wf c.tile.bufC = true) :
    Mem.wf (c.writeBuf b bs).tile.bufW = true ∧ Mem.wf (c.writeBuf b bs).tile.bufA = true ∧ Mem.wf (c.writeBuf b bs).tile.bufC = true := by
  unfold CoreSt.writeBuf
  split
  · exact ⟨hw, ha, hc⟩
  · unfold TileSt.setBuf TileSt.buf
    split
    · exact ⟨writeAll_wf _ hw, ha, hc⟩
    · split
      · exact ⟨hw, writeAll_wf _ ha, hc⟩
      · exact ⟨hw, ha, writeAll_wf _ hc⟩

/-! The state's memories at reset (R426). -/

theorem reset_views_wf (d : Nat) : Mem.wf (vat State.reset.mem.views d) = true := by
  have h : ∀ i : Fin 4, Mem.wf (State.reset.mem.views[i]) = true := by decide
  exact h ⟨d % 4, Nat.mod_lt _ (by decide)⟩

theorem reset_buffers_wf : Mem.wf State.reset.core.tile.bufW = true ∧ Mem.wf State.reset.core.tile.bufA = true ∧
    Mem.wf State.reset.core.tile.bufC = true ∧ Mem.wf State.reset.rack.cellar = true := ⟨rfl, rfl, rfl, rfl⟩

end Sys2Proof.Laws
end

