-- ==== Sys2Proof/Laws/PerInstr.lean ====
section
/-! SUPPORT. One lemma per instruction: its row of the decoding tables reads back what its encoding writes. -/

namespace Sys2Proof.Laws

open Sys2Proof Decode WellFormed

namespace RowReadsBack

/-- R81 to R83, R96: the opcode of a well-formed instruction is of its form, and the tables read the instruction from it. -/
def Statement (i : Instr) : Prop :=
  (∀ f, check i (.long f) = true → ∃ o, opcodeOf i = some o ∧ isShortOpc o = false ∧ o < 1024 ∧ o % 256 < 0xE0 ∧ longTable o f = some i) ∧
  (∀ g, check i (.short g) = true → ∃ o, opcodeOf i = some o ∧ isShortOpc o = true ∧ shortTable o = some i)

theorem of_long {i : Instr} (o : Nat) (h : opcodeOf i = some o) (hs : isShortOpc o = false) (hb : o < 1024 ∧ o % 256 < 0xE0)
    (ht : ∀ f, csrRow i f = true → subOpRow i f = true → longTable o f = some i) : Statement i := by
  constructor
  · intro f hc
    simp only [check, Bool.and_eq_true] at hc
    exact ⟨o, h, hs, hb.1, hb.2, ht f hc.2.1 hc.2.2⟩
  · intro g hc
    simp [check, formAgrees, h, hs] at hc

theorem of_short {i : Instr} (o : Nat) (h : opcodeOf i = some o) (hs : isShortOpc o = true) (ht : shortTable o = some i) : Statement i := by
  constructor
  · intro f hc
    simp [check, formAgrees, h, hs] at hc
  · exact fun g _ => ⟨o, h, hs, ht⟩

theorem of_device {i : Instr} (h : opcodeOf i = none) : Statement i := by
  constructor <;> (intro x hc; simp [check, hasWord, h] at hc)

theorem csr_row {i : Instr} {f : Fields} (o : opcodeOf i = some 0x071) (h : csrRow i f = true) : csrwrOf (csrNum f) = i := by
  simpa [csrRow, o] using h

theorem sub_op_row {i : Instr} {f : Fields} {o : Nat} {g : Fields → Instr} (ho : opcodeOf i = some o)
    (hg : (o, g) ∈ [(0x228, tsymxOf), (0x229, tstatOf), (0x22B, tspillOf), (0x321, collOf), (0x342, texitOf)])
    (h : subOpRow i f = true) : g f = i := by
  simp only [List.mem_cons, Prod.mk.injEq, List.not_mem_nil, or_false] at hg
  rcases hg with ⟨rfl, rfl⟩ | ⟨rfl, rfl⟩ | ⟨rfl, rfl⟩ | ⟨rfl, rfl⟩ | ⟨rfl, rfl⟩ <;> simpa [subOpRow, ho] using h

theorem sadd : Statement .sadd := of_long 0x0 rfl rfl (by decide) fun _ _ _ => rfl
theorem ssub : Statement .ssub := of_long 0x1 rfl rfl (by decide) fun _ _ _ => rfl
theorem smul : Statement .smul := of_long 0x2 rfl rfl (by decide) fun _ _ _ => rfl
theorem smulh : Statement .smulh := of_long 0x3 rfl rfl (by decide) fun _ _ _ => rfl
theorem sdiv : Statement .sdiv := of_long 0x4 rfl rfl (by decide) fun _ _ _ => rfl
theorem srem : Statement .srem := of_long 0x5 rfl rfl (by decide) fun _ _ _ => rfl
theorem sand : Statement .sand := of_long 0x6 rfl rfl (by decide) fun _ _ _ => rfl
theorem sor : Statement .sor := of_long 0x7 rfl rfl (by decide) fun _ _ _ => rfl
theorem sxor : Statement .sxor := of_long 0x8 rfl rfl (by decide) fun _ _ _ => rfl
theorem sshl : Statement .sshl := of_long 0x9 rfl rfl (by decide) fun _ _ _ => rfl
theorem sshr : Statement .sshr := of_long 0xa rfl rfl (by decide) fun _ _ _ => rfl
theorem ssra : Statement .ssra := of_long 0xb rfl rfl (by decide) fun _ _ _ => rfl
theorem smin : Statement .smin := of_long 0xc rfl rfl (by decide) fun _ _ _ => rfl
theorem smax : Statement .smax := of_long 0xd rfl rfl (by decide) fun _ _ _ => rfl
theorem scmp : Statement .scmp := of_long 0xe rfl rfl (by decide) fun _ _ _ => rfl
theorem ssel : Statement .ssel := of_long 0xf rfl rfl (by decide) fun _ _ _ => rfl
theorem sclz : Statement .sclz := of_long 0x10 rfl rfl (by decide) fun _ _ _ => rfl
theorem sctz : Statement .sctz := of_long 0x11 rfl rfl (by decide) fun _ _ _ => rfl
theorem spopc : Statement .spopc := of_long 0x12 rfl rfl (by decide) fun _ _ _ => rfl
theorem scmpm : Statement .scmpm := of_long 0x13 rfl rfl (by decide) fun _ _ _ => rfl
theorem saddi : Statement .saddi := of_long 0x18 rfl rfl (by decide) fun _ _ _ => rfl
theorem sandi : Statement .sandi := of_long 0x19 rfl rfl (by decide) fun _ _ _ => rfl
theorem sori : Statement .sori := of_long 0x1a rfl rfl (by decide) fun _ _ _ => rfl
theorem sxori : Statement .sxori := of_long 0x1b rfl rfl (by decide) fun _ _ _ => rfl
theorem sshli : Statement .sshli := of_long 0x1c rfl rfl (by decide) fun _ _ _ => rfl
theorem sshri : Statement .sshri := of_long 0x1d rfl rfl (by decide) fun _ _ _ => rfl
theorem ssrai : Statement .ssrai := of_long 0x1e rfl rfl (by decide) fun _ _ _ => rfl
theorem scmpi : Statement .scmpi := of_long 0x1f rfl rfl (by decide) fun _ _ _ => rfl
theorem sli : Statement .sli := of_long 0x20 rfl rfl (by decide) fun _ _ _ => rfl
theorem slih : Statement .slih := of_long 0x21 rfl rfl (by decide) fun _ _ _ => rfl
theorem slit : Statement .slit := of_long 0x22 rfl rfl (by decide) fun _ _ _ => rfl
theorem sbext : Statement .sbext := of_long 0x23 rfl rfl (by decide) fun _ _ _ => rfl
theorem sbins : Statement .sbins := of_long 0x24 rfl rfl (by decide) fun _ _ _ => rfl
theorem mand : Statement .mand := of_long 0x30 rfl rfl (by decide) fun _ _ _ => rfl
theorem mor : Statement .mor := of_long 0x31 rfl rfl (by decide) fun _ _ _ => rfl
theorem mxor : Statement .mxor := of_long 0x32 rfl rfl (by decide) fun _ _ _ => rfl
theorem mandn : Statement .mandn := of_long 0x33 rfl rfl (by decide) fun _ _ _ => rfl
theorem mfroms : Statement .mfroms := of_long 0x34 rfl rfl (by decide) fun _ _ _ => rfl
theorem mtos : Statement .mtos := of_long 0x35 rfl rfl (by decide) fun _ _ _ => rfl
theorem mpopc : Statement .mpopc := of_long 0x36 rfl rfl (by decide) fun _ _ _ => rfl
theorem mlane : Statement .mlane := of_long 0x37 rfl rfl (by decide) fun _ _ _ => rfl
theorem sld : Statement .sld := of_long 0x40 rfl rfl (by decide) fun _ _ _ => rfl
theorem sst : Statement .sst := of_long 0x41 rfl rfl (by decide) fun _ _ _ => rfl
theorem br : Statement .br := of_long 0x50 rfl rfl (by decide) fun _ _ _ => rfl
theorem brc : Statement .brc := of_long 0x51 rfl rfl (by decide) fun _ _ _ => rfl
theorem brci : Statement .brci := of_long 0x52 rfl rfl (by decide) fun _ _ _ => rfl
theorem bri : Statement .bri := of_long 0x53 rfl rfl (by decide) fun _ _ _ => rfl
theorem call : Statement .call := of_long 0x54 rfl rfl (by decide) fun _ _ _ => rfl
theorem calli : Statement .calli := of_long 0x55 rfl rfl (by decide) fun _ _ _ => rfl
theorem ret : Statement .ret := of_long 0x56 rfl rfl (by decide) fun _ _ _ => rfl
theorem loop : Statement .loop := of_long 0x60 rfl rfl (by decide) fun _ _ _ => rfl
theorem loopi : Statement .loopi := of_long 0x61 rfl rfl (by decide) fun _ _ _ => rfl
theorem loops : Statement .loops := of_long 0x62 rfl rfl (by decide) fun _ _ _ => rfl
theorem csrrd : Statement .csrrd := of_long 0x70 rfl rfl (by decide) fun _ _ _ => rfl
theorem csrwr : Statement .csrwr := of_long 0x71 rfl rfl (by decide) fun _ h _ => congrArg some (csr_row rfl h)
theorem feget : Statement .feget := of_long 0x78 rfl rfl (by decide) fun _ _ _ => rfl
theorem fegetv : Statement .fegetv := of_long 0x79 rfl rfl (by decide) fun _ _ _ => rfl
theorem fewaits : Statement .fewaits := of_long 0x7a rfl rfl (by decide) fun _ _ _ => rfl
theorem nop : Statement .nop := of_long 0x7f rfl rfl (by decide) fun _ _ _ => rfl
theorem saddShort : Statement .saddShort := of_short 0xe0 rfl rfl rfl
theorem ssubShort : Statement .ssubShort := of_short 0xe1 rfl rfl rfl
theorem sandShort : Statement .sandShort := of_short 0xe2 rfl rfl rfl
theorem sorShort : Statement .sorShort := of_short 0xe3 rfl rfl rfl
theorem sxorShort : Statement .sxorShort := of_short 0xe4 rfl rfl rfl
theorem sshlShort : Statement .sshlShort := of_short 0xe5 rfl rfl rfl
theorem sshrShort : Statement .sshrShort := of_short 0xe6 rfl rfl rfl
theorem ssraShort : Statement .ssraShort := of_short 0xe7 rfl rfl rfl
theorem smulShort : Statement .smulShort := of_short 0xe8 rfl rfl rfl
theorem sminShort : Statement .sminShort := of_short 0xe9 rfl rfl rfl
theorem smaxShort : Statement .smaxShort := of_short 0xea rfl rfl rfl
theorem scmpShort : Statement .scmpShort := of_short 0xeb rfl rfl rfl
theorem saddiShort : Statement .saddiShort := of_short 0xec rfl rfl rfl
theorem sshliShort : Statement .sshliShort := of_short 0xed rfl rfl rfl
theorem sshriShort : Statement .sshriShort := of_short 0xee rfl rfl rfl
theorem sliShort : Statement .sliShort := of_short 0xef rfl rfl rfl
theorem sldShort : Statement .sldShort := of_short 0xf0 rfl rfl rfl
theorem sstShort : Statement .sstShort := of_short 0xf1 rfl rfl rfl
theorem vaddF32Short : Statement .vaddF32Short := of_short 0xf2 rfl rfl rfl
theorem vsubShort : Statement .vsubShort := of_short 0xf3 rfl rfl rfl
theorem vmulShort : Statement .vmulShort := of_short 0xf4 rfl rfl rfl
theorem vaddI32Short : Statement .vaddI32Short := of_short 0xf5 rfl rfl rfl
theorem vmovShort : Statement .vmovShort := of_short 0xf6 rfl rfl rfl
theorem vldShort : Statement .vldShort := of_short 0xf7 rfl rfl rfl
theorem vstShort : Statement .vstShort := of_short 0xf8 rfl rfl rfl
theorem mandShort : Statement .mandShort := of_short 0xf9 rfl rfl rfl
theorem morShort : Statement .morShort := of_short 0xfa rfl rfl rfl
theorem retShort : Statement .retShort := of_short 0xfb rfl rfl rfl
theorem nopShort : Statement .nopShort := of_short 0xfc rfl rfl rfl
theorem phcommitShort : Statement .phcommitShort := of_short 0xfd rfl rfl rfl
theorem yieldShort : Statement .yieldShort := of_short 0xfe rfl rfl rfl
theorem vmaxShort : Statement .vmaxShort := of_short 0xff rfl rfl rfl
theorem vadd : Statement .vadd := of_long 0x100 rfl rfl (by decide) fun _ _ _ => rfl
theorem vsub : Statement .vsub := of_long 0x101 rfl rfl (by decide) fun _ _ _ => rfl
theorem vmul : Statement .vmul := of_long 0x102 rfl rfl (by decide) fun _ _ _ => rfl
theorem vfma : Statement .vfma := of_long 0x103 rfl rfl (by decide) fun _ _ _ => rfl
theorem vfms : Statement .vfms := of_long 0x104 rfl rfl (by decide) fun _ _ _ => rfl
theorem vfnma : Statement .vfnma := of_long 0x105 rfl rfl (by decide) fun _ _ _ => rfl
theorem vmin : Statement .vmin := of_long 0x106 rfl rfl (by decide) fun _ _ _ => rfl
theorem vmax : Statement .vmax := of_long 0x107 rfl rfl (by decide) fun _ _ _ => rfl
theorem vabs : Statement .vabs := of_long 0x108 rfl rfl (by decide) fun _ _ _ => rfl
theorem vneg : Statement .vneg := of_long 0x109 rfl rfl (by decide) fun _ _ _ => rfl
theorem vand : Statement .vand := of_long 0x10a rfl rfl (by decide) fun _ _ _ => rfl
theorem vor : Statement .vor := of_long 0x10b rfl rfl (by decide) fun _ _ _ => rfl
theorem vxor : Statement .vxor := of_long 0x10c rfl rfl (by decide) fun _ _ _ => rfl
theorem vshl : Statement .vshl := of_long 0x10d rfl rfl (by decide) fun _ _ _ => rfl
theorem vshr : Statement .vshr := of_long 0x10e rfl rfl (by decide) fun _ _ _ => rfl
theorem vsra : Statement .vsra := of_long 0x10f rfl rfl (by decide) fun _ _ _ => rfl
theorem vadds : Statement .vadds := of_long 0x110 rfl rfl (by decide) fun _ _ _ => rfl
theorem vmuls : Statement .vmuls := of_long 0x111 rfl rfl (by decide) fun _ _ _ => rfl
theorem vaddi : Statement .vaddi := of_long 0x112 rfl rfl (by decide) fun _ _ _ => rfl
theorem vandi : Statement .vandi := of_long 0x113 rfl rfl (by decide) fun _ _ _ => rfl
theorem vshli : Statement .vshli := of_long 0x114 rfl rfl (by decide) fun _ _ _ => rfl
theorem vshri : Statement .vshri := of_long 0x115 rfl rfl (by decide) fun _ _ _ => rfl
theorem vsrai : Statement .vsrai := of_long 0x116 rfl rfl (by decide) fun _ _ _ => rfl
theorem vmov : Statement .vmov := of_long 0x118 rfl rfl (by decide) fun _ _ _ => rfl
theorem vsel : Statement .vsel := of_long 0x119 rfl rfl (by decide) fun _ _ _ => rfl
theorem vbcast : Statement .vbcast := of_long 0x11a rfl rfl (by decide) fun _ _ _ => rfl
theorem vins : Statement .vins := of_long 0x11b rfl rfl (by decide) fun _ _ _ => rfl
theorem vext : Statement .vext := of_long 0x11c rfl rfl (by decide) fun _ _ _ => rfl
theorem viota : Statement .viota := of_long 0x11d rfl rfl (by decide) fun _ _ _ => rfl
theorem vcmp : Statement .vcmp := of_long 0x120 rfl rfl (by decide) fun _ _ _ => rfl
theorem vclass : Statement .vclass := of_long 0x121 rfl rfl (by decide) fun _ _ _ => rfl
theorem vcvt : Statement .vcvt := of_long 0x128 rfl rfl (by decide) fun _ _ _ => rfl
theorem ve2enc : Statement .ve2enc := of_long 0x129 rfl rfl (by decide) fun _ _ _ => rfl
theorem ve2dec : Statement .ve2dec := of_long 0x12a rfl rfl (by decide) fun _ _ _ => rfl
theorem vbenc : Statement .vbenc := of_long 0x12b rfl rfl (by decide) fun _ _ _ => rfl
theorem vbdec : Statement .vbdec := of_long 0x12c rfl rfl (by decide) fun _ _ _ => rfl
theorem vradd : Statement .vradd := of_long 0x130 rfl rfl (by decide) fun _ _ _ => rfl
theorem vrmin : Statement .vrmin := of_long 0x131 rfl rfl (by decide) fun _ _ _ => rfl
theorem vrmax : Statement .vrmax := of_long 0x132 rfl rfl (by decide) fun _ _ _ => rfl
theorem vperm : Statement .vperm := of_long 0x138 rfl rfl (by decide) fun _ _ _ => rfl
theorem vperm2 : Statement .vperm2 := of_long 0x139 rfl rfl (by decide) fun _ _ _ => rfl
theorem vpack : Statement .vpack := of_long 0x13a rfl rfl (by decide) fun _ _ _ => rfl
theorem vunpk : Statement .vunpk := of_long 0x13b rfl rfl (by decide) fun _ _ _ => rfl
theorem vrot : Statement .vrot := of_long 0x13c rfl rfl (by decide) fun _ _ _ => rfl
theorem vexp : Statement .vexp := of_long 0x140 rfl rfl (by decide) fun _ _ _ => rfl
theorem vlog : Statement .vlog := of_long 0x141 rfl rfl (by decide) fun _ _ _ => rfl
theorem vrcp : Statement .vrcp := of_long 0x142 rfl rfl (by decide) fun _ _ _ => rfl
theorem vrsqrt : Statement .vrsqrt := of_long 0x143 rfl rfl (by decide) fun _ _ _ => rfl
theorem vrnd : Statement .vrnd := of_long 0x144 rfl rfl (by decide) fun _ _ _ => rfl
theorem vscl : Statement .vscl := of_long 0x145 rfl rfl (by decide) fun _ _ _ => rfl
theorem vsort : Statement .vsort := of_long 0x146 rfl rfl (by decide) fun _ _ _ => rfl
theorem vld : Statement .vld := of_long 0x150 rfl rfl (by decide) fun _ _ _ => rfl
theorem vst : Statement .vst := of_long 0x151 rfl rfl (by decide) fun _ _ _ => rfl
theorem vlds : Statement .vlds := of_long 0x152 rfl rfl (by decide) fun _ _ _ => rfl
theorem vsts : Statement .vsts := of_long 0x153 rfl rfl (by decide) fun _ _ _ => rfl
theorem tcfg : Statement .tcfg := of_long 0x200 rfl rfl (by decide) fun _ _ _ => rfl
theorem tzero : Statement .tzero := of_long 0x201 rfl rfl (by decide) fun _ _ _ => rfl
theorem tconst : Statement .tconst := of_long 0x202 rfl rfl (by decide) fun _ _ _ => rfl
theorem tramp : Statement .tramp := of_long 0x203 rfl rfl (by decide) fun _ _ _ => rfl
theorem trepeat : Statement .trepeat := of_long 0x204 rfl rfl (by decide) fun _ _ _ => rfl
theorem tld : Statement .tld := of_long 0x208 rfl rfl (by decide) fun _ _ _ => rfl
theorem tlda : Statement .tlda := of_long 0x209 rfl rfl (by decide) fun _ _ _ => rfl
theorem tst : Statement .tst := of_long 0x20a rfl rfl (by decide) fun _ _ _ => rfl
theorem tsta : Statement .tsta := of_long 0x20b rfl rfl (by decide) fun _ _ _ => rfl
theorem twrow : Statement .twrow := of_long 0x210 rfl rfl (by decide) fun _ _ _ => rfl
theorem trrow : Statement .trrow := of_long 0x211 rfl rfl (by decide) fun _ _ _ => rfl
theorem twcol : Statement .twcol := of_long 0x212 rfl rfl (by decide) fun _ _ _ => rfl
theorem trcol : Statement .trcol := of_long 0x213 rfl rfl (by decide) fun _ _ _ => rfl
theorem tadd : Statement .tadd := of_long 0x218 rfl rfl (by decide) fun _ _ _ => rfl
theorem tsub : Statement .tsub := of_long 0x219 rfl rfl (by decide) fun _ _ _ => rfl
theorem tmul : Statement .tmul := of_long 0x21a rfl rfl (by decide) fun _ _ _ => rfl
theorem tmin : Statement .tmin := of_long 0x21b rfl rfl (by decide) fun _ _ _ => rfl
theorem tmax : Statement .tmax := of_long 0x21c rfl rfl (by decide) fun _ _ _ => rfl
theorem tscale : Statement .tscale := of_long 0x21d rfl rfl (by decide) fun _ _ _ => rfl
theorem tcvt : Statement .tcvt := of_long 0x21e rfl rfl (by decide) fun _ _ _ => rfl
theorem ttrans : Statement .ttrans := of_long 0x21f rfl rfl (by decide) fun _ _ _ => rfl
theorem tredrow : Statement .tredrow := of_long 0x220 rfl rfl (by decide) fun _ _ _ => rfl
theorem tsymxStrict : Statement .tsymxStrict := of_long 0x228 rfl rfl (by decide) fun _ _ h => congrArg some (sub_op_row rfl (by simp) h)
theorem tsymxFast : Statement .tsymxFast := of_long 0x228 rfl rfl (by decide) fun _ _ h => congrArg some (sub_op_row rfl (by simp) h)
theorem tstatRegister : Statement .tstatRegister := of_long 0x229 rfl rfl (by decide) fun _ _ h => congrArg some (sub_op_row rfl (by simp) h)
theorem tstatHandle : Statement .tstatHandle := of_long 0x229 rfl rfl (by decide) fun _ _ h => congrArg some (sub_op_row rfl (by simp) h)
theorem tmatl : Statement .tmatl := of_long 0x22a rfl rfl (by decide) fun _ _ _ => rfl
theorem tspillSave : Statement .tspillSave := of_long 0x22b rfl rfl (by decide) fun _ _ h => congrArg some (sub_op_row rfl (by simp) h)
theorem tspillLazy : Statement .tspillLazy := of_long 0x22b rfl rfl (by decide) fun _ _ h => congrArg some (sub_op_row rfl (by simp) h)
theorem tspillRestore : Statement .tspillRestore := of_long 0x22b rfl rfl (by decide) fun _ _ h => congrArg some (sub_op_row rfl (by simp) h)
theorem trelease : Statement .trelease := of_long 0x22c rfl rfl (by decide) fun _ _ _ => rfl
theorem tmov : Statement .tmov := of_long 0x22d rfl rfl (by decide) fun _ _ _ => rfl
theorem texcset : Statement .texcset := of_long 0x22e rfl rfl (by decide) fun _ _ _ => rfl
theorem texcget : Statement .texcget := of_long 0x22f rfl rfl (by decide) fun _ _ _ => rfl
theorem mloadw : Statement .mloadw := of_long 0x280 rfl rfl (by decide) fun _ _ _ => rfl
theorem mloadwh : Statement .mloadwh := of_long 0x281 rfl rfl (by decide) fun _ _ _ => rfl
theorem mswap : Statement .mswap := of_long 0x282 rfl rfl (by decide) fun _ _ _ => rfl
theorem mstream : Statement .mstream := of_long 0x283 rfl rfl (by decide) fun _ _ _ => rfl
theorem mstreamh : Statement .mstreamh := of_long 0x284 rfl rfl (by decide) fun _ _ _ => rfl
theorem mmac : Statement .mmac := of_long 0x285 rfl rfl (by decide) fun _ _ _ => rfl
theorem mmach : Statement .mmach := of_long 0x286 rfl rfl (by decide) fun _ _ _ => rfl
theorem mepi : Statement .mepi := of_long 0x287 rfl rfl (by decide) fun _ _ _ => rfl
theorem mdrain : Statement .mdrain := of_long 0x288 rfl rfl (by decide) fun _ _ _ => rfl
theorem mzacc : Statement .mzacc := of_long 0x289 rfl rfl (by decide) fun _ _ _ => rfl
theorem maccld : Statement .maccld := of_long 0x28a rfl rfl (by decide) fun _ _ _ => rfl
theorem maccst : Statement .maccst := of_long 0x28b rfl rfl (by decide) fun _ _ _ => rfl
theorem cpy : Statement .cpy := of_long 0x2c0 rfl rfl (by decide) fun _ _ _ => rfl
theorem cpyw : Statement .cpyw := of_long 0x2c1 rfl rfl (by decide) fun _ _ _ => rfl
theorem gather : Statement .gather := of_long 0x2c2 rfl rfl (by decide) fun _ _ _ => rfl
theorem gatherb : Statement .gatherb := of_long 0x2c3 rfl rfl (by decide) fun _ _ _ => rfl
theorem chlink : Statement .chlink := of_long 0x2c4 rfl rfl (by decide) fun _ _ _ => rfl
theorem chkick : Statement .chkick := of_long 0x2c5 rfl rfl (by decide) fun _ _ _ => rfl
theorem xwait : Statement .xwait := of_long 0x2c6 rfl rfl (by decide) fun _ _ _ => rfl
theorem xpoll : Statement .xpoll := of_long 0x2c7 rfl rfl (by decide) fun _ _ _ => rfl
theorem evpop : Statement .evpop := of_long 0x2c8 rfl rfl (by decide) fun _ _ _ => rfl
theorem txqpop : Statement .txqpop := of_long 0x2c9 rfl rfl (by decide) fun _ _ _ => rfl
theorem chseq : Statement .chseq := of_long 0x2ca rfl rfl (by decide) fun _ _ _ => rfl
theorem qdepth : Statement .qdepth := of_long 0x2cb rfl rfl (by decide) fun _ _ _ => rfl
theorem pcinc : Statement .pcinc := of_long 0x300 rfl rfl (by decide) fun _ _ _ => rfl
theorem pcdec : Statement .pcdec := of_long 0x301 rfl rfl (by decide) fun _ _ _ => rfl
theorem fwait : Statement .fwait := of_long 0x302 rfl rfl (by decide) fun _ _ _ => rfl
theorem fpoll : Statement .fpoll := of_long 0x303 rfl rfl (by decide) fun _ _ _ => rfl
theorem psreg : Statement .psreg := of_long 0x304 rfl rfl (by decide) fun _ _ _ => rfl
theorem gbar : Statement .gbar := of_long 0x305 rfl rfl (by decide) fun _ _ _ => rfl
theorem fence : Statement .fence := of_long 0x306 rfl rfl (by decide) fun _ _ _ => rfl
theorem pfence : Statement .pfence := of_long 0x307 rfl rfl (by decide) fun _ _ _ => rfl
theorem aadd : Statement .aadd := of_long 0x310 rfl rfl (by decide) fun _ _ _ => rfl
theorem aand : Statement .aand := of_long 0x311 rfl rfl (by decide) fun _ _ _ => rfl
theorem aor : Statement .aor := of_long 0x312 rfl rfl (by decide) fun _ _ _ => rfl
theorem axor : Statement .axor := of_long 0x313 rfl rfl (by decide) fun _ _ _ => rfl
theorem amin : Statement .amin := of_long 0x314 rfl rfl (by decide) fun _ _ _ => rfl
theorem amax : Statement .amax := of_long 0x315 rfl rfl (by decide) fun _ _ _ => rfl
theorem axchg : Statement .axchg := of_long 0x316 rfl rfl (by decide) fun _ _ _ => rfl
theorem acas : Statement .acas := of_long 0x317 rfl rfl (by decide) fun _ _ _ => rfl
theorem aaddNr : Statement .aaddNr := of_long 0x318 rfl rfl (by decide) fun _ _ _ => rfl
theorem aandNr : Statement .aandNr := of_long 0x319 rfl rfl (by decide) fun _ _ _ => rfl
theorem aorNr : Statement .aorNr := of_long 0x31a rfl rfl (by decide) fun _ _ _ => rfl
theorem axorNr : Statement .axorNr := of_long 0x31b rfl rfl (by decide) fun _ _ _ => rfl
theorem aminNr : Statement .aminNr := of_long 0x31c rfl rfl (by decide) fun _ _ _ => rfl
theorem amaxNr : Statement .amaxNr := of_long 0x31d rfl rfl (by decide) fun _ _ _ => rfl
theorem axchgNr : Statement .axchgNr := of_long 0x31e rfl rfl (by decide) fun _ _ _ => rfl
theorem acasNr : Statement .acasNr := of_long 0x31f rfl rfl (by decide) fun _ _ _ => rfl
theorem red : Statement .red := of_long 0x320 rfl rfl (by decide) fun _ _ _ => rfl
theorem collReduce : Statement .collReduce := of_long 0x321 rfl rfl (by decide) fun _ _ h => congrArg some (sub_op_row rfl (by simp) h)
theorem collAllreduce : Statement .collAllreduce := of_long 0x321 rfl rfl (by decide) fun _ _ h => congrArg some (sub_op_row rfl (by simp) h)
theorem collAllgather : Statement .collAllgather := of_long 0x321 rfl rfl (by decide) fun _ _ h => congrArg some (sub_op_row rfl (by simp) h)
theorem collBcast : Statement .collBcast := of_long 0x321 rfl rfl (by decide) fun _ _ h => congrArg some (sub_op_row rfl (by simp) h)
theorem tspawn : Statement .tspawn := of_long 0x340 rfl rfl (by decide) fun _ _ _ => rfl
theorem tjoin : Statement .tjoin := of_long 0x341 rfl rfl (by decide) fun _ _ _ => rfl
theorem texit : Statement .texit := of_long 0x342 rfl rfl (by decide) fun _ _ h => congrArg some (sub_op_row rfl (by simp) h)
theorem texitDrop : Statement .texitDrop := of_long 0x342 rfl rfl (by decide) fun _ _ h => congrArg some (sub_op_row rfl (by simp) h)
theorem tinfo : Statement .tinfo := of_long 0x343 rfl rfl (by decide) fun _ _ _ => rfl
theorem tenq : Statement .tenq := of_long 0x344 rfl rfl (by decide) fun _ _ _ => rfl
theorem trap : Statement .trap := of_long 0x360 rfl rfl (by decide) fun _ _ _ => rfl
theorem tret : Statement .tret := of_long 0x361 rfl rfl (by decide) fun _ _ _ => rfl
theorem yield : Statement .yield := of_long 0x362 rfl rfl (by decide) fun _ _ _ => rfl
theorem bkpt : Statement .bkpt := of_long 0x363 rfl rfl (by decide) fun _ _ _ => rfl
theorem waitev : Statement .waitev := of_long 0x364 rfl rfl (by decide) fun _ _ _ => rfl
theorem trmark : Statement .trmark := of_long 0x368 rfl rfl (by decide) fun _ _ _ => rfl
theorem trstart : Statement .trstart := of_long 0x369 rfl rfl (by decide) fun _ _ _ => rfl
theorem trstop : Statement .trstop := of_long 0x36a rfl rfl (by decide) fun _ _ _ => rfl
theorem capstart : Statement .capstart := of_long 0x36b rfl rfl (by decide) fun _ _ _ => rfl
theorem capstop : Statement .capstop := of_long 0x36c rfl rfl (by decide) fun _ _ _ => rfl
theorem phcommit : Statement .phcommit := of_long 0x370 rfl rfl (by decide) fun _ _ _ => rfl
theorem coolreq : Statement .coolreq := of_long 0x378 rfl rfl (by decide) fun _ _ _ => rfl
theorem coolrel : Statement .coolrel := of_long 0x379 rfl rfl (by decide) fun _ _ _ => rfl
theorem coolstat : Statement .coolstat := of_long 0x37a rfl rfl (by decide) fun _ _ _ => rfl
theorem clklock : Statement .clklock := of_long 0x380 rfl rfl (by decide) fun _ _ _ => rfl
theorem clkfree : Statement .clkfree := of_long 0x381 rfl rfl (by decide) fun _ _ _ => rfl
theorem longLatencyFill : Statement .longLatencyFill := of_device rfl
theorem stall : Statement .stall := of_device rfl
theorem tasterCompare : Statement .tasterCompare := of_device rfl
theorem engineCommandBegin : Statement .engineCommandBegin := of_device rfl
theorem engineCommandComplete : Statement .engineCommandComplete := of_device rfl
theorem operandFetch : Statement .operandFetch := of_device rfl
theorem chainEntryRead : Statement .chainEntryRead := of_device rfl
theorem chainEntryDone : Statement .chainEntryDone := of_device rfl
theorem tlbWalkComplete : Statement .tlbWalkComplete := of_device rfl
theorem multicastLand : Statement .multicastLand := of_device rfl
theorem storeArriveHome : Statement .storeArriveHome := of_device rfl
theorem tileCommit : Statement .tileCommit := of_device rfl
theorem dieViewApply : Statement .dieViewApply := of_device rfl
theorem atomicMoved : Statement .atomicMoved := of_device rfl
theorem progressVerdict : Statement .progressVerdict := of_device rfl
theorem countUpdateApply : Statement .countUpdateApply := of_device rfl
theorem frontierNotice : Statement .frontierNotice := of_device rfl
theorem collectiveDone : Statement .collectiveDone := of_device rfl
theorem joinDecrement : Statement .joinDecrement := of_device rfl
theorem gangAdmit : Statement .gangAdmit := of_device rfl
theorem memberRelease : Statement .memberRelease := of_device rfl
theorem taskComplete : Statement .taskComplete := of_device rfl
theorem frameTick : Statement .frameTick := of_device rfl
theorem preemptSelect : Statement .preemptSelect := of_device rfl
theorem yieldDeadline : Statement .yieldDeadline := of_device rfl
theorem checkpoint : Statement .checkpoint := of_device rfl
theorem killRequeue : Statement .killRequeue := of_device rfl
theorem taskKill : Statement .taskKill := of_device rfl
theorem creqSched : Statement .creqSched := of_device rfl
theorem drawStart : Statement .drawStart := of_device rfl
theorem rollback : Statement .rollback := of_device rfl
theorem dieFailure : Statement .dieFailure := of_device rfl
theorem write : Statement .write := of_device rfl
theorem read : Statement .read := of_device rfl
theorem resp : Statement .resp := of_device rfl
theorem redPacket : Statement .redPacket := of_device rfl
theorem pbatch : Statement .pbatch := of_device rfl
theorem colld : Statement .colld := of_device rfl
theorem fopen : Statement .fopen := of_device rfl
theorem fclose : Statement .fclose := of_device rfl
theorem fack : Statement .fack := of_device rfl
theorem ack : Statement .ack := of_device rfl
theorem nak : Statement .nak := of_device rfl
theorem degrade : Statement .degrade := of_device rfl
theorem linkPacketReceive : Statement .linkPacketReceive := of_device rfl
theorem linkAckTimer : Statement .linkAckTimer := of_device rfl
theorem ltimeout : Statement .ltimeout := of_device rfl
theorem laneFailed : Statement .laneFailed := of_device rfl
theorem retrainDone : Statement .retrainDone := of_device rfl
theorem linkDown : Statement .linkDown := of_device rfl
theorem ftimeout : Statement .ftimeout := of_device rfl
theorem flowIdleClose : Statement .flowIdleClose := of_device rfl
theorem fetch : Statement .fetch := of_device rfl
theorem spill : Statement .spill := of_device rfl
theorem evict : Statement .evict := of_device rfl
theorem free : Statement .free := of_device rfl
theorem alloc : Statement .alloc := of_device rfl
theorem rackRequestComplete : Statement .rackRequestComplete := of_device rfl
theorem rackDriveTimeout : Statement .rackDriveTimeout := of_device rfl
theorem messageDescriptor : Statement .messageDescriptor := of_device rfl
theorem inflate : Statement .inflate := of_device rfl
theorem charsetConvert : Statement .charsetConvert := of_device rfl
theorem tokenise : Statement .tokenise := of_device rfl
theorem tfeQueueResume : Statement .tfeQueueResume := of_device rfl
theorem batchReady : Statement .batchReady := of_device rfl
theorem quarantineRecord : Statement .quarantineRecord := of_device rfl
theorem valveControlStep : Statement .valveControlStep := of_device rfl
theorem overtemp : Statement .overtemp := of_device rfl
theorem lowflow : Statement .lowflow := of_device rfl
theorem dry : Statement .dry := of_device rfl
theorem valve : Statement .valve := of_device rfl
theorem evacGangsStopped : Statement .evacGangsStopped := of_device rfl
theorem evacDrainExpire : Statement .evacDrainExpire := of_device rfl
theorem evacValveSettled : Statement .evacValveSettled := of_device rfl
theorem evacPurgeEnd : Statement .evacPurgeEnd := of_device rfl
theorem evacRampStep : Statement .evacRampStep := of_device rfl
theorem evacVerifyEnd : Statement .evacVerifyEnd := of_device rfl
theorem powerOverlimit : Statement .powerOverlimit := of_device rfl
theorem powerHardThrottle : Statement .powerHardThrottle := of_device rfl
theorem moduleReset : Statement .moduleReset := of_device rfl
theorem bar2Read : Statement .bar2Read := of_device rfl
theorem bar2Write : Statement .bar2Write := of_device rfl
theorem winbaseWrite : Statement .winbaseWrite := of_device rfl
theorem status : Statement .status := of_device rfl
theorem mailboxFence : Statement .mailboxFence := of_device rfl
theorem ctxload : Statement .ctxload := of_device rfl
theorem ctxdestroy : Statement .ctxdestroy := of_device rfl
theorem ptinv : Statement .ptinv := of_device rfl
theorem taskkill : Statement .taskkill := of_device rfl
theorem qread : Statement .qread := of_device rfl
theorem poolreg : Statement .poolreg := of_device rfl
theorem streamopen : Statement .streamopen := of_device rfl
theorem streamclose : Statement .streamclose := of_device rfl
theorem mtabload : Statement .mtabload := of_device rfl
theorem route : Statement .route := of_device rfl
theorem group : Statement .group := of_device rfl
theorem fwload : Statement .fwload := of_device rfl
theorem fwcommit : Statement .fwcommit := of_device rfl
theorem cert : Statement .cert := of_device rfl
theorem quote : Statement .quote := of_device rfl
theorem csrwrTshp : Statement .csrwrTshp := of_long 0x71 rfl rfl (by decide) fun _ h _ => congrArg some (csr_row rfl h)
theorem csrwrTloc : Statement .csrwrTloc := of_long 0x71 rfl rfl (by decide) fun _ h _ => congrArg some (csr_row rfl h)
theorem ttinv : Statement .ttinv := of_long 0x71 rfl rfl (by decide) fun _ h _ => congrArg some (csr_row rfl h)
theorem csrwrTtbase : Statement .csrwrTtbase := of_long 0x71 rfl rfl (by decide) fun _ h _ => congrArg some (csr_row rfl h)
theorem csrwrTxqcfg : Statement .csrwrTxqcfg := of_long 0x71 rfl rfl (by decide) fun _ h _ => congrArg some (csr_row rfl h)
theorem csrwrPhctl : Statement .csrwrPhctl := of_long 0x71 rfl rfl (by decide) fun _ h _ => congrArg some (csr_row rfl h)
theorem csrwrTokcnt : Statement .csrwrTokcnt := of_long 0x71 rfl rfl (by decide) fun _ h _ => congrArg some (csr_row rfl h)
theorem csrwrSpdbg : Statement .csrwrSpdbg := of_long 0x71 rfl rfl (by decide) fun _ h _ => congrArg some (csr_row rfl h)
theorem csrwrLfsr : Statement .csrwrLfsr := of_long 0x71 rfl rfl (by decide) fun _ h _ => congrArg some (csr_row rfl h)
theorem csrwrTrace : Statement .csrwrTrace := of_long 0x71 rfl rfl (by decide) fun _ h _ => congrArg some (csr_row rfl h)
theorem xerrClear : Statement .xerrClear := of_long 0x71 rfl rfl (by decide) fun _ h _ => congrArg some (csr_row rfl h)
theorem vatFloorWrite : Statement .vatFloorWrite := of_device rfl
theorem framelenWrite : Statement .framelenWrite := of_device rfl
theorem linkRetrain : Statement .linkRetrain := of_device rfl
theorem laneRequalify : Statement .laneRequalify := of_device rfl
theorem registerWrite : Statement .registerWrite := of_device rfl
theorem symbolLockLost : Statement .symbolLockLost := of_device rfl
theorem symbolLockRegained : Statement .symbolLockRegained := of_device rfl
theorem overtempClear : Statement .overtempClear := of_device rfl
theorem tcrit : Statement .tcrit := of_device rfl
theorem lowflowClear : Statement .lowflowClear := of_device rfl
theorem lowflowPersist : Statement .lowflowPersist := of_device rfl
theorem powerThrottleEnd : Statement .powerThrottleEnd := of_device rfl
theorem atomicApply : Statement .atomicApply := of_device rfl

end RowReadsBack

end Sys2Proof.Laws
end

