-- ==== Sys2Proof/Tests/Slice0.lean ====
section
/-! SUPPORT. Tests on fixed values taken from the spec, and the witnesses of the obligations' hypotheses. -/

namespace Sys2Proof.Tests

/- The witnesses are checked one after another, which keeps the memory that a check takes small. -/
set_option Elab.async false

open Sys2Proof Machine Decode WellFormed Safety

theorem test_wf_device_step_has_no_word : hasWord .moduleReset = false := by decide
theorem test_wf_form_is_refused : formAgrees .sadd (.short {}) = false ∧ formAgrees .saddShort (.long {}) = false := by decide
theorem test_wf_csr_row_is_refused : csrRow .csrwr { imm := 0x040 } = false ∧ csrRow .csrwrLfsr { imm := 0x041 } = false := by decide
theorem test_wf_sub_op_row_is_refused : subOpRow .tsymxStrict { imm := 1 } = false ∧ subOpRow .collBcast { md := 2 } = false ∧
    subOpRow .tspillSave { md := 2 } = false ∧ subOpRow .texit { md := 1 } = false ∧ subOpRow .tstatHandle { imm := 0x10 } = false := by decide
theorem test_wf_accepts : check .sadd (.long { dst := 4, sa := 2, sb := 3 }) = true ∧ check .vaddF32Short (.short { dst := 3 }) = true := by decide

/-- The short word of 05, "Encoding by hand", and the long one with SC = 3 at bits 33:28 as R81 says (the example's table
adds SC at bit 32, which R81 and every other worked word contradict). -/
theorem test_decode_vadd_short : decodeWord 0x00804083F2 = .ok (.vaddF32Short, .short { dst := 3, sa := 2, sb := 4, pd := 1 }) := by decide
theorem test_decode_vfma : decodeWord 0x00C1B40430811D03 =
    .ok (.vfma, .long { dst := 7, sa := 1, sb := 2, sc := 3, wa := 1, pd := 2, pred := 3, pneg := 1, ty := 1, md := 0xC }) := by decide
/-- The words of 06, after R124. -/
theorem test_decode_loopi : decodeWord 0x002A0100000001000061 = .ok (.loopi, .long { sb := 4, imm := 0x002A01 }) := by decide
theorem test_decode_brci : decodeWord 0x0000031000003F430052 = .ok (.brci, .long { sa := 3, sb := 61, sc := 3, md := 1, imm := 3 }) := by decide
/-- The word of 15 for TWROW T2, V2, S3 pd:1. -/
theorem test_decode_twrow : decodeWord 0x00000000020000C20A10 = .ok (.twrow, .long { dst := 2, sa := 2, sb := 3, pd := 1 }) := by decide
/-- The word of 15 for TSPILL.RESTORE 0x4. -/
theorem test_decode_tspill : decodeWord 0x0000041000000000022B = .ok (.tspillLazy, .long { md := 1, imm := 4 }) ∧
    decodeWord 0x0000042000000000022B = .ok (.tspillRestore, .long { md := 2, imm := 4 }) := by decide
/-- The word of 16 for FWAIT S6~, S52, S51 wmax:4000. -/
theorem test_decode_fwait : decodeWord 0x0FA0000001000CF41B02 = .ok (.fwait, .long { dst := 6, sa := 52, sb := 51, emp := 1, imm := 0x0FA000 }) := by decide
/-- The words of 27 for CPY and XWAIT, of 22 for TSPAWN, of 21 for MSTREAM. -/
theorem test_decode_cpy : decodeWord 0x000000200101E00426C0 = .ok (.cpy, .long { dst := 9, sa := 4, sc := 30, emp := 1, md := 2 }) := by decide
theorem test_decode_xwait : decodeWord 0x03E80400010400092AC6 = .ok (.xwait, .long { dst := 10, sa := 9, wa := 1, emp := 1, imm := 0x03E804 }) := by decide
theorem test_decode_tspawn : decodeWord 0x00000000010009479F40 = .ok (.tspawn, .long { dst := 39, sa := 7, sb := 37, emp := 1 }) := by decide
theorem test_decode_mstream : decodeWord 0x00000011000006CE0283 = .ok (.mstream, .long { sa := 14, sb := 27, ty := 1, md := 1 }) := by decide
theorem test_decode_pfence : decodeWord 0x00005100000000000307 = .ok (.pfence, .long { imm := 0x51 }) := by decide
theorem test_decode_unassigned : decodeWord 0x3C0 = .error (.unassigned 0x3C0) ∧ decode [0xFC, 0, 0] = .error .truncated := by decide

/-! Small states. -/

/-- The machine after reset, with an instruction to issue and the scalar and mask registers that are named. -/
def stateAt (f : Fields) (s : List (Nat × Word) := []) (m : List (Nat × Word) := []) : State :=
  let r := State.reset
  { r with core := { r.core with status := .running, q := { r.core.q with
      ir := f, s := s.foldl (fun v p => vput v p.1 p.2) r.core.q.s, m := m.foldl (fun v p => vput v p.1 p.2) r.core.q.m } } }
/-- The instruction's checks and holds pass, it is not predicated off, and no loop ends at the PC. -/
def readyAt (i : Instr) (s : State) : Bool :=
  match shapeOf i s with
  | some (sh, lat) => decide (Ready sh lat s)
  | none => false
def completes (i : Instr) (s : State) : Bool := match exec i s with | .next _ => true | _ => false
/-- A property of the next state. -/
def after (i : Instr) (s : State) (p : State → Bool) : Bool := match exec i s with | .next t => p t | _ => false
def emptied (n : Nat) (s : State) : State := { s with core := { s.core with q := { s.core.q with sFull := setBit s.core.q.sFull n false } } }

/-! Every form is ready to issue somewhere. -/

theorem witness_ready_scalar : (∀ i ∈ scalarRows, readyAt i (stateAt {}) = true) ∧
    (∀ i ∈ [Instr.sld, .sst, .sldShort, .sstShort, .br, .brc, .brci, .bri, .call, .calli, .ret, .retShort, .csrrd, .csrwr, .csrwrTshp, .csrwrTloc,
      .ttinv, .csrwrTtbase, .csrwrTxqcfg, .csrwrPhctl, .csrwrTokcnt, .csrwrSpdbg, .csrwrLfsr, .csrwrTrace, .xerrClear], readyAt i (stateAt {}) = true) ∧
    readyAt .loop (stateAt { imm := 0x4200 }) = true ∧ readyAt .loopi (stateAt { imm := 0x4200 }) = true ∧
    readyAt .loops (stateAt { imm := 0x4240 }) = true := by decide +kernel
theorem witness_ready_vector :
    (∀ i ∈ [Instr.vadd, .vsub, .vmul, .vfma, .vfms, .vfnma, .vmin, .vmax, .vabs, .vneg, .vadds, .vmuls, .vcmp, .vclass, .ve2enc, .ve2dec, .vradd, .vrmin,
      .vrmax, .vexp, .vrcp, .vrsqrt, .vrnd, .vscl, .vsort, .vaddF32Short, .vsubShort, .vmulShort, .vaddI32Short, .vmaxShort],
      readyAt i (stateAt { ty := 1 }) = true) ∧
    (∀ i ∈ [Instr.vand, .vor, .vxor, .vshl, .vshr, .vsra, .vandi, .vshli, .vshri, .vsrai, .vmov, .vsel, .vbcast, .vins, .vext, .vperm, .vperm2, .vrot,
      .vmovShort, .vst, .vsts, .vstShort], readyAt i (stateAt {}) = true) ∧
    (∀ i ∈ [Instr.vld, .vlds, .vldShort], readyAt i (stateAt { md := 2 }) = true) ∧
    (∀ i ∈ [Instr.vaddi, .viota], readyAt i (stateAt { ty := 8 }) = true) ∧ readyAt .vcvt (stateAt { ty := 1, imm := 1 }) = true ∧
    (∀ i ∈ [Instr.vbenc, .vbdec], readyAt i (stateAt { ty := 9, imm := 1 }) = true) ∧
    (∀ i ∈ [Instr.vpack, .vunpk], readyAt i (stateAt { ty := 2 }) = true) ∧
    readyAt .vlog (stateAt { ty := 1, emp := 1 }) = true ∧ readyAt .vmul (stateAt { ty := 0xA, emp := 1 }) = true ∧
    readyAt .vmuls (stateAt { ty := 0xA, emp := 1 }) = true := by decide +kernel
theorem witness_ready_tile :
    (∀ i ∈ [Instr.tcfg, .tzero, .tconst, .tramp, .trepeat, .tld, .tlda, .tst, .tsta, .twrow, .trrow, .twcol, .trcol,
      .tcvt, .ttrans, .tsymxStrict, .tsymxFast, .tstatRegister, .tstatHandle, .tmatl, .tspillSave, .tspillLazy, .tspillRestore, .trelease, .tmov,
      .texcset, .texcget, .mloadwh, .mswap, .mstreamh, .mmac, .mmach, .mepi, .mzacc, .maccld], readyAt i (stateAt {}) = true) ∧
    readyAt .tredrow (stateAt { ty := 1, emp := 1 }) = true ∧ readyAt .mdrain (stateAt { dst := 1, emp := 1 }) = true ∧
    (∀ i ∈ [Instr.mloadw, .mstream, .maccst, .tadd, .tsub, .tmul, .tmin, .tmax, .tscale], readyAt i (stateAt { ty := 1 }) = true) := by decide +kernel
theorem witness_ready_engine :
    (∀ i ∈ [Instr.cpy, .cpyw, .gather, .gatherb], readyAt i (stateAt { md := 1 }) = true) ∧
    (∀ i ∈ [Instr.chlink, .chkick, .chseq, .xpoll, .qdepth, .evpop, .txqpop], readyAt i (stateAt {}) = true) ∧
    readyAt .xwait (stateAt { imm := 0x200 }) = true := by decide +kernel
theorem witness_ready_progress :
    (∀ i ∈ [Instr.pcinc, .pcdec, .fence, .pfence], readyAt i (stateAt { imm := 1 }) = true) ∧
    (∀ i ∈ [Instr.fwait, .gbar], readyAt i (stateAt { imm := 0x200 }) = true) ∧ (∀ i ∈ [Instr.fpoll, .psreg], readyAt i (stateAt {}) = true) ∧
    (∀ i ∈ [Instr.aadd, .aand, .aor, .axor, .amin, .amax, .axchg, .acas], readyAt i (stateAt { dst := 1, emp := 1, ty := 0xF }) = true) ∧
    (∀ i ∈ [Instr.aaddNr, .aandNr, .aorNr, .axorNr, .aminNr, .amaxNr, .axchgNr, .acasNr], readyAt i (stateAt { ty := 0xF }) = true) ∧
    (∀ i ∈ [Instr.red, .collReduce, .collAllreduce], readyAt i (stateAt { ty := 1 }) = true) ∧
    (∀ i ∈ [Instr.collAllgather, .collBcast], readyAt i (stateAt {}) = true) := by decide +kernel
theorem witness_ready_system :
    (∀ i ∈ [Instr.tspawn, .tjoin, .texit, .texitDrop, .tinfo, .tenq, .trap, .yield, .yieldShort, .bkpt, .waitev, .trmark, .trstart, .trstop, .capstart,
      .capstop, .phcommit, .phcommitShort, .coolreq, .coolrel, .coolstat, .clklock, .clkfree], readyAt i (stateAt {}) = true) ∧
    readyAt .tret { stateAt {} with core := { (stateAt {}).core with trap := { (stateAt {}).core.trap with thm := true } } } = true := by decide +kernel

/-! Witnesses: issue. -/

theorem witness_ZeroRegistersAreConstant :
    shapeOf .sadd (stateAt { emp := 1 }) = some (shIntArith { emp := 1 }, some 1) ∧ (shIntArith { emp := 1 }).dst = .s ∧
    (shIntArith { emp := 1 }).emp ≠ .any := by decide +kernel
/-- Each detail from 2 to 8 is the lowest of some word. -/
theorem witness_LowestFailingDetailTraps :
    illegalDetail (shIntArith { ty := 1 }) { ty := 1 } = some 2 ∧ illegalDetail (shIntPlain { md := 8 }) { md := 8 } = some 3 ∧
    illegalDetail (shIntArith { imm := 1 }) { imm := 1 } = some 4 ∧ illegalDetail (shVraw1 { dst := 32 }) { dst := 32 } = some 5 ∧
    illegalDetail (shIntArith { wa := 3 }) { wa := 3 } = some 6 ∧ illegalDetail (shIntArith { emp := 1 }) { emp := 1 } = some 7 ∧
    illegalDetail (shIntArith { pneg := 1 }) { pneg := 1 } = some 8 := by decide +kernel
/-- An empty source under each wait mode, at each source of an instruction that has three. -/
theorem witness_WaitModesAtIssue :
    (∀ f ∈ [({ sa := 1, wa := 2 } : Fields), { sb := 1, wb := 2 }, { sc := 1, wc := 2 }, { sa := 1, wa := 1 }, { sb := 1, wb := 1 }, { sc := 1, wc := 1 }, { sa := 1 }],
      illegalDetail (shSsel f) f = none ∧ pdHeld (emptied 1 (stateAt f)).core.q f 0 = false) ∧
    (shSsel {}).sa.full (emptied 1 (stateAt {})).core.q 1 = false ∧ (shSsel {}).sb.full (emptied 1 (stateAt {})).core.q 1 = false ∧
    (shSsel {}).sc.full (emptied 1 (stateAt {})).core.q 1 = false ∧ (shSsel {}).sa ≠ .unused ∧ (shSsel {}).sb ≠ .unused ∧ (shSsel {}).sc ≠ .unused := by decide +kernel
theorem witness_HoldingAndRetiring :
    gate (shIntArith { dst := 1 }) (some 1) (emptied 1 (stateAt { dst := 1 })) = .hold ∧
    gate (shIntArith { sa := 1, wa := 1 }) (some 1) (emptied 1 (stateAt { sa := 1, wa := 1 })) = .wait ∧
    gate (shIntArith { pred := 1 }) (some 1) (stateAt { pred := 1 }) = .pass ∧ predOn (stateAt { pred := 1 }).core.q { pred := 1 } = false ∧
    plain .sadd = true ∧ Straight (stateAt { pred := 1 }) := by decide +kernel

/-! Witnesses: scalar instructions. -/

/-- I64 by TYPE 0 and 0xB, N8 and I8, at and beyond the ends of their ranges. -/
theorem witness_ScalarArithmeticResult : (∀ t ∈ [(0 : BitVec 4), 0x8, 0xB, 0xC, 0xF], intTy t = true) ∧ (scalarFmt 0x8).range = (-128, 127) ∧
    (scalarFmt 0xC).range = (0, 255) ∧ Ready (shSaddi {}) (some 1) (stateAt {}) ∧
    Ready (shIntLong { dst := 1, emp := 1 }) none (stateAt { dst := 1, emp := 1 }) ∧ Ready (shIntArith {}) (some 3) (stateAt {}) ∧
    Ready (shIntPlain {}) (some 3) (stateAt {}) ∧ Ready (shIntPlain {}) (some 1) (stateAt {}) ∧ Ready (shIntArith {}) (some 1) (stateAt {}) := by decide +kernel
theorem witness_ScalarLogicResult : Ready (shLogic {}) (some 1) (stateAt {}) ∧ Ready (shUnary {}) (some 1) (stateAt {}) ∧
    Ready (shLogicImm { imm := 0xFFFFFF }) (some 1) (stateAt { imm := 0xFFFFFF }) ∧ Ready (shShiftImm { imm := 63 }) (some 1) (stateAt { imm := 63 }) ∧
    Ready (shMask { dst := 7 }) (some 1) (stateAt { dst := 7 }) ∧ Ready (shMfroms {}) (some 1) (stateAt {}) ∧ Ready (shMtos {}) (some 1) (stateAt {}) := by decide +kernel
theorem witness_ImmediateAndBitFieldResult : Ready (shSli {}) (some 1) (stateAt {}) ∧ Ready (shSlih { imm := 0xFFFF }) (some 1) (stateAt { imm := 0xFFFF }) ∧
    Ready (shLogicImm {}) (some 1) (stateAt {}) ∧ Ready (shSbext { imm := 0xFC0 }) (some 1) (stateAt { imm := 0xFC0 }) ∧
    Ready (shSbins { imm := 63 }) (some 1) (stateAt { imm := 63 }) := by decide +kernel
theorem witness_ScalarCompareResult : Ready (shScmp {}) (some 1) (stateAt {}) ∧ Ready (shScmpi { md := 5 }) (some 1) (stateAt { md := 5 }) ∧
    Ready (shScmpm { ty := 1, md := 7 }) (some 1) (stateAt { ty := 1, md := 7 }) ∧ Ready (shSsel {}) (some 1) (stateAt { sa := 1 } [(1, 1)]) ∧
    (stateAt { sa := 1 } [(1, 1)]).core.q.getS 1 ≠ 0 ∧ (stateAt {}).core.q.getS 0 = 0 := by decide +kernel
/-- S1 names S63 and V0; both are full, or S63 is empty. -/
theorem witness_FullBitsAreReadAndAwaited : Ready (shFeget {}) (some 1) (stateAt {}) ∧ Ready (shFewaits { sa := 1 }) none (stateAt { sa := 1 } [(1, 2 ^ 63)]) ∧
    gate (shFewaits { sa := 1 }) none (emptied 63 (stateAt { sa := 1 } [(1, 2 ^ 63)])) = .pass ∧
    ((stateAt { sa := 1 } [(1, 2 ^ 63)]).core.q.getS 1).getLsbD 63 = true ∧ (emptied 63 (stateAt {})).core.q.fullS 63 = false ∧
    (∀ n < 64, (stateAt {}).core.q.fullS n = true) := by decide +kernel
theorem witness_NopOnlyOccupiesItsCyc : gate (shNop {}) none (stateAt {}) = .pass ∧ Straight (stateAt {}) ∧
    (({ md := 1 } : Fields) ≠ { pred := ({ md := 1 } : Fields).pred, pneg := ({ md := 1 } : Fields).pneg }) := by decide +kernel
theorem witness_ScalarFrame : ∀ i ∈ scalarRows, Straight (stateAt {}) ∧ readyAt i (stateAt {}) = true ∧ completes i (stateAt {}) = true := by decide +kernel

/-! Witnesses: control flow and control registers. -/

/-- The state with a NOP placed at slot 0 of line 0, whose slot is a target and whose page is mapped. -/
def placed (f : Fields) (s : List (Nat × Word) := []) : State := (stateAt f s).placeWord [0x7F]
/-- A loop that is active and ends at the PC. -/
def looping (rem : BitVec 32) (f : Fields) (s : List (Nat × Word) := []) : State :=
  let r := placed f s
  { r with core := { r.core with q := { r.core.q with loops := vput r.core.q.loops 0 { act := true, rem := rem } } } }

/-- To slot 0 of the line, to slot 30, which is none, to a register value of 51 and of 52 bits, and at the end of a loop. -/
theorem witness_TransferGoesToItsTarget :
    (Issues (shBr {}) none (placed {}) ∧ (placed {}).badTarget (placed {}).core (relTarget 0 {}) false = false ∧
      (placed {}).lineAway (placed {}).core (relTarget 0 {}) = none) ∧
    (Issues (shBrc {}) none (placed {}) ∧ Ready (shBrc { md := 1 }) none (placed { md := 1 }) ∧ condHolds 0 (.int 0) (.int 0) = true ∧
      condHolds 1 (.int 0) (.int 0) = false) ∧ (Issues (shBrci {}) none (placed {}) ∧ Ready (shBrci { md := 1 }) none (placed { md := 1 })) ∧
    (Issues (shBri {}) none (placed {}) ∧ (placed {}).badTarget (placed {}).core 0 false = false) ∧ Ready (shCall {}) (some 1) (placed {}) ∧
    Ready (shCalli {}) (some 1) (placed {}) ∧
    (Issues (shBr { imm := 30 }) none (placed { imm := 30 }) ∧ Ready (shCall { imm := 30 }) (some 1) (placed { imm := 30 }) ∧
      (placed {}).badTarget (placed {}).core (relTarget 0 { imm := 30 }) false = true) ∧
    (Issues (shBri { sa := 1 }) none (placed { sa := 1 } [(1, 2 ^ 51)]) ∧ Ready (shCalli { sa := 1 }) (some 1) (placed { sa := 1 } [(1, 2 ^ 51)]) ∧
      2 ^ 51 ≤ ((placed {} [(1, 2 ^ 51)]).core.q.getS 1).toNat) ∧
    (Issues (shCall {}) (some 1) (looping 1 {}) ∧ Issues (shCalli {}) (some 1) (looping 1 {}) ∧ (looping 1 {}).core.q.endingAt 0 = [0]) := by decide +kernel
/-- The page of the line lies on another module. -/
def away (s : State) : State := { s with fab := { s.fab with node := 1 } }
/-- The entered line is another one. -/
def elsewhere (s : State) : State := { s with core := { s.core with q := { s.core.q with line := { num := 1 } } } }
/-- Targets, an end line, LPSTART and TPC on another module. -/
theorem witness_waits_for_a_line_of_another_module :
    (let s := away (placed {})
     Issues (shBr {}) none s ∧ Issues (shBrc {}) none s ∧ Issues (shBrci {}) none s ∧ Issues (shBri {}) none s ∧ Ready (shCall {}) (some 1) s ∧
     Ready (shCalli {}) (some 1) s ∧ s.badTarget s.core (relTarget 0 {}) false = false ∧ (s.lineAway s.core (relTarget 0 {})).isSome = true ∧
     (s.lineAway s.core 0).isSome = true) ∧
    (let s := placed { imm := 30 }
     Issues (shBrc { imm := 30 }) none s ∧ Issues (shBrci { imm := 30 }) none s ∧ s.badTarget s.core (relTarget 0 { imm := 30 }) false = true) ∧
    (let s := elsewhere (away (placed { imm := 0x400 }))
     Ready (shLoopi { imm := 0x400 } 0) none s ∧ (s.endAway (pcAt 0 2)).isSome = true) ∧
    (let s := away (looping 2 {})
     gate (shNop {}) none s = .pass ∧ s.core.q.endingAt 0 = [0] ∧ s.badTarget s.core 0 false = false ∧ (s.lineAway s.core 0).isSome = true) ∧
    (let s := elsewhere (away (placed {}))
     let t := { s with core := { s.core with trap := { s.core.trap with thm := true } } }
     Issues (shTret { md := 1 } true) none t ∧ (t.endAway 0).isSome = true ∧ Issues (shTret {} true) none t ∧ t.badTarget t.core 0 true = false ∧
       (t.lineAway t.core 0).isSome = true) := by decide +kernel
/-- R218, R369 (log 108): the line of another module is asked for once, and is read once its RESP has come. -/
theorem test_far_line_is_read_after_its_resp :
    (let s := away (placed {})
     match s.lineAway s.core 0 with
     | none => false
     | some p =>
       let t := s.askLine 0 p
       match t.core.q.far with
       | none => false
       | some f =>
         let r := t.respond { p := t.packetTo kREAD 0 0 0 true, use := .fetch 0 f.uid, va := 0 } (lineBytes [0x7F]) false
         decide ((t.askLine 0 p).fresh = t.fresh ∧ t.fab.srcs.length = 1 ∧ r.readLine r.core 0 = LineRead.line (lineOf 0 (lineBytes [0x7F])))) = true := by decide +kernel
/-- Starts: of an active loop, beyond 32 bits, with overlapping masks, with count 0 and 1; back-edges: the last and one before, and one to a
slot that is none. -/
theorem witness_LoopsStartRepeatAndEnd :
    (Ready (shLoop { imm := 0x4200 } 0) none (placed { imm := 0x4200, sa := 1 } [(1, 2 ^ 32)]) ∧
      2 ^ 32 ≤ ((placed {} [(1, 2 ^ 32)]).core.q.getS 1).toNat) ∧
    (let s := { placed { imm := 0x4200 } with core := { (placed { imm := 0x4200 }).core with q := { (placed { imm := 0x4200 }).core.q with
        loops := vput (Vector.replicate 8 {}) 0 { act := true, stop := 0x80 } } } }
     Ready (shLoopi { imm := 0x4200 } 0) none s ∧ (vat s.core.q.loops 0).act = true) ∧
    (let s := { placed { imm := 0x4240, sa := 1 } [(1, 1)] with core := { (placed {}).core with q := { (placed { imm := 0x4240, sa := 1 } [(1, 1)]).core.q with
        loops := vput (Vector.replicate 8 {}) 1 { act := true, stop := 0x80, mb := 1 } } } }
     Ready (shLoops { imm := 0x4240, sa := 1 } 0) none s ∧ (vat s.core.q.loops 1).act = true ∧ (vat s.core.q.loops 1).mb = 1) ∧
    (Ready (shLoopi { imm := 0x4200 } 0) none (placed { imm := 0x4200 }) ∧ (placed {}).endAway (pcAt 1 1) = none ∧ (vat (placed {}).core.q.loops 0).act = false) ∧
    (Ready (shLoopi { imm := 0x4200, sb := 1 } 0) none (placed { imm := 0x4200, sb := 1 })) ∧
    (gate (shNop {}) none (looping 1 {}) = .pass ∧ (looping 1 {}).core.q.endingAt 0 = [0] ∧ (vat (looping 1 {}).core.q.loops 0).rem = 1) ∧
    (gate (shNop {}) none (looping 2 {}) = .pass ∧ (vat (looping 2 {}).core.q.loops 0).rem ≠ 1 ∧
      (looping 2 {}).badTarget (looping 2 {}).core 0 false = false ∧ (looping 2 {}).lineAway (looping 2 {}).core 0 = none ∧ (looping 2 {}).badTarget (looping 2 {}).core 30 false = true) := by decide +kernel


/-! Words put together from R81 and the rows of the opcode map, and the words that the chapters give. -/

theorem test_decode_sadd : decodeWord 0x00000000000000C21000 = .ok (.sadd, .long { dst := 4, sa := 2, sb := 3 }) := by decide
theorem test_decode_sli : decodeWord 0x00020000000000000820 = .ok (.sli, .long { dst := 2, imm := 0x200 }) := by decide
theorem test_decode_csrrd : decodeWord 0x00004100000000001470 = .ok (.csrrd, .long { dst := 5, imm := 0x041 }) := by decide
theorem test_decode_gatherb : decodeWord 0x000001202100455426C3 =
    .ok (.gatherb, .long { dst := 9, sa := 20, sb := 21, sc := 4, emp := 1, pred := 2, md := 2, imm := 1 }) := by decide
theorem test_decode_evpop : decodeWord 0x00000000010000001AC8 = .ok (.evpop, .long { dst := 6, emp := 1 }) := by decide
theorem test_decode_atomic : decodeWord 0x0000007B000005970318 = .ok (.aaddNr, .long { sa := 23, sb := 22, ty := 0xB, md := 7 }) := by decide
theorem test_decode_trap : decodeWord 0x00000700000000000360 = .ok (.trap, .long { imm := 7 }) := by decide
theorem test_decode_trmark : decodeWord 0x00123400000000020368 = .ok (.trmark, .long { sa := 2, imm := 0x1234 }) := by decide
theorem test_decode_phcommit : decodeWord 0x370 = .ok (.phcommit, .long {}) ∧ decodeWord 0xFD = .ok (.phcommitShort, .short {}) := by decide
theorem test_decode_coolreq : decodeWord 0x0000000001_0001C61778 = .ok (.coolreq, .long { dst := 5, sa := 6, sb := 7, emp := 1 }) := by decide
theorem test_decode_clklock : decodeWord 0x00000300010000000780 = .ok (.clklock, .long { dst := 1, emp := 1, imm := 3 }) := by decide

/-! Results that the chapters work out. -/

/-- 06, after R102: `SADD.I8.SAT S4, S5, S6` of 100 and 80 writes 127 and counts one SAT; without `.SAT` it writes −76. -/
theorem test_sadd_i8 : let s := [(5, 100), (6, 0x50)]
    after .sadd (stateAt { dst := 4, sa := 5, sb := 6, ty := 8, md := 8 } s) (fun t => t.core.q.getS 4 == 127 && t.core.cnt.stats.sat == 1) = true ∧
    after .sadd (stateAt { dst := 4, sa := 5, sb := 6, ty := 8 } s) (fun t => t.core.q.getS 4 == 0xFFFFFFFFFFFFFFB4 && t.core.cnt.stats.sat == 0) = true := by decide +kernel
/-- V1 holds a value in every lane, and M1 enables lane 0. -/
def lanewise (f : Fields) (x : Lane) : State :=
  let r := stateAt { f with sa := 1, pred := 1 } [] [(1, 1)]
  { r with core := { r.core with q := { r.core.q with v := vput r.core.q.v 1 (Vector.replicate 64 x) } } }
/-- 07, after R135: `VCVT.E4M3.RN.SAT V2, V1, F32` of 500.0 gives 0x7E and counts one SAT; under OVF 0x7F and one NaN. -/
theorem test_vcvt_e4m3 :
    after .vcvt (lanewise { dst := 2, ty := 4, md := 8, imm := 1 } 0x43FA0000) (fun t => t.core.cnt.stats.sat == 1 && t.core.q.lat.any fun w =>
      match w.val with | .lanes en v => en == 1 && vat v 0 == 0x7E | _ => false) = true ∧
    after .vcvt (lanewise { dst := 2, ty := 4, imm := 1 } 0x43FA0000) (fun t => t.core.cnt.stats.nan == 1 && t.core.q.lat.any fun w =>
      match w.val with | .lanes en v => en == 1 && vat v 0 == 0x7F | _ => false) = true := by decide +kernel
/-- 02, after R30: a block of 1000.0, 1.5, −0.75 and zeros. -/
theorem test_e2m1_block : let r := e2Encode {} [.fin false 1000 0, .fin false 3 (-1), .fin true 3 (-2)] { lfsr := 1 }
    e2Bytes r.1 = [0x88, 0x0F] ++ List.replicate 14 0 ∧ leBytes 16 r.1.scale = [0x7C, 2, 0, 0, 0, 0xD0, 0x63, 1, 0, 0x3E, 0, 0, 0, 0, 0, 0] ∧
    r.2.st.esc = 2 := by decide +kernel
/-- 12, "one translation": the entry of NODE 5, DIE 2, PFN 0x247 and the byte 0x3456 of its page. -/
theorem test_translation : let e : BitVec 64 := 0x00002C000091C033
    pteNode e = 5 ∧ pteDie e = 2 ∧ ptePfn e = 0x247 ∧ pteV e = true ∧ pteLeaf e = true ∧ pteR e = true ∧ pteW e = true ∧ ptePw e = false ∧
    ((stateAt {}).placeOf { asn := 0, va := 0x50120000, size := 32768, pte := e } 0x50123456).pa = 0x123B456 ∧
    leafFault (e - 0x20) .write false = some 4 := by decide +kernel
/-- 16, after R269: the summary 0x4001 at depth 2. -/
theorem test_summary : applySum 0x4001 0x0000030007000000 2 = some 0x0000040000000000 := by decide +kernel
theorem witness_ControlRegisterAccess :
    (Ready (shCsrrd (stateAt { imm := 0x182 }) { imm := 0x182 }) (some 2) (stateAt { imm := 0x182 }) ∧ (stateAt {}).csr 0 0x182 = some 16 ∧ tshpReadHold (stateAt { imm := 0x182 }) = none) ∧
    (let s := (stateAt {}).modReg 0 fun t => { t with ready := 1 }
     Ready (shCsrrd s {}) (some 2) s ∧ (s.csr 0 0).isSome = true ∧ s.cyc < (s.core.reg 0).ready) ∧
    Ready (shCsrwr (stateAt { imm := 0x2A7 }) { imm := 0x2A7 }) none (stateAt { imm := 0x2A7 }) ∧
    Ready (shCsrwr (stateAt { imm := 0x182 }) { imm := 0x182 }) none (stateAt { imm := 0x182 }) ∧ csrRefused 0x182 0 = true ∧ csrRefused 0x182 63 = false ∧
    (∀ i ∈ [0, 4, 8, 12], (0x8888 : Nat) / 2 ^ i % 16 ≤ 8) ∧ 8 < 0x9000 / 2 ^ 12 % 16 ∧ trctlRefused 0x281 0x10007 = false ∧ trctlRefused 0x281 24 = false ∧
    shapeOk 0x13F3F = true ∧ shapeOk 0x1F0000 = false ∧ tlocRefused 0x2BC000 = false ∧ tileCsrHold 0 (stateAt {}) = none ∧
    tileCsrHold 0x104 (stateAt { imm := 0x104 }) = none ∧ ttinvHold (stateAt {}) = none ∧ ttbaseHold (stateAt {}) = none ∧ txqHold (stateAt {}) = none ∧
    (stateAt {}).txqRefused 0 = false ∧ phctlHold (stateAt {}) = none := by decide +kernel

/-! Witnesses: loads and stores. -/

/-- The space and base of an access: its own A-buffer, a window, main memory, the Progress Engine window. -/
def access (ty md : BitVec 4) (base : Word) (page : BitVec 64 := plainPte 0 0 0) (f : Fields := {}) : State :=
  let r := placed { f with sa := 1, sb := 2, sc := 3, ty := ty, md := md } [(1, base), (2, base)]
  { r with core := { r.core with task := { r.core.task with tlb := [{ asn := 0, va := 0, size := 32768, pte := page }] } } }
def onPieces (x : Xlat) (p : List PagePiece → Bool) : Bool := match x with | .pieces ps => p ps | _ => false

/-- At and beyond the last byte of the A-buffer, a refused space, a window of a core that is none, an address of 52 bits, an odd address. -/
theorem witness_AccessChecksTrapPrecisely :
    ([((8 : BitVec 4), (2 : BitVec 4), (786432 : Word)), (8, 1, 0), (8, 6, 0), (0, 0, 2 ^ 51), (0, 2, 1)].all fun p =>
      let s := stateAt { sa := 1, ty := p.1, md := p.2.1 } [(1, p.2.2)]
      decide (Issues (shSld s.core.q.ir) (loadLat [2] 5 s.core.q.ir) s) && (scalarAccess false s).fails.isSome) = true ∧
    (Issues (shSst { sb := 1, md := 7 }) none (stateAt { sb := 1, md := 7 }) ∧ (scalarAccess true (stateAt { sb := 1, md := 7 })).fails.isSome = true) ∧
    (LaneReady (shVld { sa := 1, ty := 1, md := 2 }) (some 6) (stateAt { sa := 1, ty := 1, md := 2 } [(1, 1)]) ∧ (stateAt {}).enabled ≠ 0 ∧
      (vectorLoad false (stateAt { sa := 1, ty := 1, md := 2 } [(1, 1)])).fails.isSome = true ∧
      (vectorLoad true (stateAt { sa := 1, ty := 1, md := 2 } [(1, 1)])).fails.isSome = true) ∧
    (LaneReady (shVst { sb := 1, ty := 1, md := 2 }) none (stateAt { sb := 1, ty := 1, md := 2 } [(1, 1)]) ∧
      (vectorStore false (stateAt { sb := 1, ty := 1, md := 2 } [(1, 1)])).fails.isSome = true ∧
      (vectorStore true (stateAt { sb := 1, ty := 1, md := 2 } [(1, 1)])).fails.isSome = true) ∧
    (∀ k ∈ [({ vec := false, store := false, space := 2, ea := 786431, width := 1, extent := 1, sc := 0 } : AccessCheck),
            { vec := true, store := true, space := 3, ea := 0, width := 4, extent := 256, sc := 0 },
            { vec := false, store := false, space := 4, ea := 0, width := 8, extent := 8, sc := 127 },
            { vec := false, store := false, space := 7, ea := 2 ^ 51 - 8, width := 8, extent := 8, sc := 0 }], k.fails = none) := by decide +kernel
theorem witness_ScalarLoadAndStoreResult :
    (let s := stateAt { sa := 1, ty := 8, md := 2 } [(1, 786431)]
     Ready (shSld s.core.q.ir) (loadLat [2] 5 s.core.q.ir) s ∧ (scalarAccess false s).fails = none ∧ (scalarAccess false s).space = 2 ∧
       s.core.isPending 1 786431 1 = false ∧ s.core.isPoisoned 1 786431 1 = false) ∧
    (let s := stateAt { dst := 1, emp := 1, sa := 1, sc := 3, md := 4 } [(1, 0), (3, 127)]
     Ready (shSld s.core.q.ir) (loadLat [2] 5 s.core.q.ir) s ∧ (scalarAccess false s).fails = none ∧ (scalarAccess false s).space = 4) ∧
    (let s := placed { dst := 1, emp := 1, sa := 1, md := 0 } [(1, 32760)]
     Ready (shSld s.core.q.ir) (loadLat [2] 5 s.core.q.ir) s ∧ (scalarAccess false s).fails = none ∧
       onPieces (s.xlat 32760 8 .read false fun _ => trapOf PAGE_FAULT 0) (fun ps => ps.all fun p => p.node == s.fab.node.toNat) = true) ∧
    (let r := access 0 0 8 (plainPte 1 0 0) { dst := 1, emp := 1 }
     let s := { r with core := { r.core with q := { r.core.q with ir := { r.core.q.ir with sb := 0, sc := 0 } } } }
     Ready (shSld s.core.q.ir) (loadLat [2] 5 s.core.q.ir) s ∧ (scalarAccess false s).fails = none ∧
       onPieces (s.xlat 8 8 .read false fun _ => trapOf PAGE_FAULT 0) (fun ps => ps.any fun p => p.node != s.fab.node.toNat) = true) ∧
    (let s := access 0 7 8 (plainPte 0 0 0 + 8) { dst := 1, emp := 1 }
     onPieces (s.xlat 8 8 .read true fun _ => trapOf PAGE_FAULT 0) (fun ps => !ps.isEmpty && !s.overflowArea ps) = true) ∧
    (let s := stateAt { sa := 1, sb := 2, md := 2 } [(2, 786424)]
     Ready (shSst s.core.q.ir) none s ∧ (scalarAccess true s).fails = none ∧ (scalarAccess true s).space = 2) ∧
    (let s := stateAt { sa := 1, sb := 2, sc := 3, md := 4 }
     Ready (shSst s.core.q.ir) none s ∧ (scalarAccess true s).fails = none ∧ (scalarAccess true s).space = 4) ∧
    (let s := stateAt { sa := 1, sb := 2, sc := 3, md := 6 } [(3, 786416)]
     let r := { s with cyc := 1, mem := { s.mem with mcReq := [(1, 0)] } }
     Ready (shSst s.core.q.ir) none s ∧ (scalarAccess true s).fails = none ∧ (scalarAccess true s).space = 6 ∧ s.core.isPending 1 786416 16 = false ∧
       r.multicastLost = true ∧ s.multicastLost = false ∧ s.youngWindow 0 = false ∧ s.rivals = false ∧ r.rivals = false ∧
       ({ s with peers := [{ num := 1, status := .running }] } : State).rivals = true) ∧
    (let s := placed { sa := 1, sb := 2, md := 0 } [(2, 32760)]
     Ready (shSst s.core.q.ir) none s ∧ (scalarAccess true s).fails = none ∧
       onPieces (s.xlat 32760 8 .write false fun _ => trapOf PAGE_FAULT 0) (fun ps => !ps.isEmpty) = true) := by decide +kernel
theorem witness_VectorLoadAndStoreResult :
    (let s := stateAt { sa := 1, ty := 1, md := 3 } [(1, 0)]
     LaneReady (shVld s.core.q.ir) (some 6) s ∧ s.enabled ≠ 0 ∧ (vectorLoad false s).fails = none ∧ (vectorLoad true s).fails = none ∧
       (s.noteReads (shVld s.core.q.ir)).core.isPending 2 0 256 = false ∧ (s.noteReads (shVld s.core.q.ir)).core.isPoisoned 2 0 256 = false) ∧
    (let s := stateAt { sa := 1, ty := 1, md := 2, pred := 1 }
     LaneReady (shVld s.core.q.ir) (some 6) s ∧ s.enabled = 0) ∧
    (let s := stateAt { dst := 1, emp := 1, sa := 1, sc := 3, ty := 1, md := 5 } [(3, 127)]
     LaneReady (shVld s.core.q.ir) none s ∧ loadLat [2, 3] 6 s.core.q.ir = none ∧ (vectorLoad false s).fails = none) ∧
    (let s := placed { dst := 1, emp := 1, sa := 1, ty := 1, md := 0 } [(1, 32512)]
     LaneReady (shVld s.core.q.ir) none s ∧ (vectorLoad false s).fails = none ∧
       onPieces (s.xlat 32512 256 .read false fun _ => trapOf PAGE_FAULT 0) (fun ps => ps.all fun p => p.node == s.fab.node.toNat) = true) ∧
    (let s := stateAt { sb := 2, ty := 1, md := 2 }
     LaneReady (shVst s.core.q.ir) none s ∧ s.enabled ≠ 0 ∧ (vectorStore false s).fails = none ∧ (vectorStore true s).fails = none) ∧
    (let s := stateAt { sb := 2, sc := 3, ty := 1, md := 4 }
     LaneReady (shVst s.core.q.ir) none s ∧ (vectorStore false s).fails = none) ∧
    (let s := stateAt { sb := 2, ty := 1, md := 2, pred := 1 }
     LaneReady (shVst s.core.q.ir) none s ∧ s.enabled = 0) ∧
    (let s := placed { sb := 2, ty := 1, md := 0 } [(2, 32512)]
     LaneReady (shVst s.core.q.ir) none s ∧ (vectorStore false s).fails = none ∧
       onPieces (s.xlat 32512 256 .write false fun _ => trapOf PAGE_FAULT 0) (fun ps => !ps.isEmpty) = true) := by decide +kernel
theorem witness_StoreFrame : ∀ i ∈ [Instr.sst, .sstShort, .vst, .vstShort, .vsts], Straight (stateAt { ty := 1, md := 2 }) ∧
    after i (stateAt { ty := 1, md := 2 }) (fun t => t.core.status = .running && !t.core.q.pad.isEmpty) = true := by decide +kernel

/-! Witnesses: vector instructions. -/

/-- Lane 63 of the last register under a mask that enables it alone, and mask register 7. -/
theorem witness_WritesKeepDisabledLanes : (63 : Nat) < 64 ∧ (31 : Nat) < 32 ∧ (7 : BitVec 3) ≠ 0 ∧ (BitVec.ofNat 64 (2 ^ 63)).getLsbD 63 = true := by decide +kernel
theorem witness_VectorArithmeticResult : LaneReady (shV2 { ty := 1 }) (some 4) (stateAt { ty := 1 }) ∧ LaneReady (shV2 { ty := 8 }) (some 2) (stateAt { ty := 8 }) ∧
    arithLat { ty := 1 } = 4 ∧ arithLat { ty := 8 } = 2 ∧ LaneReady (shVadds { ty := 1 }) (some 4) (stateAt { ty := 1 }) ∧
    LaneReady (shVmul { ty := 1 }) (some 4) (stateAt { ty := 1 }) ∧ iv 1 = false ∧ LaneReady (shVmuls { ty := 1 }) (some 4) (stateAt { ty := 1 }) ∧
    LaneReady (shFma { ty := 1 }) (some 4) (stateAt { ty := 1 }) ∧ LaneReady (shMinMax { ty := 1 }) (some 4) (stateAt { ty := 1 }) ∧
    LaneReady (shSign { ty := 1 }) (some 4) (stateAt { ty := 1 }) ∧ LaneReady (shVaddi { ty := 8 }) (some 2) (stateAt { ty := 8 }) ∧
    LaneReady (shVmul { ty := 0xA, emp := 1 }) none (stateAt { ty := 0xA, emp := 1 }) ∧ iv 0xA = true ∧
    LaneReady (shVmuls { ty := 0xA, emp := 1 }) none (stateAt { ty := 0xA, emp := 1 }) ∧
    LaneReady (shVlog { ty := 1, emp := 1 }) none (stateAt { ty := 1, emp := 1 }) ∧
    (stateAt { ty := 0xA, emp := 1 }).enabled ≠ 0 ∧
    (∀ f ∈ [({ ty := 0xA, emp := 1, pred := 1 } : Fields)], LaneReady (shVmul f) none (stateAt f) ∧ LaneReady (shVmuls f) none (stateAt f) ∧ (stateAt f).enabled = 0) ∧
    LaneReady (shVlog { ty := 1, emp := 1, pred := 1 }) none (stateAt { ty := 1, emp := 1, pred := 1 }) ∧ (stateAt { ty := 1, emp := 1, pred := 1 }).enabled = 0 := by decide +kernel
theorem witness_VectorMoveLogicAndCompare : LaneReady (shVraw2 {}) (some 2) (stateAt {}) ∧ LaneReady (shVandi {}) (some 2) (stateAt {}) ∧
    LaneReady (shVshi { imm := 31 }) (some 2) (stateAt { imm := 31 }) ∧ LaneReady (shVraw1 {}) (some 2) (stateAt {}) ∧ LaneReady (shVsel {}) (some 2) (stateAt {}) ∧
    LaneReady (shVbcast {}) (some 3) (stateAt {}) ∧ LaneReady (shVins {}) (some 3) (stateAt {}) ∧ LaneReady (shVext {}) (some 3) (stateAt {}) ∧
    predOn (stateAt {}).core.q {} = true ∧ LaneReady (shViota { ty := 8 }) (some 2) (stateAt { ty := 8 }) ∧
    LaneReady (shVcmp { ty := 1, md := 7 }) (some 2) (stateAt { ty := 1, md := 7 }) ∧ LaneReady (shVclass { ty := 1 }) (some 2) (stateAt { ty := 1 }) ∧
    (stateAt {}).enabled.getLsbD 63 = true := by decide +kernel
theorem witness_VectorConversionAndFunction : LaneReady (shVcvt { ty := 1, imm := 1 }) (some 4) (stateAt { ty := 1, imm := 1 }) ∧
    LaneReady (shVfun { ty := 1 } (satOnly 0)) (some 8) (stateAt { ty := 1 }) ∧ LaneReady (shVfun { ty := 1 } true) (some 8) (stateAt { ty := 1 }) ∧
    LaneReady (shVfun { ty := 1 } true) (some 4) (stateAt { ty := 1 }) ∧ LaneReady (shVscl { ty := 1 }) (some 4) (stateAt { ty := 1 }) := by decide +kernel
theorem witness_CrossLaneResult : LaneReady (shE2 { ty := 1 }) (some 4) (stateAt { ty := 1 }) ∧ LaneReady (shBn { ty := 9, imm := 1 }) (some 4) (stateAt { ty := 9, imm := 1 }) ∧
    LaneReady (shVsort { ty := 1 }) (some 12) (stateAt { ty := 1 }) ∧ LaneReady (shVraw2 {}) (some 3) (stateAt {}) ∧ LaneReady (shVperm2 {}) (some 3) (stateAt {}) ∧
    LaneReady (shVpack { ty := 2 }) (some 3) (stateAt { ty := 2 }) ∧ LaneReady (shVunpk { ty := 2 }) (some 3) (stateAt { ty := 2 }) ∧
    LaneReady (shVrot { imm := 63 }) (some 3) (stateAt { imm := 63 }) ∧ LaneReady (shVradd { ty := 1 }) (some 6) (stateAt { ty := 1 }) ∧
    LaneReady (shVrmin { ty := 1 }) (some 6) (stateAt { ty := 1 }) := by decide +kernel
theorem witness_VectorFrame :
    (∀ i ∈ [Instr.vadd, .vfma, .vmin, .vabs, .vcmp, .vclass, .vradd, .vrmin, .vrnd, .vscl], completes i (stateAt { ty := 1 }) = true) ∧
    (∀ i ∈ [Instr.vand, .vshl, .vmov, .vsel, .vbcast, .vins, .vext, .vperm, .vrot], completes i (stateAt {}) = true) ∧ Straight (stateAt {}) ∧
    completes .vmul (stateAt { ty := 0xA, emp := 1 }) = true ∧ completes .viota (stateAt { ty := 8 }) = true := by decide +kernel

/-! Witnesses: tiles. -/

/-- Every tile register holds a tile of one element of a format, of a kind. -/
def tiled (fmt : BitVec 5) (kind : TileKind) (f : Fields) (s : List (Nat × Word) := []) : State :=
  let r := stateAt f s
  { r with core := { r.core with tile := { r.core.tile with t := tab 16 fun i => { vat r.core.tile.t i with fmt := fmt, entry := { kind := kind } } } } }

/-- Tensor 0: F32, one tile of one element, its map entry at 16, its slot in the tile-mapped page at 0x8000. -/
def handled (f : Fields) (s : List (Nat × Word) := []) : State :=
  let r := placed f s
  { r with core := { r.core with
      tile := { r.core.tile with tensors := [(0, BitVec.ofNat 1024 (0x21 + 16 * 2 ^ 128 + 2 ^ 256 + 2 ^ 448 + 32768 * 2 ^ 640))] }
      task := { r.core.task with tlb := [{ asn := 0, va := 0, size := 32768, pte := plainPte 0 0 0 },
                                         { asn := 0, va := 32768, size := 32768, pte := plainPte 0 0 1 + 4 }] } } }

theorem witness_TileShapesAndSymbols :
    tileHold [] [15] false (stateAt { dst := 15 }) = none ∧ Ready (shTcfg { imm := 0x13F3F }) none (stateAt { imm := 0x13F3F }) ∧
    Ready (shTset { dst := 15 }) none (stateAt { dst := 15 }) ∧ ((stateAt {}).reg 0).blank = true ∧ ((tiled 1 .zero {}).reg 0).blank = false ∧
    (∀ f ∈ [({} : Fields), { imm := 1 }], Ready (shTramp f) none (tiled 1 .zero f)) ∧ Ready (shTconst {}) none (tiled 1 .zero {}) ∧
    Ready (shTrepeat {}) none (tiled 1 .zero {}) ∧ ((stateAt {}).reg 15).lazyMark = false ∧ Fmt.f32.isBlock = false ∧
    Sem.isZero (elemOf .f32 0x80000000).val = true ∧ Sem.isZero (elemOf .f32 0x7F800001).val = false := by decide +kernel
/-- Tile register 0 with the first word of its bytes pending. -/
def pendingAt (s : State) : State :=
  { s with core := { s.core with tile := { s.core.tile with pending := [((s.reg 0).buf, (s.reg 0).offset.toNat / 32)] } } }
/-- The formats differ, the shapes differ, and each agrees. -/
theorem witness_TileArithmeticResult :
    (let s := tiled 1 .stored { ty := 1 }
     tileHold [0, 0] [0] true s = none ∧ Ready (shTbin s.core.q.ir) none s ∧ Ready (shTmin s.core.q.ir) none s ∧ s.unconf [0, 0, 0] = none ∧
       tyDiffers s.core.q.ir [s.reg 0, s.reg 0, s.reg 0] = false ∧ sameShape (s.reg 0) (s.reg 0) = true ∧ arithFmt (s.reg 0).format = true ∧
       (s.synth s.core (s.reg 0)).toOption.isSome = true ∧ PowerFree s ∧ s.tileEarly [0, 0] = none ∧
       (pendingAt s).tileEarly [0, 0] ≠ none) ∧
    (let s := tiled 1 .stored { ty := 2 }
     Ready (shTbin s.core.q.ir) none s ∧ tyDiffers s.core.q.ir [s.reg 0, s.reg 0, s.reg 0] = true) ∧
    (let s := (tiled 1 .stored { sa := 1, ty := 1 }).modReg 1 fun t => { t with rows := 1 }
     Ready (shTbin s.core.q.ir) none s ∧ tyDiffers s.core.q.ir [s.reg 0, s.reg 1, s.reg 0] = false ∧ sameShape (s.reg 0) (s.reg 1) = false) ∧
    (stateAt {}).unconf [0, 0, 0] ≠ none := by decide +kernel
theorem witness_TileElementsAndSymbols :
    ((tiled 1 .zero {}).reg 0).entry.kind = .zero ∧ ((tiled 1 .zero {}).reg 0).format.isBlock = false ∧ (tiled 1 .stored {}).clean ((tiled 1 .stored {}).reg 0) = true ∧
    (let s := (tiled 1 .stored {}).modReg 1 fun t => { t with entry := { t.entry with hnan := true } }
     s.clean (s.reg 1) = false ∧ { s.core.tile with fast := true }.fast = true) ∧ ((tiled 1 .ramp {}).reg 0).entry.kind = .ramp ∧
    (let s := tiled 1 .ramp {}
     let r := { (s.reg 0) with entry := { kind := .ramp, payload := 0x3F800000 } }
     Sem.isZero (decodeFloat .f32 (plField r.entry 0 32)) = false ∧
       ∀ x ∈ symbolElems r.format r.nrows r.ncols r.entry, Sem.isZero x.val = true → x.pat = 0) ∧
    (let s := handled {}
     let r := { (s.reg 0) with fmt := 1, entry := repeatEntry 0 0 0 }
     s.repComputed r = true) := by decide +kernel
theorem witness_TileUnaryResult :
    (let s := tiled 1 .stored { ty := 1 }
     (s.reg 0).entry.kind = .stored ∧ (s.synth s.core (s.reg 0)).toOption.isSome = true ∧ PowerFree s ∧ s.unconf [0, 0] = none ∧ tileHold [0] [0] true s = none ∧ s.tileEarly [0] = none ∧
       Ready (shTscale s.core.q.ir) none s ∧ tyDiffers s.core.q.ir [s.reg 0, s.reg 0] = false ∧ sameShape (s.reg 0) (s.reg 0) = true ∧
       (arithFmt (s.reg 0).format && (s.reg 0).format.isFloat) = true) ∧
    (let s := tiled 1 .stored {}
     Ready (shTcvt s.core.q.ir) none s ∧ cvtTileFmt (s.reg 0).format = true ∧ Ready (shTmov s.core.q.ir) none s ∧ (s.reg 0).rows = (s.reg 0).cols) ∧
    (let s := tiled 1 .stored { dst := 1, ty := 1, emp := 1 }
     s.unconf [0] = none ∧ tileHold [0] [] true s = none ∧ Ready (shTredrow s.core.q.ir) none s ∧ tyDiffers s.core.q.ir [s.reg 0] = false) := by decide +kernel
/-- No lane enabled; an unconfigured register; a format without slices; the row of a tile of one row, and the one beyond. -/
theorem witness_SliceResult :
    (LaneReady (shTrrow { pred := 1 }) (some 4) (stateAt { pred := 1 }) ∧ (stateAt { pred := 1 }).enabled = 0 ∧ tileHold [0] [] true (stateAt {}) = none) ∧
    (LaneReady (shTwrow { pred := 1 }) none (stateAt { pred := 1 }) ∧ tileHold [] [0] true (stateAt {}) = none) ∧
    (LaneReady (shTrrow {}) (some 4) (stateAt {}) ∧ LaneReady (shTwrow {}) none (stateAt {}) ∧ (stateAt {}).enabled ≠ 0 ∧ ((stateAt {}).reg 0).blank = true) ∧
    (let s := tiled 1 .stored {}
     LaneReady (shTrrow {}) (some 4) s ∧ LaneReady (shTwrow {}) none s ∧ (s.reg 0).blank = false ∧ sliceFmt (s.reg 0).format = true ∧
       s.srcB.toNat < (s.reg 0).nrows ∧ s.srcB.toNat < (s.reg 0).ncols ∧ s.sliceEarly true (s.reg 0) 0 = none ∧ s.sliceEarly false (s.reg 0) 0 = none ∧
       (pendingAt s).sliceEarly true (s.reg 0) 0 ≠ none ∧ (s.synth s.core (s.reg 0)).toOption.isSome = true) ∧
    (let s := tiled 1 .stored { sb := 1 } [(1, 1)]
     LaneReady (shTrrow s.core.q.ir) (some 4) s ∧ LaneReady (shTwrow s.core.q.ir) none s ∧ (s.reg 0).nrows ≤ s.srcB.toNat) ∧
    sliceFmt ((tiled 6 .stored {}).reg 0).format = false := by decide +kernel
theorem witness_TileTableAndModeResult :
    Ready (shTsymx {}) none (stateAt {}) ∧ Ready (shTstatR { imm := 0x1F }) (some 2) (stateAt { imm := 0x1F }) ∧ tileHold [15] [] false (stateAt {}) = none ∧
    Ready (shTstatH { dst := 1, emp := 1 }) none (stateAt { dst := 1, emp := 1 }) ∧
    (handled {}).handleMiss 0 = none ∧ (handled {}).handleMiss (2 ^ 39) = none ∧ (stateAt {}).handleMiss 0 = some 0 ∧
    ([0, 2 ^ 39].all fun h => ((handled {}).farHold fun ok => (handled {}).handleWants (handled {}).core ok 1 h).isNone) = true ∧
    (let s := away { handled {} with core := (handled {}).core.modTile fun t => { t with tensors := [] } }
     s.handleMiss 0 = none ∧ (s.farHold fun ok => s.handleWants s.core ok 1 0).isSome = true) ∧
    (match (handled {}).resolve (handled {}).core (2 ^ 39) with | .error (.tile 3) => true | _ => false) = true ∧
    (match (handled {}).resolve (handled {}).core 0 with | .ok _ => true | _ => false) = true ∧
    (let s := handled { dst := 1, emp := 1, sa := 1 } [(1, 2 ^ 39)]
     Ready (shTstatH s.core.q.ir) none s) ∧
    (match (stateAt {}).resolve (stateAt {}).core 0 with | .error (.page 1 _) => true | _ => false) = true ∧
    (let s := tiled 1 .zero {}
     Ready (shTset {}) none s ∧ tileHold [0] [0] true s = none ∧ (s.reg 0).blank = false ∧ (s.reg 0).entry.kind ≠ .stored ∧
       (s.synth s.core (s.reg 0)).toOption.isSome = true ∧ PowerFree s ∧ Ready (shTmov {}) none s ∧ s.unconf [0, 0] = none ∧ s.tileEarly [0] = none ∧ s.pairEarly (s.reg 0) 0 = none ∧
       Ready (shTexcget {}) (some 2) s ∧ Ready (shTexcset {}) none s ∧ listFmt (s.reg 0).format = true ∧ 0 < (s.reg 0).nrows ∧ 0 < (s.reg 0).ncols ∧
       Sem.isZero (elemOf .f32 0x3F800000).val = false) ∧
    (let s := stateAt { imm := 0xFFFF }
     Ready (shTspill s.core.q.ir) none s ∧ tileHold (spillMask s.core.q.ir) [] false s = none ∧ tileHold [] (spillMask s.core.q.ir) false s = none) := by decide +kernel

/-! Witnesses: engine commands. -/

/-- Commands that wait in a queue. -/
def queued (q n : Nat) (f : Fields) (s : List (Nat × Word) := []) : State :=
  let r := stateAt f s
  { r with core := { r.core with eng := { r.core.eng with cmds := (List.range n).map fun i => { uid := 100 + i, q := q, ch := 0, slot := i, raw := 0, wmax := 1 } } } }

/-- The widest value of each field; the last slot of LDQ channel 3, and MXQ with 15 of its 16 slots taken. -/
theorem witness_PlacedCommandEntersItsQueue :
    (let c : Cmd := { uid := 0, q := 0, ch := 0, raw := cmdWord 1023 15 15 15 3 true true 7 7 (2 ^ 20 - 1) 4095 (2 ^ 51 - 1), wmax := 0 }
     c.raw = cmdWord 1023 15 15 15 3 true true 7 7 (2 ^ 20 - 1) 4095 (2 ^ 51 - 1)) ∧
    (let k : Cmd := { uid := 0, q := 0, ch := 3, raw := 0, wmax := 0 }
     k.chan < 8 ∧ k.q ≤ 2 ∧ ((stateAt {}).core.queue k.q k.ch).length < slotsOf k.q) ∧
    ((queued 1 15 {}).core.queue 1 0).length < slotsOf 1 ∧ ((queued 1 15 {}).core.queue 1 0).length + 1 = slotsOf 1 := by decide +kernel
theorem witness_EngineInstructionsPlaceCommands :
    gate (engPlain 1 {}) none (queued 1 16 {}) = .pass ∧ (queued 1 16 {}).core.queueFull 1 0 = true ∧
    (let s := (tiled 1 .zero {}).modReg 0 fun t => { t with ready := 1 }
     gate (shTst {}) none s = .pass ∧ s.core.tileBusy 0 0 false = true ∧ s.core.tileBusy 0 0 true = true) ∧
    (∀ i ∈ [Instr.mloadwh, .mswap, .mstreamh, .mmac, .mmach, .mepi, .mzacc, .maccld, .tld, .tlda, .tst, .tsta], readyAt i (stateAt {}) = true ∧ completes i (stateAt {}) = true) ∧
    (stateAt {}).core.queueFull 1 0 = false ∧ (stateAt {}).core.tileBusy 0 0 true = false ∧ (stateAt {}).core.tileBusy 0 0 false = false := by decide +kernel
/-- Lengths at and beyond the last that AUX holds, an address beyond the buffer and one of 52 bits; an index at the bound. -/
theorem witness_CopyAndGatherPlaceCommands :
    (∀ f ∈ [({ ty := 1, sa := 1, sb := 2, sc := 3 } : Fields), { ty := 7, md := 2, sa := 1, sb := 2, sc := 3 }, { md := 3, sa := 1, sb := 2, sc := 3 }],
      Ready (shCpy (stateAt f).core.q) none (stateAt f)) ∧ (stateAt {}).core.queueFull 0 0 = false ∧ (stateAt {}).core.queueFull 2 0 = false ∧
    (2 ^ 20 - 256) % 256 = 0 ∧ (2 ^ 20 - 256 : Nat) < 2 ^ 20 ∧
    (gate (shGather true { md := 1, pred := 1 }) none (stateAt { md := 1, pred := 1 }) = .pass ∧ (stateAt { md := 1, pred := 1 }).enabled = 0) ∧
    (let s := stateAt { md := 9 }
     gate (shGather true s.core.q.ir) none s = .pass ∧ s.enabled ≠ 0 ∧ s.core.q.ir.md.getLsbD 3 = true ∧ s.srcA.toNat / 2 ^ 32 ≤ (vat s.vecC 0).toNat) ∧
    (let s := stateAt { md := 9, sa := 1 } [(1, 2 ^ 32)]
     gate (shGather true s.core.q.ir) none s = .pass ∧ (vat s.vecC 0).toNat < s.srcA.toNat / 2 ^ 32) ∧
    gate (shGather false { md := 1 }) none (stateAt { md := 1 }) = .pass ∧ Straight (stateAt { md := 1 }) := by decide +kernel
/-- Addresses of 52 bits and unaligned ones at each source, a mapped entry, a running walker. -/
theorem witness_ChainInstructionResult :
    ([((2 : Word) ^ 51, (0 : Word)), (0, 2 ^ 51), (16, 0), (0, 16), (2 ^ 51 - 32, 2 ^ 51 - 32)].all fun p =>
      decide (Ready (shChlink { sa := 1, sb := 2 }) none (stateAt { sa := 1, sb := 2 } [(1, p.1), (2, p.2)]))) = true ∧
    onPieces ((placed {}).xlat 16 8 .write false fun _ => trapOf PAGE_FAULT 0) (fun ps => ps.length == 1) = true ∧
    Ready (shChlink {}) none (placed {}) ∧ Ready (shChkick { md := 1 }) (some 2) (stateAt { md := 1 }) ∧
    (let s := stateAt {}
     let r := { s with core := { s.core with eng := { s.core.eng with walkers := vput s.core.eng.walkers 0 { st := .run } } } }
     Ready (shChkick {}) (some 2) r ∧ (vat r.core.eng.walkers 0).st = .run ∧ (vat s.core.eng.walkers 0).st ≠ .run) ∧
    Ready (shChseq {}) (some 2) (stateAt {}) := by decide +kernel
theorem witness_TransferWaitResult : Ready (shXpoll { imm := 7 }) (some 2) (stateAt { imm := 7 }) ∧ Ready (shQdepth { imm := 8 }) (some 2) (stateAt { imm := 8 }) ∧
    Ready (shXwait { imm := 0x207 }) none (stateAt { imm := 0x207 }) ∧ (stateAt {}).core.eng.waitsFor 7 0 = false ∧ (stateAt { imm := 0x207 }).holdPassed = false ∧
    ({ (stateAt {}).core.eng with xnext := vput (Vector.replicate 8 0) 7 1 } : EngSt).waitsFor 7 0 = true ∧
    Ready (shFill {}) none (stateAt {}) ∧ cfgOn (stateAt {}).core.eng.txqcfg = false ∧ Ready (shWaitev { imm := 0xFFFF }) none (stateAt { imm := 0xFFFF }) := by decide +kernel

/-! Witnesses: progress. -/

/-- An instance of a graph with one location of depth 4 on this die, and a verdict on its way or here. -/
def graphed (f : Fields) (v : Option (Nat × Verdict) := none) (here : Bool := true) : State :=
  let r := stateAt { f with sa := 1 } [(1, 0x0000000100010000)]
  { r with pe := { r.pe with templates := [{ tmpl := 1, locs := [(1, 0, 4)], edges := [] }], insts := [{ inst := 1, tmpl := 1, home := 0 }],
                             verdicts := match v with | some p => [{ uid := p.1, core := 0, what := p.2, loc := 0, time := 0, here := here }] | none => [] }
           core := { r.core with q := { r.core.q with verdict := v.map (·.1) } } }

theorem witness_PostsAndReleases :
    (∀ m ∈ [1, 0xFFFF], let s := graphed { imm := BitVec.ofNat 24 m }
      gate (shPcinc s.core.q.ir) none s = .pass ∧ gate (shPcdec s.core.q.ir) none s = .pass ∧ predOn s.core.q s.core.q.ir = true ∧ s.core.q.verdict = none ∧
        Straight s ∧ s.performed 0 (fun _ => true) 0 = true) ∧
    (match (graphed {}).findLoc (graphed {}).srcA with | .ok (_, _, _, d) => d == 4 && !badTime 0 d | .error _ => false) = true ∧
    (let s := stateAt { imm := 1, pred := 1 }
     gate (shPcinc s.core.q.ir) none s = .pass ∧ predOn s.core.q s.core.q.ir = false) ∧
    (let s := stateAt { imm := 1, md := 3 }
     let r := { s with mem := { s.mem with flying := [{ uid := 9, core := 0, path := 0, pc := 0, what := .multicast 0 [] }] } }
     gate (shPcdec s.core.q.ir) none r = .pass ∧ r.performed 0 (fun _ => true) 3 = false ∧ gate (shFence s.core.q.ir) none r = .pass ∧
       r.performed 0 (fun x => s.core.q.ir.imm.getLsbD x) 3 = false ∧ s.performed 0 (fun x => s.core.q.ir.imm.getLsbD x) 3 = true ∧
       Ready (shFence s.core.q.ir) none s ∧ Ready (shPfence s.core.q.ir) none s) := by decide +kernel
/-- No verdict, and each kind of verdict, at each instruction that waits for one. -/
theorem witness_VerdictEndsTheHold :
    (∀ v ∈ [Verdict.ok, .loc 1, .regress 0, .full 1, .join 1, .status 1], let s := graphed {} (some (7, v))
      s.core.q.verdict = some 7 ∧ (s.verdictHere 7).map (·.what) = some v ∧ Straight s) ∧ (graphed {} (some (7, .ok)) false).verdictHere 7 = none ∧
    (∀ p ∈ [(Instr.pcinc, ({ imm := 1 } : Fields)), (.pcdec, { imm := 1 }), (.tjoin, {}), (.tspawn, { dst := 1, emp := 1 }), (.tenq, { dst := 1, emp := 1 }),
            (.collReduce, { dst := 1, emp := 1, ty := 1 }), (.collAllreduce, { dst := 1, emp := 1, ty := 1 }), (.collAllgather, { dst := 1, emp := 1 }), (.collBcast, { dst := 1, emp := 1 })],
      readyAt p.1 (graphed p.2 (some (7, .ok))) = true) := by decide +kernel
theorem witness_ProgressWaitResult :
    (let s := stateAt { dst := 1, emp := 1, imm := 0x200 }
     Ready (shFwait s.core.q.ir) none s ∧ s.core.q.pgWait < 16 ∧ (match s.findLoc s.srcA with | .error d => d == 1 | _ => false) = true) ∧
    (let s := graphed { dst := 1, emp := 1, imm := 0x200 }
     Ready (shFwait s.core.q.ir) none s ∧ Ready (shFpoll { dst := 1, emp := 1, sa := 1 }) none (graphed { dst := 1, emp := 1 }) ∧
       (match s.findLoc s.srcA with | .ok (_, _, _, d) => !badTime s.srcB d && badTime 0xFFFFFF0000000000 d | .error _ => false) = true) ∧
    Ready (shPsreg { dst := 1, emp := 1 }) none (stateAt { dst := 1, emp := 1 }) ∧
    (let s := stateAt { dst := 1, emp := 1, imm := 0x203 }
     Ready (shGbar s.core.q.ir) none s ∧ s.gangOf s.core = none ∧ s.performed 0 (fun _ => true) 1 = true ∧ s.holdPassed = false) := by decide +kernel
/-- The last aligned address of the space and beyond, an unaligned one, a page of this module and one of another. -/
theorem witness_AtomicsLeaveForTheirHome :
    ([((2 : Word) ^ 51 - 8), 2 ^ 51 - 4, 2 ^ 51, 4].all fun a => let s := stateAt { dst := 1, emp := 1, ty := 0xF, sa := 2, sb := 1 } [(1, a)]
      decide (Ready (shAtomic 0 false s.core.q.ir) none s ∧ Ready (shAtomic 7 false s.core.q.ir) none s)) = true ∧
    (let s := placed { ty := 0xF, sa := 2, sb := 1 } [(1, 32760)]
     Ready (shAtomic 0 true s.core.q.ir) none s ∧ Ready (shAtomic 7 true s.core.q.ir) none s ∧
       onPieces (s.atomicPlace 32760 8 8 0) (fun ps => ps.length == 1 && ps.all fun p => p.node == s.fab.node.toNat) = true ∧
       onPieces ((access 0xF 0 0 (plainPte 1 0 0)).atomicPlace 0 8 8 0) (fun ps => ps.length == 1 && ps.all fun p => p.node != s.fab.node.toNat) = true) ∧
    (let s := placed { ty := 1, sb := 1 } [(1, 32512)]
     Ready (shRed s.core.q.ir) none s ∧ onPieces (s.atomicPlace 32512 4 256 0) (fun ps => ps.length == 1 && ps.all fun p => p.va == 32512 && p.len == 256) = true) := by decide +kernel

/-- A page of this module and one of another that the TLB grants to an atomic and to a reduction. -/
theorem witness_AtomicsLeaveForTheirHome_granted :
    (∃ r, Granted (access 0xF 0 8) 8 8 false r ∧ r.node = (access 0xF 0 8).fab.node.toNat) ∧
    (∃ r, Granted (access 0xF 7 8 (plainPte 1 0 8 + 8)) 8 8 true r ∧ r.node ≠ (access 0xF 7 8 (plainPte 1 0 8 + 8)).fab.node.toNat) ∧
    (∃ r, Granted (access 1 0 32512) 32512 256 false r) ∧ (∃ r, Granted (access 1 0 32512 (plainPte 1 0 0)) 32512 256 false r) := by
  refine ⟨⟨_, ⟨by decide, by decide, by decide, ⟨_, rfl, ?_, ?_, rfl⟩, ?_, ?_⟩, ?_⟩, ⟨_, ⟨by decide, by decide, by decide, ⟨_, rfl, ?_, ?_, rfl⟩, ?_, ?_⟩, ?_⟩,
    ⟨_, by decide, by decide, by decide, ⟨_, rfl, ?_, ?_, rfl⟩, ?_, ?_⟩, ⟨_, by decide, by decide, by decide, ⟨_, rfl, ?_, ?_, rfl⟩, ?_, ?_⟩⟩ <;> decide +kernel

/-! Witnesses: traps, threads, phases and the other control instructions. -/

/-- Trap registers of a state. -/
def trapping (thm : Bool) (tvec tpc : PC) (s : State) : State := { s with core := { s.core with trap := { s.core.trap with thm := thm, tvec := tvec, tpc := tpc } } }

theorem witness_TrapEntryRecordsAndRedirects :
    (stateAt {}).core.trap.thm = false ∧ (trapping false 0x80 0 (stateAt {})).core.trap.tvec ≠ 0 ∧ (stateAt {}).core.trap.tvec = 0 ∧
    (trapping true 0x80 0 (stateAt {})).core.trap.thm = true ∧ (stateAt {}).core.q.lat = [] ∧ (255 : Nat) < 2 ^ 8 ∧ (65535 : Nat) < 2 ^ 16 := by decide +kernel
/-- A return to slot 0 of the line, to one that is no start, and from outside a handler. -/
theorem witness_TrapInstructionResult :
    Issues (shTrap { imm := 0xFFFF }) none (stateAt { imm := 0xFFFF }) ∧
    (let s := trapping true 0x80 0 (placed {})
     Issues (shTret {} s.core.trap.thm) none s ∧ s.badTarget s.core 0 true = false ∧ s.lineAway s.core 0 = none ∧ Ready (shTrap {}) none s) ∧
    (let s := trapping true 0x80 5 (placed {})
     Issues (shTret {} s.core.trap.thm) none s ∧ s.badTarget s.core 5 true = true) ∧
    (let s := trapping true 0x80 0 (placed { md := 1 })
     Issues (shTret { md := 1 } s.core.trap.thm) none s ∧ s.endAway 0 = none) ∧
    (Ready (shTrap {}) none (stateAt {}) ∧ (stateAt {}).core.trap.thm = false ∧ (stateAt {}).core.dbg.brk = none ∧ (stateAt {}).core.q.innermost 0 = none) := by decide +kernel
/-- A thread of a gang that may exit, has dropped, or has not; counts of TSPAWN below and above its range; a malformed record. -/
def ganged (dropped : List Nat) (f : Fields) : State :=
  let r := stateAt f
  { r with sched := { r.sched with gangs := [{ id := 3, task := {}, img := {}, cluster := 0, space := {}, tpldir := 0, members := [0], dropped := dropped }] }
           core := { r.core with task := { r.core.task with gang := some 3 } } }
theorem witness_TaskInstructionResult :
    (gate (shYield { imm := 1 }) none (stateAt { imm := 1 }) = .pass ∧ predOn (stateAt {}).core.q {} = true ∧ (stateAt {}).core.trap.yreq = false ∧
      ({ (stateAt {}).core.trap with yreq := true } : TrapSt).yreq = true) ∧
    Ready (shTinfo { imm := 5 }) (some 2) (stateAt { imm := 5 }) ∧ (Ready (shTexit {}) none (stateAt {}) ∧ (stateAt {}).core.ph.en = false) ∧
    ((stateAt {}).gangOf (stateAt {}).core = none) ∧
    (∀ d ∈ [[], [0]], ((ganged d {}).gangOf (ganged d {}).core).map (·.dropped) = some d ∧ Ready (shTexit {}) none (ganged d {})) ∧
    (ganged [] {}).performed 0 (fun _ => true) 0 = true ∧
    (∀ d ∈ [[], [0]], ∀ g ∈ (ganged d {}).sched.gangs, (ganged d {}).memberDropped g 0 = decide (d = [0]) ∧
      (d = [] → g.dropDone = false ∧ g.members.all ((ganged d {}).memberDropped g) = false)) ∧
    ([(0 : Word), 65].all fun n => let s := stateAt { dst := 1, emp := 1, sb := 1 } [(1, n)]
      decide (Ready (shTspawn s.core.q.ir) none s ∧ s.core.q.verdict = none ∧ s.performed 0 (fun _ => true) 3 = true ∧ (s.srcB.toNat < 1 ∨ 64 < s.srcB.toNat))) = true ∧
    (let s := placed { dst := 1, emp := 1 }
     Ready (shTenq s.core.q.ir) none s ∧ onPieces (s.recordPlace s.srcA 1) (fun ps => !ps.isEmpty) = true ∧
       (s.farHold fun ok => s.recordsWants ok s.srcA.toNat 1).isNone = true ∧
       s.recordImage s.core s.core.task.tpl { (s.recordsAt s.core s.srcA.toNat 1).headD {} with depth := 0 } = none) := by decide +kernel
theorem witness_DebugPhaseAndCoolantResult :
    Ready (shTrmask { imm := 0xFFFF }) none (stateAt { imm := 0xFFFF }) ∧ Ready (shTrmark { imm := 0xFFFF }) none (stateAt { imm := 0xFFFF }) ∧
    (stateAt {}).core.dbg.cls.getLsbD 1 = false ∧ Ready (shCapstart { imm := 3 }) none (stateAt { imm := 3 }) ∧
    Ready (shCapstop { imm := 3 }) (some 2) (stateAt { imm := 3 }) ∧ (vat (stateAt {}).core.dbg.caps 3).opened = false ∧
    (let s := stateAt { imm := 3 }
     let r := { s with core := { s.core with dbg := { s.core.dbg with held := true, caps := vput s.core.dbg.caps 3 { opened := true } } } }
     Ready (shCapstop r.core.q.ir) (some 2) r ∧ (vat r.core.dbg.caps 3).opened = true ∧ r.core.dbg.cls.getLsbD 5 = false ∧ r.core.dbg.held = true ∧
       r.core.dbg.cls.getLsbD 10 = false) ∧
    Ready (shClklock { dst := 1, emp := 1, imm := 7 }) none (stateAt { dst := 1, emp := 1, imm := 7 }) ∧ Ready (shClkfree {}) none (stateAt {}) ∧
    (stateAt {}).core.dbg.held = false ∧ gate (shPhcommit {}) none (stateAt {}) = .pass ∧ (stateAt {}).core.ph.en = false ∧
    (let s := stateAt {}
     let r : State := { s with cyc := 100, core := { s.core with ph := { s.core.ph with en := true }, q := { s.core.q with holdFrom := some 0 } } }
     gate (shPhcommit {}) none r = .pass ∧ r.core.ph.en = true ∧ predOn r.core.q {} = true ∧ (emptied 1 r).commitReady = false ∧ (commitHold r).isNone = true) ∧
    (∀ f ∈ [({ dst := 1, emp := 1, sa := 1, sb := 2 } : Fields)], Ready (shCool f) none (stateAt f)) ∧
    Ready (shCoolstat { dst := 1, emp := 1, sa := 1 }) none (stateAt { dst := 1, emp := 1, sa := 1 }) := by decide +kernel

/-! Witnesses: steps of devices. -/

/-- The machine with a device step being taken. -/
def steppedBy (ev : EvArg) (s : State := stateAt {}) : State := { s with ev := ev }
/-- Words of main memory of die 0, where page tables at 0 and 32768 map the first 128 MiB as they stand and the next as a synchronisation page. -/
def mapped (ws : List (Nat × Nat)) (s : State := stateAt {}) : State :=
  let all := [(0, 2 ^ 14 + 1), (32768, (plainPte 0 0 0).toNat), (32776, (plainPte 0 0 8192).toNat + 8)] ++ ws
  { s with mem := { s.mem with views := vput s.mem.views 0 (Mem.writeAll (vat s.mem.views 0) (all.flatMap fun p => spanAt p.1 (leBytes 8 p.2))) } }
def flying (f : List InFlight) (s : State := stateAt {}) : State := { s with mem := { s.mem with flying := f } }
def piece (va : Nat := 0) (pte : BitVec 64 := plainPte 0 0 0) : PagePiece := { va := va, len := 8, node := 0, die := 0, pa := va, pte := pte }
def inFlight (w : StoreWhat) (uid : Nat := 5) : InFlight := { uid := uid, core := 0, path := 0, what := w }

/-- An access that agrees and one that does not, each kind that arrives, one that must follow an older one, an atomic whose page has moved,
and a write whose turn it is in the view of die 1. -/
theorem witness_AccessStepsReachMemory :
    (∀ n2 ∈ [0, 1], let s := steppedBy { n1 := 5, n2 := n2 } (flying [inFlight (.window 1 0 [(0, 7)])])
      (s.flight s.ev.n1).isSome = true ∧ (s.coreAt 0).task.thread = (inFlight .load).thread ∧ (∀ g ∈ s.mem.flying, g.core = 0 → g.path = 0 → g.uid < 5 → g.compared = true)) ∧
    (∀ w ∈ [StoreWhat.window 1 0 [(0, 7)], .plain (piece) (spanAt 0 [7]), .multicast 1 [(0, 7)], .commit 0 0 {} [] 0 0, .atomic (piece) 0 0xF 1 0 none],
      let s := steppedBy { n0 := 5 } (flying [inFlight w])
      (s.flight s.ev.n0).isSome = true ∧ s.mustFollow (inFlight w) = false) ∧
    (let s := steppedBy { n0 := 6 } (flying [inFlight (.window 1 0 [(0, 7)]), inFlight (.window 1 0 [(0, 8)]) 6])
     s.mustFollow (inFlight (.window 1 0 [(0, 8)]) 6) = true ∧ (s.before (inFlight (.window 1 0 [(0, 8)]) 6)).any s.tooYoung = true) ∧
    pteTm (piece).pte = false ∧ (∀ w ∈ (stateAt {}).core.q.pad, ¬ (w.due = 0 ∧ w.buf = 1)) ∧
    (let s := mapped []
     let p := piece 65536 (plainPte 0 0 4)
     s.movedTo (inFlight (.atomic p 0 0xF 1 0 none)) p = none ∧ s.badPiece p = false ∧ s.mustFollow (inFlight (.atomic p 0 0xF 1 0 none)) = false ∧
       (s.movedTo (inFlight (.atomic p 0 0xF 1 0 none)) { p with pa := 98304 }).any (fun q => decide (q.node = 0 ∧ q.pa = 65536)) = true) ∧
    (let s := mapped [(32768, (plainPte 1 0 0).toNat)]
     let p := piece 65536 (plainPte 0 0 4)
     (s.movedTo (inFlight (.atomic p 0 0xF 1 0 none)) p).any (fun q => decide (q.node ≠ s.fab.node.toNat)) = true ∧
       (s.movedTo (inFlight (.atomic p 7 0xF 1 0 (some 1))) p).any (fun q => decide (q.node ≠ s.fab.node.toNat)) = true) ∧
    (let s := stateAt {}
     let w : Emitted := { uid := 7, src := 0, vc := vput (Vector.replicate 4 0) 0 1, bytes := [(0, 7)], todo := [1, 2, 3] }
     let r := steppedBy { n0 := 1, n1 := 7 } { s with mem := { s.mem with emitted := [w] } }
     (r.mem.emitted.find? (fun x => x.uid == r.ev.n1)).isSome = true ∧ 1 ∈ w.todo ∧ vat w.vc w.src = vat (vat r.mem.vc 1) w.src + 1 ∧
       (∀ k < 4, k ≠ w.src → vat w.vc k ≤ vat (vat r.mem.vc 1) k)) := by decide +kernel

/-- One command of MXQ in a state, with the tokens that it pops. -/
def commanded (k : Cmd) (ev : EvArg) (ml : Nat := 0) : State :=
  let r := steppedBy ev
  { r with core := { r.core with eng := { r.core.eng with cmds := [k], ml := ml, lm := ml } } }
def mxCmd (tok : Nat) (st : CmdState) : Cmd :=
  { uid := 5, q := 0, ch := 0, raw := cmdWord 0x2C0 0 0 tok 0 false false 0 0 0 0 0, wmax := 1, compared := true, st := st, early := true }
/-- A chain walker that runs, at an entry of line 0 or at one of zeros, or whose command has ended with a link or without one. -/
def walking (k : Walker) : State :=
  let r := steppedBy { n1 := 0 } (placed {})
  { r with core := { r.core with eng := { r.core.eng with walkers := vput r.core.eng.walkers 0 k } } }

theorem witness_FillsAndEnginesProgress :
    (∀ d ∈ [0, 63], let r := stateAt {}
      let f : Fill := { uid := 5, reg := .s (BitVec.ofNat 6 d), src := .value (.word 1), due := 0 }
      let s := steppedBy { n1 := 5 } { r with core := { r.core with q := { r.core.q with fills := [f] } } }
      s.ev.n0 = s.core.num ∧ s.core.q.fillOf s.ev.n1 = some f ∧ f.bad = false ∧ s.loadHeld 0 5 = false) ∧
    (let r := placed {}
     let w (x : CoreSt) : Bool := dieOf x.num == 0 && x.task.asn.toNat == 0 && (x.task.walking.contains 0 || x.eng.walking.contains 0)
     let s := { r with core := { r.core with task := { r.core.task with walking := [0] } } }
     s.cores.find? w = some s.core ∧ w s.core = true ∧ s.core.task.walking.contains 0 = true ∧ r.cores.find? w = none) ∧
    (match (mapped []).walkBy 0 0 0 0 65536 with | .ok _ => true | .error _ => false) = true ∧
    (let s := steppedBy { n1 := 0 } (placed {})
     (match s.walk 0 0 0 0 (some 0) with | .error k => k != 1 | .ok _ => false) = true ∧ ((vat s.mem.dieTlb 0).find? (tlbHit 0 0)).isNone = true ∧
       (vat ({ s.mem with dieTlb := vput s.mem.dieTlb 0 s.core.task.tlb } : MemSt).dieTlb 0).find? (tlbHit 0 0) = s.core.task.tlb.head?) ∧
    (let k := mxCmd 0 .popWait
     let s := commanded k { n1 := 5, n2 := 1 }
     s.core.cmdOf 5 = some k ∧ k.stalled = false ∧ s.ev.n2 % 4 = 1 ∧ s.core.headOf 0 0 = some k ∧ k.compared = true ∧ k.held = false ∧ k.fol = none ∧
       s.core.eng.halt = false ∧ k.popped = false ∧ k.pops = [] ∧ k.handles = [] ∧ k.packets = 0 ∧ k.q ≠ 1 ∧ k.fetched = false ∧ s.descWaits 0 k = false ∧
       ((s.core.queue 1 0).takeWhile fun x => x.uid != 5).length ≤ 4 ∧ (s.pagesFor 0 k.walks (k.handles.flatMap fun h => s.handlePages s.core h)).isNone = true ∧
       s.farAnswered (0, 21) 0 (k.handles.flatMap fun h => s.handleWants s.core (s.farAnswered (0, 21) 0) 2 h) = true ∧ s.core.q.rerun = false) ∧
    (let k := mxCmd 15 .popWait
     (∃ i ∈ k.pops, (commanded k {}).core.eng.poppable i 0 = 0) ∧ (∀ i ∈ k.pops, (commanded k {} 8).core.eng.poppable i 0 ≠ 0)) ∧
    (let k := mxCmd 0 .completing
     k.st = .completing ∧ k.early = true ∧ k.lands = [] ∧ k.pushes = [] ∧ k.chain = false ∧ k.rerun = false ∧ k.posts = false ∧ k.det = 0) ∧
    (let f : Fill := { uid := 5, reg := .s 1, src := .frontier 0 0 false false 0, due := 0, waits := some (0, 0) }
     let r := stateAt {}
     let s := steppedBy { n1 := 5, n2 := 16 } { r with core := { r.core with q := { r.core.q with fills := [f] } } }
     s.core.q.fillOf s.ev.n1 = some f) ∧
    (let s := walking { st := .run, addr := 64 }
     let r := s.engRead 0 [] [] 64 32
     r.fail = none ∧ r.need = [] ∧ badEntry 0 (BitVec.ofNat 256 (leNat r.bytes)) = true ∧ (vat s.core.eng.walkers 0).cmd = none ∧
       (s.pagesFor 0 none [64]).isNone = true) ∧
    (vat (walking { st := .run, cmd := some 5, entry := 0 }).core.eng.walkers 0).cmd ≠ none ∧ entryLink 0 = 0 := by decide +kernel

/-- The instance of `graphed` with a count of 1 at time 0, and what is on its way to it. -/
def updating (ev : EvArg) (f : PeSt → PeSt) : State :=
  let s := graphed {}
  let tps := s.pe.templates.map fun (x : Template) => { x with reach := [(0, 0, [pathId 4])] }
  let g : GraphInst := { inst := 1, tmpl := 1, home := 0, cells := [{ loc := 0x0000000100010000, time := 0, cnt := 1, poison := false }] }
  { s with ev := ev, pe := f { s.pe with insts := [g], templates := tps } }
/-- An update of one count of location (1, 1, port 0) by a number, in its sender's batch of a number. -/
def updateOf (delta : Int) (batch : Nat := 0) (core : Option Nat := none) (loc : BitVec 64 := 0x0000000100010000) : Update :=
  { uid := 5, sender := 0, inst := 1, batch := batch, items := [(loc, 0, delta)], core := core }

/-- An update that is accepted, one that takes a count out of range, one of a later batch; a notice that is new and one that is not; a rank that
has ended and one that waits; a join decrement that leaves 1 and one that leaves 0. -/
theorem witness_ProgressStepsApply :
    (∀ u ∈ [(updateOf 3), updateOf 3 1 (some 0), updateOf (2 ^ 31) 1 (some 0), updateOf 3 2], let s := updating { n0 := 5 } fun p => { p with updates := [u] }
      s.pe.updates.find? (fun x => x.uid == s.ev.n0) = some u ∧ (s.pe.instOf u.inst).isSome = true ∧ (s.pe.tmplOf 1).isSome = true ∧ u.items.length = 1 ∧
        u.entry = none ∧ u.records = [] ∧ u.away = none ∧ u.orphan = false ∧ s.inOrder u.home u.sender u.batch = decide (u.batch ≠ 2)) ∧
    (let s := updating {} id
     let applied (d : Int) : Option Int := match s.pe.instOf 1, s.pe.tmplOf 1 with
       | some g, some tp => (s.applyItem tp false false g (0x0000000100010000, 0, d)).toOption.map fun g' => g'.cnt 0x0000000100010000 0
       | _, _ => some 0
     applied 3 = some 4 ∧ applied (2 ^ 31) = none) ∧
    ([((4 : Nat), true), (9, false)].all fun (serial, new) =>
      let s := updating { n0 := 1, w := 0x0000000100010000, bytes := leBytes 8 0 ++ leBytes 8 5 } fun p =>
        { p with notices := [{ die := 1, loc := 0x0000000100010000, frontier := 0, poison := 0, cover := 0, serial := serial }] }
      let n := noticeOf s.ev
      (s.pe.instOf (locInst n.loc)).isSome && s.pe.notices.all (fun o => o.die == n.die && o.loc == n.loc && (decide (o.serial < n.serial) == new))) = true ∧
    (∀ st ∈ [2, 3], let k : Coll := { uid := 5, core := 0, thread := 0, space := {}, kind := 0, ty := 1, loc := 0x0000000100010000, time := 0, src := 0, dst := 0,
                                            count := 1, group := 1, rank := 0, root := 0, op := 0, die := 0, stage := st, packets := 1 }
      let s := updating { n0 := 5 } fun p => { p with colls := [k] }
      s.pe.colls.find? (fun x => x.uid == s.ev.n0) = some k ∧ s.collAborted k = false) ∧
    (∀ n ∈ [1, 2], let j : JoinMsg := { uid := 5, sender := 0, inst := 1, batch := 0, node := 2, time := 0, cluster := 0, prio := 0, idem := false,
                                                                     nockpt := false, tt := false, space := {}, tpldir := 0, core := none }
      let r : Placed := { uid := 6, task := { inst := 1, node := 2, join := BitVec.ofNat 16 n }, img := {}, cluster := 0, space := {}, tpldir := 0 }
      let u := updating { n0 := 5 } fun p => { p with joins := [j] }
      let s := { u with sched := { u.sched with placed := [r] } }
      s.pe.joins.find? (fun x => x.uid == s.ev.n0) = some j ∧ (s.pe.instOf j.inst).isSome = true ∧ s.inOrder j.home j.sender j.batch = true ∧
        (j.inst, j.node, j.time) ∉ s.sched.drops ∧ r.task.join ≠ 0 ∧
        s.sched.placed.find? (fun x => !x.admitted && x.task.inst == j.inst && x.task.node == j.node && x.task.time == j.time) = some r) := by decide +kernel

/-! Witnesses: the scheduler and the recovery of a phase. -/

/-- Core 0 with a status, after boot, and the scheduler as named. -/
def scheduling (ev : EvArg) (st : CoreStatus) (f : SchedSt → SchedSt) (c : CoreSt → CoreSt := id) : State :=
  let r := stateAt {}
  { r with ev := ev, core := c { r.core with status := st }, sched := f r.sched, host := { r.host with ready := true } }
/-- A ready record of cluster 0 for a gang of a size, at a priority. -/
def readyRecord (gang : Nat := 0) (prio : BitVec 8 := 0) : Placed :=
  { uid := 6, task := { prio := prio }, img := { gang := gang }, cluster := 0, space := {}, tpldir := 0, ready := some 0 }
/-- A gang on cores of cluster 0. -/
def gangOn (policy : Nat) (members : List Nat := [0]) (marks : List (Nat × Nat) := []) : Gang :=
  { id := 3, task := {}, img := {}, cluster := 0, space := {}, tpldir := 0, members := members, policy := policy, marks := marks }

/-- A head that is admitted, one whose gang finds too few cores, one that the gang of core 0 is taken off for, and none. -/
theorem witness_SchedulerStepsComplete_heads :
    (∀ e ∈ (scheduling {} .running id).agenda, (scheduling {} .running id).cyc < e.due) ∧ (scheduling {} .running id).headOf 0 = none ∧
    (let s := (scheduling {} .running id).schedule 0 .longLatencyFill { n2 := 2 }
     ∃ e ∈ s.agenda, e.due ≤ s.cyc ∧ e.op = .longLatencyFill ∧ e.arg.n2 = 2) ∧
    (scheduling {} .running id).dropClaims.headOf 0 = none ∧
    (let s := scheduling {} .running fun x => { x with placed := [readyRecord] }
     s.dropClaims.headOf 0 = some readyRecord ∧ (s.dropClaims.admitTest readyRecord []).pass = true) ∧
    (let s := scheduling {} .running fun x => { x with placed := [readyRecord 127] }
     s.dropClaims.headOf 0 = some (readyRecord 127) ∧ (s.dropClaims.admitTest (readyRecord 127) []).pass = false) ∧
    (let r := scheduling {} .running fun x => { x with placed := [readyRecord 95 0x20], gangs := [gangOn 0] }
     let s := { r with cool := { r.cool with zones := vput r.cool.zones 0 { commit := 1 } } }
     s.headOf 0 = some (readyRecord 95 0x20) ∧
       s.sched.gangs.filter (fun g => g.cluster == 0 && g.policy == 0 && decide (g.task.level < (readyRecord 95 0x20).task.level)) = [gangOn 0] ∧
       (s.admitTest (readyRecord 95 0x20) []).pass = false ∧ (s.admitTest (readyRecord 95 0x20) [gangOn 0]).pass = true) := by decide +kernel
/-- A member that ends, with and without commands; a gang whose marks are past and not; one to be checkpointed that runs and one that is
quiet; one to be killed that has stopped and one that runs. -/
theorem witness_SchedulerStepsComplete_gangs :
    (∀ k ∈ [[], [mxCmd 0 .popWait]], let s := scheduling { n1 := 1 } .exiting id fun c => { c with eng := { c.eng with cmds := k } }
      (s.coreAt s.ev.n0).status = .exiting ∧ (s.coreAt s.ev.n0).eng.cmds = k ∧ s.ev.n1 ≠ 0) ∧
    (∀ n ∈ [0, 1], let g := gangOn 0 [0, 1]
      let s := scheduling { n0 := 3, n1 := 1, n2 := n } .running fun x => { x with gangs := [g] }
      s.ev.n1 = 1 ∧ s.sched.gangs.find? (fun g => g.id == s.ev.n0) = some g ∧ g.dropped.contains n = false ∧ (∃ m ∈ g.members, m ∉ g.dropped ++ [n])) ∧
    (({ gangOn 0 with dropped := [0] } : Gang).dropped.contains 0 = true) ∧
    (∀ m ∈ [4, 6], let s := flying [inFlight .load] (scheduling { n0 := 3 } .running fun x => { x with gangs := [gangOn 0 [0] [(0, m)]] })
      s.sched.gangs.find? (fun g => g.id == s.ev.n0) = some (gangOn 0 [0] [(0, m)]) ∧ s.landedSince 0 m = decide (m = 4) ∧ (gangOn 0).statsDone = false) ∧
    (∀ m ∈ [4, 6], let w : Emitted := { uid := 5, src := 0, vc := Vector.replicate 4 0, bytes := [], todo := [1], org := some (0, 0) }
      let g : Gang := { gangOn 0 [0] [(0, m)] with statsDone := true }
      let r := scheduling { n0 := 3 } .running fun x => { x with gangs := [g] }
      let s := { r with mem := { r.mem with emitted := [w] } }
      s.sched.gangs.find? (fun g => g.id == s.ev.n0) = some g ∧ s.quietSince g 0 m 3 = decide (m = 4)) ∧
    (∀ p ∈ [2, 3], let s := scheduling { n0 := 3 } .running fun x => { x with gangs := [gangOn p] }
      s.sched.gangs.find? (fun g => g.id == s.ev.n0) = some (gangOn p) ∧ 0 ∈ (gangOn p).live ∧ (s.coreAt 0).status ≠ .stopped) ∧
    (∀ p ∈ [2, 3], let s := scheduling { n0 := 3 } .stopped fun x => { x with gangs := [gangOn p] }
      let u := (gangOn p).live.foldl (fun (s : State) m => if s.memberQuiet m then s.modCore m fun c => c.modEng fun e => { e with halt := true } else s) s
      (gangOn p).live = [0] ∧ (s.coreAt 0).status = .stopped ∧ u.memberQuiet 0 = true ∧ (u.coreAt 0).enginesStill = true) := by decide +kernel
/-- A frame with and without a cause of a slip; a yield that is late; a core to be killed and an idle one; a draw that ends and one that waits;
a phase that is live and one that is rolled back; a failure of the die in focus and of another. -/
theorem witness_SchedulerStepsComplete_rest :
    (scheduling {} .running id).slipCauses 0 = [] ∧
    (scheduling {} .running fun x => { x with gangs := [{ gangOn 0 with frame := some 0 }] }).slipCauses 0 ≠ [] ∧
    (let r : Placed := { readyRecord with task := { tt := true } }
     let s := scheduling { n1 := 1 } .running fun x => { x with placed := [r], failing := [(0, 6, 0)] }
     (∃ x ∈ s.sched.failing, x.1 = r.cluster ∧ ∃ h ∈ s.sched.placed, h.uid = x.2.1 ∧ h.cluster = r.cluster ∧ h.timedIn (s.frameNow 0) = true) ∧
     r.cluster / 2 = 0 ∧ r.task.tt = true ∧ r.task.rem.toNat = s.frameNow 0 ∧ r.admitted = false ∧ r.ready = some 0 ∧ (0 : Int) ≤ s.ev.n2) ∧
    (let s := scheduling {} .running id fun c => { c with trap := { c.trap with yreq := true } }
     s.ev.n0 = s.core.num ∧ (s.coreAt s.ev.n0).trap.yreq = true ∧ (s.coreAt s.ev.n0).q.verdict = none ∧ (s.coreAt s.ev.n0).status = .running) ∧
    ((scheduling { n0 := 1 } .running id).coreAt 1).status = .idle ∧ (scheduling { n2 := 1 } .running id).ev.n2 = 1 ∧
    (let s := scheduling {} .running fun x => { x with waiting := [(0, 1, 5, 0)] }
     s.ev.n2 ≠ 1 ∧ s.sched.waiting = [(0, 1, 5, 0)] ∧ 5 ≤ s.powerLeft (dieOf 0)) ∧
    (let s := scheduling {} .running id
     let x : Snapshot := { s := s.core.q.s, m := s.core.q.m, pc := 0, thm := false, tpc := 0, tcause := 0, loops := s.core.q.loops, loopCount := 0, lfsr := 1,
                           fast := false, counts := {}, lm := 0, ms := 0, ml := 0, sm := 0, xnext := s.core.eng.xnext, xdone := s.core.eng.xdone }
     let c := (scheduling {} .running id fun c => { c with ph := { c.ph with en := true, snap := some x } }).core
     c.status ≠ .idle ∧ c.ph.snap = some x ∧ c.ph.en = true ∧ c.ph.live = false ∧ c.ph.irrev = false ∧ c.ph.ovf = false ∧ c.ph.rolls ≠ c.ph.retry) ∧
    (scheduling {} .running id).core.ph.snap = none ∧ dieOf (stateAt {}).core.num = 0 ∧ (1 : Nat) ≠ 0 := by decide +kernel

/-! Witnesses: the fabric. -/

/-- A module with a fabric as named, and a packet that arrives at link 0. -/
def joined (f : FabSt → FabSt) (ev : EvArg := {}) (l : Link := {}) : State :=
  let r := stateAt {}
  { r with ev := ev, fab := f { r.fab with links := vput r.fab.links 0 l } }
/-- An open flow of slot 2 to node 1. -/
def flowOut (un : List FlowItem := []) (timeouts : Nat := 0) : FlowSrc :=
  { slot := 2, inc := 0, ctx := 1, node := 1, ord := true, opened := true, unacked := un, timeouts := timeouts }

/-- A packet of no open flow, one applied before, one too far ahead, and one that is due or out of order. -/
theorem witness_FabricStepsComplete_destinations :
    (joined id).dstOf {} = none ∧ (∀ f ∈ (joined id).fab.dsts, f.after {} = false) ∧ (joined id).ev.n2 = 0 ∧
    ([(0 : Nat), 5, 1, 3, 16].all fun n =>
      let f : FlowDst := { snode := 0, flow := 0, ord := decide (n = 1) }
      let s := joined (fun x => { x with dsts := [f] }) { p := { fseq := BitVec.ofNat 32 n } }
      decide (s.dstOf { s.ev.p with kind := kWRITE } = some f ∧ (n ≠ 0 → s.ev.p.fseq ∉ f.early ∧ s.ev.p.fseq ≠ f.applied ∧ (s.ev.p.fseq - f.applied).toNat ≤ 16))) = true ∧
    (let f : FlowDst := { snode := 0, flow := 0, ord := false }
     (joined fun x => { x with dsts := [f] }).dstOf { fseq := 17 } = some f ∧ 16 < ((17 : BitVec 32) - f.applied).toNat ∧ (0 : BitVec 32) = f.applied) := by decide +kernel
/-- A response that a fill waits for, an acknowledgement, and a flow that is silent: before and at its last retry, and idle. -/
theorem witness_FabricStepsComplete_sources :
    (let y : FlowItem := { p := { kind := kREAD, fseq := 7 }, use := .fill 0 5 }
     let x := flowOut [y]
     let s := joined (fun f => { f with srcs := [x] }) { p := { kind := kRESP, fseq := 7, flow := flowField x, snode := 1 } }
     s.srcOf s.ev.p = some x ∧ s.srcAt x.slot = some x ∧ y.use = .fill s.core.num 5 ∧ s.ev.p.aux.getLsbD 0 = false ∧ x.queue = [] ∧
       x.unacked.find? (fun it => it.p.kind == kREAD && it.p.fseq == s.ev.p.fseq) = some y) ∧
    ([(0 : Nat), 8].all fun n =>
      let x := flowOut [{ p := {}, use := .reply }] n
      let r := joined (fun f => { f with srcs := [x], memberTab := [(1, 0, 0)] }) { n0 := 2 } { up := true }
      let s := { r with cyc := 100000 }
      decide (s.srcAt s.ev.n0 = some x ∧ x.opened = true ∧ x.unacked ≠ [] ∧ (s.route x.node).isSome = true ∧ nsCyc s.fab.ftimeout ≤ s.cyc - x.since ∧
        (x.timeouts < s.fab.fretry ↔ n = 0))) = true ∧
    (let r := joined (fun f => { f with srcs := [flowOut] }) { n0 := 2 }
     let s := { r with cyc := 1900000 }
     s.srcAt s.ev.n0 = some flowOut ∧ flowOut.unacked = [] ∧ flowOut.queue = [] ∧ nsCyc 1000000 ≤ s.cyc - flowOut.since ∧ flowOut.ctx < 2 ^ 32) := by decide +kernel
/-- A link that carries packets, with a packet for this module of each kind that arrives, and with one that fails its CRC; a link whose timers
are due; lanes that fail on one half only. -/
theorem witness_FabricStepsComplete_links :
    (let l : Link := { up := true, replay := [{}], ackDue := true }
     let r := joined id {} l
     let s := { r with cyc := 3800 }
     l.usable = true ∧ l.retraining = false ∧ l.noLock = 0 ∧ l.txq = [] ∧ l.replay ≠ [] ∧ nsCyc s.fab.ltimeout ≤ s.cyc - l.since ∧
       l.failedLanes.getLsbD 15 = false ∧ vat s.fab.links 0 = l ∧
       ([kWRITE, kREAD, kRESP, kRED, kPBATCH, kCOLLD, kFOPEN, kFCLOSE, kFACK].all fun k =>
         let p := sealPacket { kind := k }
         packetOk p && decide (p.kind ≠ kLCTL ∧ p.lseq = l.rxLast + 1 ∧ p.dnode = s.fab.node) && (arrivalOf p.kind).isSome) = true ∧
       packetOk { kind := kWRITE, crc := packetCrc { kind := kWRITE } + 1 } = false ∧ l.discarded = false) ∧
    (∀ n ∈ [0, 0x8, 0xFF00], let l : Link := { retraining := true, failedLanes := BitVec.ofNat 16 n }
      l.retraining = true ∧ (l.failedLanes.toNat % 256 = 0 ∨ l.failedLanes.toNat / 256 = 0)) := by decide +kernel

/-! Witnesses: Racking. -/

/-- A pool whose block 1 has a request of an operation and a descriptor of a state and a pin count. -/
def racking (op state pin stage : Nat) (frame : Option Nat := none) : State :=
  let r := mapped [(65544, state * 2 ^ 32 + pin)]
  let p : Pool := { ctx := 1, nblk := 2, poolva := 0x200000, descva := 65536, ringva := 0x300000, nent := 16, timeout := 1000, db := 0x8000000, cons := 0x8000008, drv := [0],
                    lbabase := 0, frameBase := 0x400000, frames := 4, die := 0, free := [2, 3], owner := [(1, 1)], reqs := [{ k := 7, op := op, block := 1, frame := frame }] }
  { r with ev := { n0 := 0, n1 := 7, n2 := stage }, rack := { r.rack with pools := [p] } }
theorem witness_RackingStepsComplete :
    ([(1, 1, 0, 0), (1, 0, 0, 0), (2, 2, 0, 0), (2, 0, 0, 0), (3, 2, 0, 0), (3, 0, 0, 0), (3, 1, 5, 0), (4, 0, 0, 0), (4, 1, 5, 0), (5, 1, 0, 0), (5, 2, 0, 0), (5, 3, 0, 0),
      (1, 3, 0, 24), (2, 4, 0, 24), (3, 4, 0, 3), (4, 4, 0, 3), (5, 0, 0, 1), (1, 3, 0, 2)].all fun (op, st, pin, stage) =>
      let s := racking op st pin stage (if op = 1 then some 2 else none)
      match s.poolAt s.ev.n0 with
      | some p => (match p.req s.ev.n1 with
        | some r => decide (r.op = op ∧ r.status = none ∧ r.joins = false ∧ s.ev.n2 = stage ∧ (op = 1 → r.frame = some 2) ∧ p.free = [2, 3] ∧
            descState (s.descWord p r.block) = st ∧ descPin (s.descWord p r.block) = pin ∧ s.blockQuiet p r.block = true ∧ s.blockDone 0 p r = true ∧ r.victim = none ∧ (s.unitFar (s.ctxSpace p.ctx) p.cons .write).isNone = true ∧
            descValid (s.descWord p r.block) = false ∧ s.rack.freePair (p.driveOf r.block) = false)
        | none => false)
      | none => false) = true := by decide +kernel

/-! Witnesses: the text front-end. -/

/-- A stream of context 1 with messages of descriptors at 65536 and a doorbell that announces two of them. -/
def streaming (ms : List Message) (f : Stream → Stream := id) (ev : EvArg := { n0 := 9 }) : State :=
  let r := mapped [(65536, 65664), (65544, 2), (65552, 106), (65664, 0x6261), (0x10000000, 2)]
  let x : Stream := { id := 9, ctx := 1, mtab := 0, maxout := 4096, ringva := 65536, nent := 16, logva := 0x300000, logn := 16, db := 0x8000000, cons := 0x8000008,
                      bos := BitVec.allOnes 32, eos := BitVec.allOnes 32, msgs := ms }
  { r with ev := ev, tfe := { r.tfe with streams := [f x] } }
/-- The message of two bytes in charset 106, and of an unknown charset. -/
def messageOf (mib : Nat := 106) : Message := { desc := BitVec.ofNat 512 (65664 + 2 * 2 ^ 64 + mib * 2 ^ 128) }

/-- A descriptor that is announced, a stream that closes; a message before and after its input is read, and one whose input is not mapped. -/
theorem witness_TextStepsComplete_inflate :
    (let s := streaming []
     match s.streamAt 9 with
     | some x => decide (x.closing = false ∧ x.full = false ∧ s.tfe.enable = true ∧ s.tfe.drain = false ∧ s.textPaused = false ∧ s.mem.badLines = [] ∧ x.read < s.doorbell x.ctx x.db ∧ x.read < x.done + x.nent ∧
        (s.unitPlace (s.ctxSpace x.ctx) (x.ringva + 64 * (x.read % max 1 x.nent)) .read).isSome = true)
     | none => false) = true ∧
    ((streaming [] fun x => { x with closing := true }).streamAt 9).any (·.closing) = true ∧
    (let s := streaming [messageOf]
     let m : Message := messageOf
     (((s.streamAt 9).map (·.msgs)).getD []).find? (atEngine 0) = some m ∧ m.out = none ∧ (s.inputOf (2057, 1) 1 (m.field 0 51) m.len).toOption = some [0x61, 0x62] ∧
       (s.inputOf (2057, 1) 1 (2 ^ 40) 2).toOption = none ∧ s.inputWants 1 (m.field 0 51) m.len = [] ∧
       (let t := mapped [(32784, (plainPte 1 0 16384).toNat)] s
        t.textPaused = false ∧ t.farAnswered (2057, 1) 0 (t.inputWants 1 (2 ^ 28) 2) = false)) ∧
    (let m : Message := { messageOf with out := some ([0x61, 0x62], none) }
     let s := streaming [m]
     (((s.streamAt 9).map (·.msgs)).getD []).find? (atEngine 0) = some m ∧ m.made < 2 ∧ (s.streamAt 9).any (fun x => decide (x.occupancy 0 < s.hiMark 0)) = true) := by decide +kernel
/-- Messages at the charset engine and at the tokeniser: an unknown charset, the end of a text, a queue that is full; tokens to write and none. -/
theorem witness_TextStepsComplete_engines :
    (let m := messageOf 9999
     charsetKnown m.mib = false ∧ [m].find? (atEngine 1) = some m) ∧
    (let m : Message := { messageOf with out := some ([0x61, 0x62], none), made := 2, chars := 2, inflated := true }
     charsetKnown m.mib = true ∧ m.charsReady = [] ∧ m.inflated = true ∧ [m].find? (atEngine 1) = some m) ∧
    (let m : Message := { messageOf with out := some ([0x61, 0x62], none), made := 2 }
     let r := streaming [m]
     let s := { r with tfe := { r.tfe with wm := vput r.tfe.wm 0 0 } }
     charsetKnown m.mib = true ∧ m.charsReady ≠ [] ∧ (s.streamAt 9).any (fun x => decide (s.hiMark 1 ≤ x.occupancy 1)) = true) ∧
    (let m : Message := { messageOf with inflated := true, converted := true, text := [0x61, 0x62] }
     let s := streaming [m]
     [m].find? (atEngine 2) = some m ∧ m.tokens.length < (tokensOf (vat s.tfe.tables 0) (BitVec.allOnes 32) (BitVec.allOnes 32) m.text m.converted).length ∧
       (s.streamAt 9).any (fun x => decide (x.occupancy 2 < s.hiMark 2)) = true) ∧
    (let m : Message := { messageOf with inflated := true, converted := true }
     (tokensOf (vat (streaming [m]).tfe.tables 0) (BitVec.allOnes 32) (BitVec.allOnes 32) m.text m.converted).length ≤ m.tokens.length) := by decide +kernel
/-- A batch of a bound stream that has landed, and the oldest message, which has left and is counted. -/
theorem witness_TextStepsComplete_batches :
    (let b : Batch := { num := 0, tokens := [1], log := 0 }
     let w : Word := BitVec.ofNat 64 (9 * 2 ^ 32 + 1)
     let r := streaming [] fun x => { x with bound := some (0, w), writing := some b, landed := true }
     let s := { r with core := { r.core with eng := { r.core.eng with txqcfg := w } } }
     s.bindingOf 9 = some (0, w) ∧ (s.streamAt 9).map (·.bound) = some (some (0, w)) ∧ (s.streamAt 9).map (·.writing) = some (some b) ∧ s.mem.emitted = [] ∧ s.usePending (.unit (logOrg 0)) = false) ∧
    (let m : Message := { messageOf with done := true, counted := true, recorded := true }
     let s := streaming [m]
     m.done = true ∧ m.counted = true ∧ m.recorded = true ∧ (s.streamAt 9).any (fun x => !x.unready (x.read - x.msgs.length)) = true ∧ s.textQuiet 9 = true ∧ m.fault = none) := by decide +kernel

/-! Witnesses: zones, power and the coolant table. -/

/-- Zone 0 as named, with core 0 in it. -/
def zoned (z : Zone) (w : Nat := 0) (gangs : List Gang := []) : State :=
  let r := scheduling { w := BitVec.ofNat 64 w } .running fun x => { x with gangs := gangs }
  { r with cool := { r.cool with zones := vput r.cool.zones 0 z } }
theorem witness_ZoneStepsComplete :
    (let v := (zoned {} 0x606003).zone 0
     let flow := 3
     (95 : Nat) ≤ max 96 96 ∧ 0x606003 / 2 ^ 8 % 2 ^ 8 = 96 ∧ v.st = 0 ∧ 100 * flow < (zoned {}).cool.lowPct * v.alloc ∧ (zoned {}).cool.ttrip = 95 ∧ (zoned {}).cool.twarn = 85 ∧
       (zoned {}).cool.tcrit = 105 ∧ zoneOfCore (zoned {}).core.num = 0 ∧ (zoned {}).core.status ≠ .idle ∧ (zoned {}).cool.enable = true ∧ (zoned {}).cool.ringReg = 0 ∧
       (zoned {}).cool.overFor ≤ 2 ^ 32 ∧ (zoned {}).cool.lowFor ≤ 2 ^ 32 ∧ (zoned {}).cool.persistFor ≤ 2 ^ 32 ∧ (zoned {}).cool.dryFor ≤ 2 ^ 32 ∧ (zoned {}).cool.valveFor ≤ 2 ^ 32 ∧
       90 + (zoned {}).cool.dryRise ≤ 96 ∧ ({ opening := 255, flow := 0 } : Zone).disagrees (zoned {}).cool.valveRange = true) ∧
    (({ flow := 8, verified := true } : Zone).verified && ({ flow := 8, verified := true } : Zone).inRange) = true ∧
    (({ flow := 4, verified := true } : Zone).verified && ({ flow := 4, verified := true } : Zone).inRange) = false ∧
    (11600 < 11601 ∧ 12800 < 12801 ∧ 11999 < 12000 ∧ 256 ≤ 65536 ∧ 0 < vat (zoned {}).cool.limits 4) ∧
    (((zoned { hot := true }).zone 0).hot = true ∧ ((zoned { low := true }).zone 0).low = true ∧ (zoned {}).cool.clearPct * ((zoned {}).zone 0).alloc ≤ 100 * 10 ∧ 100 * 0 < (zoned {}).cool.dryPct * ((zoned {}).zone 0).alloc) ∧
    (∀ k ∈ [2, 3, 4, 5, 6], let v := (zoned { st := 1, step := BitVec.ofNat 3 k }).zone 0
      v.st = 1 ∧ v.step = BitVec.ofNat 3 k) ∧
    (zoned { st := 1, step := 2 }).gangsIn 0 = [] ∧
    (let g : Gang := { gangOn 1 with evac := true, task := { nockpt := true } }
     g ∈ (zoned { st := 1, step := 2 } 0 [g]).gangsIn 0 ∧ g.evac = true ∧ g.policy = 1 ∧ g.task.nockpt = true) ∧
    (let v := (zoned { st := 1, step := 4, floor := 0 }).zone 0
     v.alloc = 0 ∧ ((zoned {}).zone 0).alloc ≠ 0) ∧
    (let s := zoned {}
     let v := s.zone 0
     10 ≤ 64 ∧ 10 + v.sched + v.prog ≤ 64 ∧ 10 ≤ s.poolFree + v.floor ∧ 64 < 65) := by decide +kernel
theorem witness_PowerAndCoolantTable :
    (11600 ≤ 11600 ∧ 11600 < 11601 ∧ 12800 < 12801 ∧ 12000 ≤ 12000 ∧ 11999 < 12000 ∧ 256 ≤ 65536) ∧
    (let s := zoned {}
     let v := s.zone 0
     v.st = 0 ∧ v.alloc + 56 ≤ 64 ∧ 64 < v.alloc + 57 ∧ 56 ≤ s.poolFree ∧ heldIn (s.heldOf 0) 0 = 0 ∧ (s.heldOf 0).length < 8 ∧ 99 < 100) ∧
    ((zoned { st := 2 }).zone 0).st ≠ 0 ∧
    (let r := zoned {}
     let s := { r with cool := { r.cool with supply := 0 } }
     s.poolFree < 1) ∧
    (let s := zoned { prog := 4 } 0 [{ gangOn 0 with held := [(0, 4)] }]
     let r := { s with core := { s.core with task := { s.core.task with gang := some 3, held := [(0, 4)] } } }
     heldIn (r.heldOf 0) 0 ≠ 0) ∧
    (let f : Fill := { uid := 5, reg := .s 1, src := .request 1 0 4, due := 0 }
     let r := steppedBy { n1 := 5, n2 := 2 }
     let s := { r with core := { r.core with q := { r.core.q with fills := [f] } } }
     s.ev.n0 = s.core.num ∧ s.ev.n2 = 2 ∧ s.core.q.fillOf s.ev.n1 = some f ∧ f.src = .request 1 0 4) := by decide +kernel

/-! Witnesses: the host. -/

/-- A mailbox command of a code and a sub-code with fields at their byte offsets. -/
def command (code sub : Nat) (fields : List (Nat × Nat × Nat) := []) : List Byte :=
  leBytes 64 (code + sub * 2 ^ 8 + 5 * 2 ^ 32 + fields.foldl (fun (n : Nat) x => n + x.2.2 % 2 ^ (8 * x.2.1) * 2 ^ (8 * x.1)) 0)
/-- A module that is ready, or not, with a command in its mailbox. -/
def mailed (c : List Byte) (ready : Bool := true) (f : HostSt → HostSt := id) (s : State := stateAt {}) : State :=
  { s with ev := { bytes := c }, host := f { s.host with ready := ready } }
/-- The rows of the command list of 28 with a field at its bounds where it has one. -/
def commands : List (Nat × Nat × List (Nat × Nat) × List Byte) :=
  [(0x01, 0, [], command 0x01 0), (0x02, 0, [], command 0x02 0),
   (0x10, 0, [(8, 8), (16, 8), (24, 1)], command 0x10 0 [(8, 8, 2 ^ 14), (16, 8, 2 ^ 17)]), (0x10, 1, [(8, 2)], command 0x10 1 [(8, 2, 1)]),
   (0x11, 0, [(8, 2), (10, 1), (16, 8)], command 0x11 0 [(8, 2, 4095), (10, 1, 1), (16, 8, 2 ^ 51 - 1)]),
   (0x12, 0, [(8, 2)], command 0x12 0 [(8, 2, 1023)]), (0x13, 0, [(8, 1), (16, 8), (24, 4)], command 0x13 0 [(8, 1, 3), (24, 4, 2 ^ 29)]),
   (0x20, 0, [(8, 8), (16, 1)], command 0x20 0), (0x21, 0, [(8, 8), (16, 1)], command 0x21 0), (0x21, 1, [(8, 2)], command 0x21 1 [(8, 2, 9)]),
   (0x21, 2, [(8, 1), (12, 4), (16, 8), (24, 1)], command 0x21 2 [(8, 1, 3), (12, 4, 1), (16, 8, 131072)]),
   (0x22, 0, [(8, 1), (12, 4), (16, 4), (24, 8), (32, 1)], command 0x22 0 [(8, 1, 1), (12, 4, 255), (16, 4, 1), (24, 8, 131072)]),
   (0x22, 1, [(8, 4), (12, 4), (16, 8), (24, 1)], command 0x22 1 [(12, 4, 2), (16, 8, 131072)]),
   (0x30, 0, [(8, 8), (16, 4), (20, 1)], command 0x30 0 [(16, 4, 257), (20, 1, 1)]), (0x30, 1, [], command 0x30 1),
   (0x31, 0, [(8, 8), (16, 4)], command 0x31 0 [(16, 4, 4096)]), (0x31, 1, [(8, 32), (40, 8)], command 0x31 1 [(40, 8, 2 ^ 36 - 376)])]
/-- Every command with the bytes it may have and with another byte; the module ready and not. -/
theorem witness_HostStepsComplete_commands :
    (∀ ready ∈ [true, false], (mailed [] ready).host.fencing = false ∧ (mailed [] ready).hostHeld = false ∧ (mailed [] ready).host.ready = ready) ∧
    (commands.all fun x => cmdOk x.2.2.2 x.1 x.2.1 x.2.2.1 && !cmdOk (x.2.2.2.set 63 1) x.1 x.2.1 x.2.2.1) = true := by decide +kernel
/-- What each command asks of its fields and of the module. -/
theorem witness_HostStepsComplete_fields :
    (mailed []).mem.emitted = [] ∧ (mailed []).freeAsn = some 1 ∧
    (let f := cmdField (command 0x10 0 [(8, 8, 2 ^ 14), (16, 8, 2 ^ 17)])
     f 8 8 / 2 ^ 43 % 2 ^ 21 = 0 ∧ f 8 8 % 2 ^ 14 = 0 ∧ f 16 8 / 2 ^ 51 % 2 ^ 13 = 0 ∧ f 16 8 % 2 ^ 17 = 0) ∧
    (let x : Context := { num := 1, asn := 1, ptroot := 0, csave := 0, profile := 0 }
     (mailed [] true fun h => { h with contexts := [x] }).host.contexts.find? (fun y => y.num == cmdField (command 0x10 1 [(8, 2, 1)]) 8 2) = some x) ∧
    (let f := cmdField (command 0x11 0 [(8, 2, 4095), (10, 1, 1), (16, 8, 2 ^ 51 - 1)])
     f 8 2 ≤ 4095 ∧ f 10 1 ≤ 1 ∧ f 16 8 < 2 ^ 51) ∧
    ((mailed []).coreAt 1023).status = .idle ∧ ((mailed []).coreAt 0).status ≠ .idle ∧
    (let f := cmdField (command 0x13 0 [(8, 1, 3), (24, 4, 2 ^ 29)])
     f 8 1 ≤ 3 ∧ f 16 8 + 128 * f 24 4 ≤ 2 ^ 36) ∧
    (let x := (streaming []).streamAt 9
     x.isSome = true ∧ (streaming []).tfe.streams.all (fun y => decide (some y = x)) = true ∧ cmdField (command 0x21 1 [(8, 2, 9)]) 8 2 = 9) ∧
    (let s := mailed [] true id (mapped [(131072, 255 + 7 * 2 ^ 19)])
     let f := cmdField (command 0x21 2 [(8, 1, 3), (12, 4, 1), (16, 8, 131072)])
     f 8 1 = 3 ∧ f 12 4 = 1 ∧ s.localBytes (f 24 1) (f 16 8) (8 * f 12 4) = some (leBytes 8 (255 + 7 * 2 ^ 19)) ∧ s.tfe.streams = [] ∧
       nbits (255 + 7 * 2 ^ 19) 0 19 < 256 ∧ nbits (255 + 7 * 2 ^ 19) 19 19 < 256 ∧ nbits (255 + 7 * 2 ^ 19) 38 26 = 0) ∧
    (let s := mailed [] true id (mapped [(131072, 0x0302)])
     let f := cmdField (command 0x22 0 [(8, 1, 1), (12, 4, 255), (16, 4, 1), (24, 8, 131072)])
     f 8 1 = 1 ∧ f 12 4 + f 16 4 ≤ 256 ∧ s.localBytes (f 32 1) (f 24 8) (2 * f 16 4) = some [2, 3]) ∧
    (let s := mailed [] true id (mapped [(131072, 0x100000000)])
     let f := cmdField (command 0x22 1 [(12, 4, 2), (16, 8, 131072)])
     f 12 4 = 2 ∧ s.localBytes (f 24 1) (f 16 8) (4 * f 12 4) = some [0, 0, 0, 0, 1, 0, 0, 0]) ∧
    (let f := cmdField (command 0x30 0 [(16, 4, 257), (20, 1, 1)])
     f 20 1 ≤ 1 ∧ 256 < f 16 4 ∧ f 16 4 ≤ 256 + 2 ^ 28 ∧ f 8 8 + f 16 4 ≤ 2 ^ 36) ∧
    cmdField (command 0x31 0 [(16, 4, 4096)]) 8 8 + cmdField (command 0x31 0 [(16, 4, 4096)]) 16 4 ≤ 2 ^ 36 ∧
    cmdField (command 0x31 1 [(40, 8, 2 ^ 36 - 376)]) 40 8 + 376 ≤ 2 ^ 36 := by decide +kernel
/-- A block of 128 bytes that names a pool, and one of 64 that names a stream, of context 1. -/
theorem witness_HostStepsComplete_blocks :
    let h (x : HostSt) : HostSt := { x with contexts := [{ num := 1, asn := 1, ptroot := 0, csave := 0, profile := 0 }] }
    (let b := leBytes 128 (1 + 2 ^ 24 * 2 ^ 32 + 0x8000 * 2 ^ 64 + 2 ^ 192 * 0 + 4096 * 2 ^ 256 + 1 * 2 ^ 448 + 7 * 2 ^ 512)
     let s := mailed (command 0x20 0 [(8, 8, 131072)]) true h
     s.poolBad b = false ∧ s.rack.pools = [] ∧ (poolOf b).drv = [7] ∧ (poolOf b).nblk = 2 ^ 24) ∧
    (let b := leBytes 64 (1023 + 2 ^ 26 * 2 ^ 32 + 16 * 2 ^ 128 + 4096 * 2 ^ 160 + 2 ^ 448)
     let s := mailed (command 0x21 0 [(8, 8, 131072)]) true h
     s.streamBad b = false ∧ (s.streamAt (streamOf b).id).isNone = true ∧ (streamOf b).maxout = 2 ^ 26) ∧
    ((mailed []).localBytes 0 131072 128).isSome = true ∧ ((mailed []).localBytes 0 131072 64).isSome = true := by decide +kernel
/-- The window, its base, the steps of the boot, and the registers that have rules of their own. -/
theorem witness_HostStepsComplete_rest :
    ((mailed []).hostHeld = false ∧ (mailed []).mem.badLines = [] ∧ (mailed [1]).ev.bytes ≠ [] ∧ 2 ^ 36 - 1 + 1 ≤ 2 ^ 36) ∧
    (∀ w ∈ [0x30B, 0x0], w % 2 ^ 4 ≤ 11 ∧ w / 2 ^ 4 % 2 ^ 4 = 0 ∧ w / 2 ^ 10 = 0) ∧ (∀ w ∈ [0x00C, 0x010, 0x400], 11 < w % 2 ^ 4 ∨ w / 2 ^ 4 % 2 ^ 4 ≠ 0 ∨ w / 2 ^ 10 ≠ 0) ∧
    (∀ o ∈ [1, 6, 9], (mailed [] false).host.recov = false ∧ (mailed [] false).host.ready = false ∧ o ≠ 0) ∧ (mailed []).ev.n0 = 0 ∧
    (RegTarget.sched 0 ≠ .sched 1 ∧ RegTarget.pe 3 0x010 ≠ .pe 0 0x010 ∧ RegTarget.cool (0x040 + 8 * 4) = .cool 0x060) := by decide +kernel

/-! Witnesses: the whole machine. -/

/-- A due step of a device; an instruction at the PC whose line is entered, and one whose line is read. -/
theorem witness_StepRunsDecodedInstruction :
    (let r := stateAt {}
     let s := { r with cyc := 1 }
     (s.agenda.find? (fun e => decide (e.due ≤ s.cyc) && (s.sched.late || !e.isLate))).map (·.op) = some .moduleReset) ∧
    (let s := (stateAt {}).schedule 0 .drawStart {}
     (s.agenda.any fun e => decide (e.due ≤ s.cyc) && e.isLate) = true ∧ s.sched.late = false ∧ s.core.q.rerun = false) ∧
    ([true, false].all fun fresh =>
      let r := placed {}
      let l := lineOf 0 (lineBytes [0x7F])
      let s := { r with core := { r.core with q := { r.core.q with entering := fresh, line := if fresh then {} else l } } }
      let q := s.core.q
      decide ((∀ e ∈ s.agenda, s.cyc < e.due) ∧ s.fetchMisses 0 = false ∧ (stateAt {}).fetchMisses 0 = true ∧ s.core.status = .running ∧ q.nextIssue ≤ s.cyc ∧ s.core.trap.due = [] ∧ s.core.dbg.brk = none ∧
        s.core.dbg.matched q.pc = none ∧ s.throttledNow = false ∧ pcMid q.pc = 0 ∧ l.start (pcSlot q.pc) = true) &&
      (if fresh then (match s.readLine s.core q.pc with | .line m => decide (m = l ∧ m.fault = none ∧ q.badEnd m = none) | _ => false)
        else decide (pcLine q.pc = q.line.num ∧ q.line = l)) &&
      (match decode (leBytes 5 (l.slot (pcSlot q.pc)).toNat ++ leBytes 5 (l.slot (pcSlot q.pc + 1)).toNat) with
        | .ok ((i, _), _) => decide (i = .nop)
        | .error _ => false)) = true := by decide +kernel
/-- A line of another module. -/
theorem witness_StepRunsDecodedInstruction_away :
    let s := away (placed {})
    (∀ e ∈ s.agenda, s.cyc < e.due) ∧ s.core.status = .running ∧ s.core.q.nextIssue ≤ s.cyc ∧ s.core.trap.due = [] ∧ s.core.dbg.brk = none ∧
      s.core.dbg.matched s.core.q.pc = none ∧ s.throttledNow = false ∧ s.core.q.entering = true ∧ s.fetchMisses 0 = false ∧ (s.lineAway s.core s.core.q.pc).isSome = true := by
  decide +kernel
/-- Canonical memories with a step, of a device and of a core. -/
theorem witness_StepKeepsInvariant :
    (Mem.wf (vat State.reset.mem.views 0) = true ∧ ([0, 1, 2, 3].all fun d => Mem.wf (vat (placed {}).mem.views d)) = true ∧ Mem.wf (placed {}).rack.cellar = true) ∧
    (match step (placed {}) with | .next _ => true | _ => false) = true ∧
    (match step (let s := State.reset; { s with cyc := 1 }) with | .next _ => true | _ => false) = true := by decide +kernel
theorem witness_EncodingRoundTrips :
    check .sadd (.long { dst := 63, sa := 63, sb := 63 }) = true ∧ decodeWord 0x00804083F2 = .ok (.vaddF32Short, .short { dst := 3, sa := 2, sb := 4, pd := 1 }) ∧
    isShort 0x00804083F2 = true ∧ isShort 0x002A0100000001000061 = false ∧ 0x00804083F2 < 2 ^ 40 ∧ 0x002A0100000001000061 < 2 ^ 80 := by decide +kernel
theorem witness_NoIssueWritesMemory : opcodeOf .sst ≠ none ∧ Instr.sst ∉ [Instr.trmark, .capstop, .clkfree, .tspillSave] ∧ (∀ n < 16, ((stateAt {}).reg n).lazyMark = false) ∧ Straight (stateAt {}) ∧
    completes .sst (access 0xF 0 8) = true := by decide +kernel
theorem witness_EmittedWriteIsReadAtHome :
    Mem.wf (vat (mapped [(65536, 1)]).mem.views 0) = true ∧ ([(65536, (7 : Byte)), (65536, 8)].reverse.find? fun p => p.1 == 65536) = some (65536, 8) := by decide +kernel

end Sys2Proof.Tests
end

section
/-! SUPPORT. What an instruction answers by its gate, and the wait modes of its sources at issue (R67, R68, R99). -/

namespace Sys2Proof.Proofs

open Sys2Proof Machine Safety

/-! The gate comes first, for every instruction. -/

/-- R68: the answer of an instruction by what its gate says, with `pass` for what it answers once the gate lets it through. -/
def gated (s : State) (pass : Out) : Gate → Out
  | .trap t => .next (s.takeTrap t s.core.q.pc)
  | .wait => .next (s.held true)
  | .hold => .next s.held
  | .pass => pass

/-- R129: VMUL and VMULS issue by the gate of the latency that their type has. -/
theorem vecMulWith_gated (sh : Shape) (b : State → Nat → Lane) (s : State) :
    ∃ pass, vecMulWith sh b s = gated s pass (gate sh (if iv s.core.q.ir.ty then none else some 4) s) := by
  unfold vecMulWith
  split
  · exact ⟨_, rfl⟩
  · exact ⟨_, rfl⟩

/-- Each meaning is a call of `issueWith` with the shape and the latency that `shapeOf` gives, which answers by the gate first; what
comes behind the gate differs from one instruction to the next. -/
theorem exec_gated {i : Instr} {s : State} {sh : Shape} {lat : Option Nat} (h : shapeOf i s = some (sh, lat)) :
    ∃ pass, exec i s = gated s pass (gate sh lat s) := by
  cases i
  case vmul | vmuls | vmulShort => cases h; exact vecMulWith_gated _ _ s
  -- A device step has no shape.
  all_goals cases h
  all_goals exact ⟨_, rfl⟩

theorem exec_of_gate_trap {i : Instr} {s : State} {sh : Shape} {lat : Option Nat} {t : TrapInfo} (h : shapeOf i s = some (sh, lat))
    (hg : gate sh lat s = .trap t) : exec i s = .next (s.takeTrap t s.core.q.pc) := by
  obtain ⟨pass, he⟩ := exec_gated h
  rw [he, hg, gated]

theorem exec_of_gate_wait {i : Instr} {s : State} {sh : Shape} {lat : Option Nat} (h : shapeOf i s = some (sh, lat))
    (hg : gate sh lat s = .wait) : exec i s = .next (s.held true) := by
  obtain ⟨pass, he⟩ := exec_gated h
  rw [he, hg, gated]

/-! The outcomes of the gate that the wait modes decide, in the order of the checks. -/

theorem gate_of_illegalDetail {sh : Shape} {s : State} {d : Nat} (lat : Option Nat) (hd : illegalDetail sh s.core.q.ir = some d) :
    gate sh lat s = .trap (trapOf ILLEGAL d) := by
  simp [gate, hd]

theorem gate_of_emptyRead {sh : Shape} {s : State} {n : Nat} (lat : Option Nat) (hd : illegalDetail sh s.core.q.ir = none)
    (hp : pdHeld s.core.q s.core.q.ir s.cyc = false) (he : emptyRead sh s.core.q s.core.q.ir = some n) :
    gate sh lat s = .trap (trapOf EMPTY_READ n) := by
  simp [gate, hd, hp, he]

theorem gate_of_waitHeld {sh : Shape} {s : State} (lat : Option Nat) (hd : illegalDetail sh s.core.q.ir = none)
    (hp : pdHeld s.core.q s.core.q.ir s.cyc = false) (he : emptyRead sh s.core.q s.core.q.ir = none)
    (hw : waitHeld sh s.core.q s.core.q.ir = true) : gate sh lat s = .wait := by
  simp [gate, hd, hp, he, hw]

/-! Wait mode 11 (R48, R67, R99): no source in use passes both the check of detail 4 and the check of detail 6. -/

theorem mode_ne_three_of_accepted {o : Opd} {x : BitVec 6} {w : BitVec 2} (ho : o ≠ .unused) (hu : o.unusedOk x w = true)
    (hw : o.waitOk w = true) : w ≠ 3 := by
  rintro rfl
  cases o with
  | unused => exact ho rfl
  | imm => simp [Opd.unusedOk] at hu
  | s | v | m | t | pair => simp [Opd.waitOk] at hw

/-- An instruction without a detail of ILLEGAL has passed the checks of details 4 and 6 at each source. -/
theorem sources_accepted {sh : Shape} {f : Fields} (h : illegalDetail sh f = none) :
    (sh.sa.unusedOk f.sa f.wa = true ∧ sh.sa.waitOk f.wa = true) ∧ (sh.sb.unusedOk f.sb f.wb = true ∧ sh.sb.waitOk f.wb = true) ∧
    (sh.sc.unusedOk f.sc f.wc = true ∧ sh.sc.waitOk f.wc = true) := by
  simp only [illegalDetail, ite_eq_iff, reduceCtorEq, and_false, false_or, Bool.not_eq_true', Bool.not_eq_false,
    Bool.and_eq_true] at h
  obtain ⟨-, -, ⟨⟨⟨-, ua⟩, ub⟩, uc⟩, -, ⟨⟨wa, wb⟩, wc⟩, -⟩ := h
  exact ⟨⟨ua, wa⟩, ⟨ub, wb⟩, uc, wc⟩

theorem illegalDetail_of_mode_three {sh : Shape} {f : Fields}
    (h : (sh.sa ≠ .unused ∧ f.wa = 3) ∨ (sh.sb ≠ .unused ∧ f.wb = 3) ∨ (sh.sc ≠ .unused ∧ f.wc = 3)) :
    ∃ d, illegalDetail sh f = some d := by
  rw [← Option.ne_none_iff_exists']
  intro hd
  obtain ⟨⟨ua, wa⟩, ⟨ub, wb⟩, uc, wc⟩ := sources_accepted hd
  rcases h with ⟨ho, h3⟩ | ⟨ho, h3⟩ | ⟨ho, h3⟩
  · exact mode_ne_three_of_accepted ho ua wa h3
  · exact mode_ne_three_of_accepted ho ub wb h3
  · exact mode_ne_three_of_accepted ho uc wc h3

/-! Wait modes 10 and 01. -/

theorem emptyRead_sa {sh : Shape} {q : SeqSt} {f : Fields} (hm : f.wa = 2) (he : sh.sa.full q f.sa = false) :
    emptyRead sh q f = some 1 := by
  rw [emptyRead, if_pos ⟨hm, by simp [he]⟩]

theorem emptyRead_sb {sh : Shape} {q : SeqSt} {f : Fields} (ha : f.wa ≠ 2) (hm : f.wb = 2) (he : sh.sb.full q f.sb = false) :
    emptyRead sh q f = some 2 := by
  rw [emptyRead, if_neg fun h => ha h.1, if_pos ⟨hm, by simp [he]⟩]

theorem emptyRead_sc {sh : Shape} {q : SeqSt} {f : Fields} (ha : f.wa ≠ 2) (hb : f.wb ≠ 2) (hm : f.wc = 2)
    (he : sh.sc.full q f.sc = false) : emptyRead sh q f = some 3 := by
  rw [emptyRead, if_neg fun h => ha h.1, if_neg fun h => hb h.1, if_pos ⟨hm, by simp [he]⟩]

theorem emptyRead_none (sh : Shape) (q : SeqSt) {f : Fields} (ha : f.wa ≠ 2) (hb : f.wb ≠ 2) (hc : f.wc ≠ 2) :
    emptyRead sh q f = none := by
  rw [emptyRead, if_neg fun h => ha h.1, if_neg fun h => hb h.1, if_neg fun h => hc h.1]

theorem waitHeld_iff (sh : Shape) (q : SeqSt) (f : Fields) :
    waitHeld sh q f = true ↔ (f.wa = 1 ∧ sh.sa.full q f.sa = false) ∨ (f.wb = 1 ∧ sh.sb.full q f.sb = false) ∨
      (f.wc = 1 ∧ sh.sc.full q f.sc = false) := by
  simp [waitHeld, or_assoc]

theorem waitHeld_of_modes_zero (sh : Shape) (q : SeqSt) {f : Fields} (ha : f.wa = 0) (hb : f.wb = 0) (hc : f.wc = 0) :
    waitHeld sh q f = false := by
  simp [waitHeld, ha, hb, hc]

/-- Settles O3: every instruction answers by its gate first, and the wait modes decide the gate before anything of its own does. -/
theorem waitModesAtIssue : Obligations.WaitModesAtIssue := by
  intro i s sh lat h
  refine ⟨fun h3 => ?mode11, fun hd hp => ⟨fun hm he => ?sa, fun hm he ha => ?sb, fun hm he ha hb => ?sc, fun hw ha hb hc => ?mode01,
    fun ha hb hc => ?mode00⟩, fun _ _ _ => ⟨rfl, rfl⟩⟩
  case mode11 =>
    obtain ⟨d, hd⟩ := illegalDetail_of_mode_three h3
    exact ⟨d, exec_of_gate_trap h (gate_of_illegalDetail lat hd)⟩
  case sa => exact exec_of_gate_trap h (gate_of_emptyRead lat hd hp (emptyRead_sa hm he))
  case sb => exact exec_of_gate_trap h (gate_of_emptyRead lat hd hp (emptyRead_sb ha hm he))
  case sc => exact exec_of_gate_trap h (gate_of_emptyRead lat hd hp (emptyRead_sc ha hb hm he))
  case mode01 =>
    exact exec_of_gate_wait h (gate_of_waitHeld lat hd hp (emptyRead_none sh _ ha hb hc) ((waitHeld_iff ..).mpr hw))
  case mode00 =>
    exact ⟨emptyRead_none sh _ (by simp [ha]) (by simp [hb]) (by simp [hc]), waitHeld_of_modes_zero sh _ ha hb hc⟩

end Sys2Proof.Proofs
end

section
/-! SUPPORT. The scalar compares with the conditions of MOD and SSEL (R87, R107, R108), and NOP (R124). -/

namespace Sys2Proof.Proofs

open Sys2Proof Machine Safety Laws

/-- A property of the long and of the short form of an instruction holds of both. -/
theorem forall_mem_pair {p : Instr → Prop} {i j : Instr} (hi : p i) (hj : p j) : ∀ k ∈ [i, j], p k :=
  List.forall_mem_cons.mpr ⟨hi, List.forall_mem_singleton.mpr hj⟩

/-! An effect that is one write and notes no read of a vector register (R387). -/

section OneWrite

variable {sh : Shape} {s : State} (h : Ready sh (some 1) s) (hn : s.noteReads sh = s)
include h hn

theorem issue_writeS (x : State → Word) :
    issue sh (some 1) (fun s => .done (s.writeS 1 s.core.q.ir.dst (x s))) s =
      .next (retired s (s.writeS 1 s.core.q.ir.dst (x s)) (some 1)) :=
  issue_done h hn rfl (writeS_loops ..)

theorem issue_writeM (en : BitVec 64) (x : State → BitVec 64) :
    issue sh (some 1) (fun s => .done (s.writeM 1 s.core.q.ir.dst en (x s))) s =
      .next (retired s (s.writeM 1 s.core.q.ir.dst en (x s)) (some 1)) :=
  issue_done h hn rfl (writeM_loops ..)

end OneWrite

/-! The compares (R107). -/

theorem scalarCompare_of_ready {s : State} (h : Ready (shScmp s.core.q.ir) (some 1) s) :
    scalarCompare s = .next (retired s (s.writeS 1 s.core.q.ir.dst (boolWord s.compareRegs)) (some 1)) :=
  issue_writeS h (noteReads_of_no_vector s nofun nofun nofun) fun s => boolWord s.compareRegs

theorem execScmpi_of_ready {s : State} (h : Ready (shScmpi s.core.q.ir) (some 1) s) :
    execScmpi s = .next (retired s (s.writeS 1 s.core.q.ir.dst (boolWord s.compareImm)) (some 1)) :=
  issue_writeS h (noteReads_of_no_vector s nofun nofun nofun) fun s => boolWord s.compareImm

theorem execScmpm_of_ready {s : State} (h : Ready (shScmpm s.core.q.ir) (some 1) s) :
    execScmpm s =
      .next (retired s (s.writeM 1 s.core.q.ir.dst (BitVec.allOnes 64) (boolMask s.compareRegs)) (some 1)) :=
  issue_writeM h (noteReads_of_no_vector s nofun nofun nofun) (BitVec.allOnes 64) fun s => boolMask s.compareRegs

/-! The conditions of MOD (R87, R107). -/

/-- Each condition is a test of `compare`, which names the order of the two integers. -/
theorem condHolds_int (x y : Int) :
    condHolds 0 (.int x) (.int y) = decide (x = y) ∧ condHolds 1 (.int x) (.int y) = decide (x ≠ y) ∧
    condHolds 2 (.int x) (.int y) = decide (x < y) ∧ condHolds 3 (.int x) (.int y) = decide (x ≤ y) ∧
    condHolds 4 (.int x) (.int y) = decide (x > y) ∧ condHolds 5 (.int x) (.int y) = decide (x ≥ y) := by
  have eq : compare x y = .eq ↔ x = y := compare_eq_iff_eq
  have lt : compare x y = .lt ↔ x < y := compare_lt_iff_lt
  have gt : compare x y = .gt ↔ x > y := compare_gt_iff_gt
  refine ⟨?_, ?_, ?_, ?_, ?_, ?_⟩
  all_goals rw [Bool.eq_iff_iff]; simp [condHolds, condOrd, eq, lt, gt]

theorem condFlt_nan_left (c : BitVec 4) (v : FVal) : condFlt c .nan v = decide (c = 1 ∨ c = 6) := by
  simp [condFlt, Sem.isNaN]

theorem condFlt_nan_right (c : BitVec 4) (v : FVal) : condFlt c v .nan = decide (c = 1 ∨ c = 6) := by
  simp [condFlt, Sem.isNaN]

/-- R107: −0 equals +0; the model has a zero at every exponent. -/
theorem cmp_zeros (n m : Bool) (i j : Int) : Sem.cmp (.fin n 0 i) (.fin m 0 j) = .eq := by
  simp [Sem.cmp, Sem.scaled]

theorem condFlt_eq_zeros (n m : Bool) (i j : Int) : condFlt 0 (.fin n 0 i) (.fin m 0 j) = true := by
  simp [condFlt, Sem.isNaN, cmp_zeros, condOrd]

/-! SSEL (R108). -/

theorem execSsel_of_ready {s : State} (h : Ready (shSsel s.core.q.ir) (some 1) s) :
    execSsel s = .next (retired s (s.writeS 1 s.core.q.ir.dst (if s.srcA ≠ 0 then s.srcB else s.srcC)) (some 1)) :=
  issue_writeS h (noteReads_of_no_vector s nofun nofun nofun) fun s => if s.srcA ≠ 0 then s.srcB else s.srcC

theorem execSsel_of_ne_zero {s : State} (h : Ready (shSsel s.core.q.ir) (some 1) s) (ha : s.srcA ≠ 0) :
    execSsel s = .next (retired s (s.writeS 1 s.core.q.ir.dst s.srcB) (some 1)) := by
  rw [execSsel_of_ready h, if_pos ha]

theorem execSsel_of_eq_zero {s : State} (h : Ready (shSsel s.core.q.ir) (some 1) s) (ha : s.srcA = 0) :
    execSsel s = .next (retired s (s.writeS 1 s.core.q.ir.dst s.srcC) (some 1)) := by
  rw [execSsel_of_ready h, if_neg (not_not_intro ha)]

/-- Settles O8: each form is one write of a value that the model's comparison or the selector decides. -/
theorem scalarCompareResult : Obligations.ScalarCompareResult := by
  refine ⟨fun s => ⟨fun h => ?scmp, execScmpi_of_ready, execScmpm_of_ready⟩, ⟨condHolds_int, fun c v _ => ?nan, condFlt_eq_zeros⟩,
    fun s => ⟨rfl, fun h => ⟨execSsel_of_ne_zero h, execSsel_of_eq_zero h⟩⟩⟩
  case scmp => exact forall_mem_pair (scalarCompare_of_ready h) (scalarCompare_of_ready h)
  case nan => exact ⟨condFlt_nan_left c v, condFlt_nan_right c v⟩

/-! NOP (R124). -/

/-- R84: whether its predicate is on or off, NOP retires the state that it finds. -/
theorem noOperation_of_pass {s : State} (h : gate (shNop s.core.q.ir) none s = .pass) (hs : Straight s) :
    noOperation s = .next (retired s s none) := by
  cases hp : predOn s.core.q s.core.q.ir with
  | false => rw [noOperation, issue, issueWith_off h rfl hp, retireSeq_straight hs rfl]
  | true => exact issue_done ⟨h, hp, hs⟩ (noteReads_of_no_vector s nofun nofun nofun) rfl rfl

/-- TYPE and MOD have no check of their own (log 32), so the check of detail 4 is the first that NOP can fail. -/
theorem illegalDetail_nop {f : Fields} (h : f ≠ { pred := f.pred, pneg := f.pneg }) : illegalDetail (shNop f) f = some 4 := by
  have ty : (shNop f).tyOk = true := rfl
  have md : (shNop f).mdOk = true := rfl
  have imm : (shNop f).immOk = false := decide_eq_false h
  simp [illegalDetail, ty, md, imm]

theorem noOperation_of_nonzero_field {s : State} (h : s.core.q.ir ≠ { pred := s.core.q.ir.pred, pneg := s.core.q.ir.pneg }) :
    noOperation s = .next (s.takeTrap (trapOf ILLEGAL 4) s.core.q.pc) := by
  rw [noOperation, issue, issueWith_trap (gate_of_illegalDetail none (illegalDetail_nop h))]

/-- R62, R64: an instruction that retires in sequence occupies one issue cyc. -/
theorem retired_nextIssue (s t : State) (lat : Option Nat) : (retired s t lat).core.q.nextIssue = s.cyc + 1 := rfl

/-- R64: an instruction that retires is the newest entry of the dynamic order, with the cyc of its result where it has a latency. -/
theorem retired_hist (s t : State) (lat : Option Nat) :
    (retired s t lat).core.q.hist = (lat.map (t.cyc + ·) :: t.core.q.hist).take 7 := rfl

/-- Settles O10: both forms are `noOperation`, whose effect is the state it finds and whose shape refuses every other field. -/
theorem nopOnlyOccupiesItsCyc : Obligations.NopOnlyOccupiesItsCyc := by
  refine fun s => ⟨rfl, forall_mem_pair ?long ?short⟩
  all_goals exact ⟨fun h hs => ⟨noOperation_of_pass h hs, retired_nextIssue s s none, retired_hist s s none⟩,
    noOperation_of_nonzero_field⟩

end Sys2Proof.Proofs
end
